-- ==== Sys2Proof/Word.lean ====
section
/-! DEFINITION. The word types: bytes, register words, and the sparse map shape every memory and register array uses. -/

namespace Sys2Proof

/-- One byte of a memory, a window or a frame. -/
abbrev Byte := BitVec 8

/-- One register word (R55: every BAR0 access is one aligned 32-bit access). -/
abbrev Word := BitVec 32

/-- A sparse array: (index, value) pairs with indices strictly rising and no entry equal to what an
unlisted index reads as. What an unlisted index reads as is said by each reader (`SMap.get`). -/
abbrev SMap (α : Type) := List (Nat × α)

end Sys2Proof
end

