-- ==== Sys2Proof/Syntax.lean ====
section
/-! DEFINITION. The commands: one constructor per row of the opcode table, with the operands the environment
supplies (a register address and data, a frame's bytes, a pin's level, a measured reading). -/

namespace Sys2Proof

/-- The three memory BARs (R51). -/
inductive Bar where
  | bar0 | bar2 | bar4
  deriving DecidableEq, Repr

/-- The stalling registers of R68. -/
inductive StallReg where
  | topRstCmd | topSealCmd | tsuTbCmd (b : Fin 4) | secDoorbell
  deriving DecidableEq, Repr

/-- A front port (R18). -/
abbrev Port := Fin 64
/-- A front or internal port (R19). -/
abbrev AnyPort := Fin 68
/-- A quad of front ports (R18). -/
abbrev Quad := Fin 16
/-- A pipeline, port group or egress group. -/
abbrev Group := Fin 5
/-- A domain (R22). -/
abbrev Dom := Fin 16
/-- A time base (R332). -/
abbrev Tb := Fin 4


/-- How a register access arrives (R51, R549): a host write or read at a BAR offset with or without all byte enables, or the
bits that a probe sends on the debug wire. -/
inductive Via where
  | write (bar : Bar) (addr : Nat) (enables : Bool) (data : List Byte)
  | read (bar : Bar) (addr len : Nat) (enables : Bool)
  | wire (bits : List Bool)
  deriving DecidableEq, Repr

/-- The AVSBus transactions of the device (R42, R44): the Voltage write in progress, a Voltage read with its answer, a Status
read. -/
inductive AvsOp where
  | write
  | voltage (v : BitVec 10)
  | status
  deriving DecidableEq, Repr

/-- The commands of the block. Each docstring names the rule whose step the command is. -/
inductive Instr where
  /-- REGISTER_WRITE (R62). -/
  | registerWrite (via : Via) (otpOk : Bool)
  /-- MASKED_ALIAS_WRITE (R64). -/
  | maskedAliasWrite (page : Nat) (off : BitVec 10) (high : Bool) (sel val : BitVec 16)
  /-- COUNTER_CLEAR_WRITE (R161). -/
  | counterClearWrite (page : Nat) (off : BitVec 11) (mask : Word)
  /-- FAR_WRITE_COMPLETE (R65). -/
  | farWriteComplete (page : Nat)
  /-- FAR_WRITE_TIMEOUT (R67). -/
  | farWriteTimeout (page : Nat)
  /-- STALL_LIMIT_REACHED (R68). -/
  | stallLimitReached (reg : StallReg) (write : Bool) (data : Word)
  /-- APERTURE_ACCESS (R57). -/
  | apertureAccess (off : Nat) (len : Nat) (write : Option (List Byte))
  /-- HIF_IRQ_EOI (R71). -/
  | hifIrqEoi (vector : Fin 256)
  /-- MSIX_VECTOR_UNMASK (R70). -/
  | msixVectorUnmask (vector : Fin 256)
  /-- FUNCTION_LEVEL_RESET (R52). -/
  | functionLevelReset
  /-- D3HOT_ENTRY (R52). -/
  | d3hotEntry
  /-- PCIE_RESET (R524). -/
  | pcieReset (low : Bool)
  /-- HIF_ERR_CAP_CLEAR (R83). -/
  | hifErrCapClear
  /-- RING_TAIL_WRITE (R73). -/
  | ringTailWrite (entry : Fin 2048) (tail : BitVec 16)
  /-- RING_DISABLE (R81). -/
  | ringDisable (entry : Fin 2048)
  /-- RING_IRQ_PEND_CLEAR (R77). -/
  | ringIrqPendClear (entry : Fin 2048)
  /-- RING_COALESCE_TIMEOUT (R76). -/
  | ringCoalesceTimeout (entry : Fin 2048)
  /-- HOST_DMA_DISABLE (R83). -/
  | hostDmaDisable
  /-- HOST_TX_FETCH (R79). -/
  | hostTxFetch (ring : Fin 1024)
  /-- HOST_RX_DELIVER (R75). -/
  | hostRxDeliver (ring : Fin 1024) (upset : Option (Nat × Word))
  /-- GOVERNOR_INTERVAL_END (R42). -/
  | governorIntervalEnd (load : BitVec 8 × Bool)
  /-- MONITOR_WINDOW_END (R38). -/
  | monitorWindowEnd (readings : List (BitVec 12) × Bool)
  /-- AVS_TRANSACTION_COMPLETE (R44). -/
  | avsTransactionComplete (ok : Bool) (op : AvsOp)
  /-- AVS_READBACK_TIMEOUT (R44). -/
  | avsReadbackTimeout
  /-- AVS_FAULT_CLEAR (R44). -/
  | avsFaultClear
  /-- CLK_MON_CLR (R48). -/
  | clkMonClr
  /-- CLOCK_LOSS (R49). -/
  | clockLoss (domain : Fin 212)
  /-- QUAD_MODE_CHANGE (R85). -/
  | quadModeChange (quad : Quad) (mode : Fin 4)
  /-- LANE_ENABLE_CHANGE (R108). -/
  | laneEnableChange (quad : Quad) (lane : Fin 4) (en : Bool)
  /-- AUTONEG_COMPLETE (R90). -/
  | autonegComplete (quad : Quad) (lane : Fin 4) (speed : Fin 3) (half : Bool)
  /-- TRAINING_DONE (R90). -/
  | trainingDone (quad : Quad) (lane : Fin 4)
  /-- TRAINING_TIMEOUT (R90). -/
  | trainingTimeout (quad : Quad) (lane : Fin 4)
  /-- TRAINING_RESTART (R90). -/
  | trainingRestart (quad : Quad) (lane : Fin 4)
  /-- LINK_UP (R91). -/
  | linkUp (port : Port)
  /-- LINK_DOWN (R91). -/
  | linkDown (port : Port) (lost : Fin 4 × Fin 6)
  /-- SERDES_PLL_LOCK_LOST (R109). -/
  | serdesPllLockLost (quad : Quad)
  /-- RX_FRAME_START (R92). -/
  | rxFrameStart (port : Port) (bytes : List Byte)
  /-- RX_OVERSIZE (R93). -/
  | rxOversize (port : Port) (codeErr : Bool)
  /-- RX_FRAME_END (R94). -/
  | rxFrameEnd (port : Port) (rest : List Byte) (codes : Bool × List (Nat × Nat)) (full : Bool) (reasm : Fin 3)
  /-- PAUSE_FRAME_RECEIVED (R102). -/
  | pauseFrameReceived (port : Port) (own : Bool) (quanta : BitVec 16)
  /-- PFC_FRAME_RECEIVED (R103). -/
  | pfcFrameReceived (port : Port) (enable : BitVec 8) (timers : List (BitVec 16))
  /-- PAUSE_TIMER_EXPIRE (R102). -/
  | pauseTimerExpire (port : Port)
  /-- PFC_TIMER_EXPIRE (R103). -/
  | pfcTimerExpire (port : Port) (prio : Fin 8)
  /-- PAUSE_FRAME_SEND (R104). -/
  | pauseFrameSend (port : Port)
  /-- MAC_RX_ENABLE_CHANGE (R111). -/
  | macRxEnableChange (port : Port) (en : Bool)
  /-- MAC_TX_DISABLE (R100). -/
  | macTxDisable (port : Port)
  /-- PREEMPT_VERIFY_SEND (R105). -/
  | preemptVerifySend (port : Port)
  /-- PREEMPT_VERIFY_RESPONSE (R105). -/
  | preemptVerifyResponse (port : Port)
  /-- PREEMPT_VERIFY_TIMEOUT (R105). -/
  | preemptVerifyTimeout (port : Port)
  /-- WAKE_ENERGY_DETECT (R106). -/
  | wakeEnergyDetect (port : Port) (lane : Fin 4)
  /-- WAKE_PATTERN_MATCH (R106). -/
  | wakePatternMatch (port : Port) (bytes : List Byte)
  /-- PARSE_ADMIT (R113). -/
  | parseAdmit (pipe : Group) (port : AnyPort)
  /-- LATE_CLAIM_CHECK (R125). -/
  | lateClaimCheck (pipe : Group)
  /-- PIPELINE_STAGE (R133). -/
  | pipelineStage (pipe : Group) (stage : Fin 12)
  /-- PUNT_METER_REFILL (R147). -/
  | puntMeterRefill
  /-- EGRESS_EDIT (R151). -/
  | egressEdit (group : Group) (read : Option Word)
  /-- TAKEOVER_FORCE (R155). -/
  | takeoverForce (group : Fin 4)
  /-- TAKEOVER_PORT_SWITCH (R155). -/
  | takeoverPortSwitch (port : Port)
  /-- TAKEOVER_RELEASE (R158). -/
  | takeoverRelease
  /-- LEARN_PROCESS (R174). -/
  | learnProcess
  /-- AGING_SCAN (R176). -/
  | agingScan
  /-- PENDING_SWEEP (R176). -/
  | pendingSweep
  /-- TBL_DMA_DISABLE (R177). -/
  | tblDmaDisable
  /-- TBL_CMD_WRITE (R179). -/
  | tblCmdWrite
  /-- TBL_CMD_READ (R179). -/
  | tblCmdRead
  /-- TBL_CMD_INSERT (R179). -/
  | tblCmdInsert
  /-- TBL_CMD_DELETE (R179). -/
  | tblCmdDelete
  /-- TBL_CMD_SEARCH (R179). -/
  | tblCmdSearch
  /-- TBL_CMD_LOCK (R181). -/
  | tblCmdLock
  /-- TBL_CMD_UNLOCK (R181). -/
  | tblCmdUnlock
  /-- LOCK_AUTO_RELEASE (R181). -/
  | lockAutoRelease (lock : Fin 8)
  /-- SCRUB_WORD (R182). -/
  | scrubWord (bad : List (Nat × Nat × Byte) × List (Fin 5)) (shadowBad : Bool)
  /-- VER_SET_OPEN (R201). -/
  | verSetOpen
  /-- VER_SET_COMMIT (R201). -/
  | verSetCommit
  /-- VER_SET_CLOSE (R201). -/
  | verSetClose
  /-- COMMIT_POINT (R193). -/
  | commitPoint
  /-- OPEN_SET_LIMIT (R204). -/
  | openSetLimit
  /-- POLICE_FRAME (R210). -/
  | policeFrame (pol : Group)
  /-- METER_REFILL (R220). -/
  | meterRefill (pol : Group) (meter : Fin 8192 × Bool)
  /-- STREAM_GATE_ENTRY (R215). -/
  | streamGateEntry (pol : Group) (sched : Fin 256)
  /-- SCHEDULE_CYCLE_START (R217). -/
  | scheduleCycleStart (pol : Group) (sched : Fin 256)
  /-- CELL_SEND (R235). -/
  | cellSend (staging : Group)
  /-- CELL_ACK (R239). -/
  | cellAck (staging : Group)
  /-- ACK_TIMEOUT_RESEND (R248). -/
  | ackTimeoutResend (staging group : Group) (seq : BitVec 20)
  /-- PLANE_STALL_DETECT (R245). -/
  | planeStallDetect (plane staging group : Group)
  /-- PLANE_SELF_TEST_DONE (R249). -/
  | planeSelfTestDone (plane : Group) (pass : Bool)
  /-- CMD_PLANE_ISOLATE (R258). -/
  | cmdPlaneIsolate (plane : Group)
  /-- CMD_PLANE_TEST (R258). -/
  | cmdPlaneTest (plane : Group)
  /-- CMD_PLANE_SWAP (R258). -/
  | cmdPlaneSwap (plane : Group)
  /-- FABRIC_ENABLE_CHANGE (R257). -/
  | fabricEnableChange (en : Bool)
  /-- RSQ_CELL_ARRIVE (R260). -/
  | rsqCellArrive (group staging plane : Group) (bad : Bool)
  /-- RSQ_CELL_PASS_OUT (R262). -/
  | rsqCellPassOut (group : Group)
  /-- GAP_TIMEOUT (R263). -/
  | gapTimeout (group staging : Group)
  /-- RECOVERY_RESET_TIMEOUT (R269). -/
  | recoveryResetTimeout (group : Group) (inst : Fin 1024)
  /-- RSQ_IND_READ (R274). -/
  | rsqIndRead (group : Group) (target : Fin 4) (index : BitVec 15)
  /-- RSQ_IND_WRITE (R274). -/
  | rsqIndWrite (group : Group) (target : Fin 4) (index : BitVec 15)
  /-- RSQ_IND_DONE (R274). -/
  | rsqIndDone (group : Group)
  /-- BPM_ADMIT (R282). -/
  | bpmAdmit (group : Group)
  /-- BPM_CELL_ALLOC (R283). -/
  | bpmCellAlloc (group : Group)
  /-- COPY_RELEASE (R286). -/
  | copyRelease (head gen : Nat) (tail : Option (Nat × Nat))
  /-- FREE_STORE_MOVE (R288). -/
  | freeStoreMove (pool : Fin 7)
  /-- BPM_ENABLE (R291). -/
  | bpmEnable
  /-- BPM_INIT_DONE (R291). -/
  | bpmInitDone
  /-- SWEEP_REQUEST (R293). -/
  | sweepRequest
  /-- SWEEP_COMPLETE (R293). -/
  | sweepComplete
  /-- HBM_REQUEST_SERVE (R297). -/
  | hbmRequestServe (slot : Fin 64) (bad : Nat) (synd : Word)
  /-- HBM_REFRESH (R297). -/
  | hbmRefresh (slot bank : Fin 64)
  /-- PC_FREEZE (R299). -/
  | pcFreeze (slot : Fin 64) (kind : Fin 4) (addr : Nat) (synd : Word)
  /-- SLOT_RESUME (R301). -/
  | slotResume (slot : Fin 64)
  /-- SPARE_PC_TEST_DONE (R301). -/
  | sparePcTestDone (slot : Fin 64) (pass : Bool)
  /-- HBC_PPR_CMD (R302). -/
  | hbcPprCmd (stack : Fin 2) (pc : Fin 32) (bank : Fin 64) (row : BitVec 13)
  /-- PPR_COMPLETE (R302). -/
  | pprComplete (stack : Fin 2) (result : Fin 4)
  /-- HBM_STACK_ENABLE (R307). -/
  | hbmStackEnable (stack : Fin 2)
  /-- HBM_INIT_DONE (R307). -/
  | hbmInitDone (stack : Fin 2)
  /-- TMG_SELECT (R319). -/
  | tmgSelect (port : AnyPort) (express : Bool)
  /-- TX_COPY_START (R386). -/
  | txCopyStart (port : AnyPort) (express : Bool) (upset : Option (Nat × Word))
  /-- TX_COPY_END (R406). -/
  | txCopyEnd (port : AnyPort) (upset : Option (Nat × Word)) (underrun : Bool)
  /-- SHAPER_REFILL (R315). -/
  | shaperRefill (group : Group)
  /-- RESIDENCY_VISIT (R321). -/
  | residencyVisit (queue : Fin 5120)
  /-- FC_REPEAT_TIMER (R325). -/
  | fcRepeatTimer (port : Port)
  /-- SAMPLE_ROUND_START (R326). -/
  | sampleRoundStart (group : Group) (late : Bool)
  /-- TB_SET (R335). -/
  | tbSet (base : Tb)
  /-- TB_STEP (R335). -/
  | tbStep (base : Tb)
  /-- TB_SNAPSHOT (R334). -/
  | tbSnapshot (bases : BitVec 4)
  /-- TXTS_POP (R339). -/
  | txtsPop (port : Port)
  /-- PIN_EVENT_POP (R343). -/
  | pinEventPop (pin : Tb)
  /-- PIN_PULSE_RISE (R342). -/
  | pinPulseRise (pin : Tb)
  /-- PIN_PULSE_FALL (R342). -/
  | pinPulseFall (pin : Tb)
  /-- PIN_INPUT_EDGE (R343). -/
  | pinInputEdge (pin : Tb) (falling : Bool) (width : Nat)
  /-- TS_PLL_LOCK_LOST (R346). -/
  | tsPllLockLost
  /-- GCL_COMMIT (R351). -/
  | gclCommit (port : Port)
  /-- GCL_CANCEL (R352). -/
  | gclCancel (port : Port)
  /-- GCL_TAKEOVER (R353). -/
  | gclTakeover (port : Port)
  /-- GATE_ENTRY_BOUNDARY (R356). -/
  | gateEntryBoundary (port : Port)
  /-- GATE_ENGINE_DISABLE (R354). -/
  | gateEngineDisable (port : Port)
  /-- CAPTURE_RECORD_WRITE (R372). -/
  | captureRecordWrite
  /-- CAPTURE_UNFREEZE (R377). -/
  | captureUnfreeze
  /-- FRONT_TIMED_INJECT (R402). -/
  | frontTimedInject
  /-- FRONT_SOFTWARE_INJECT (R402). -/
  | frontSoftwareInject
  /-- FRONT_PASS_BLOCK (R390). -/
  | frontPassBlock (page : Fin 176)
  /-- FRONT_COMPLETE (R408). -/
  | frontComplete
  /-- FRONT_LATE (R403). -/
  | frontLate
  /-- LEDGER_AUDIT (R392). -/
  | ledgerAudit
  /-- LEDGER_UNFREEZE (R394). -/
  | ledgerUnfreeze
  /-- STA_ENABLE_CHANGE (R405). -/
  | staEnableChange (en : Bool) (mode : Bool) (src : Bool) (period : BitVec 16)
  /-- BW_WINDOW_END (R413). -/
  | bwWindowEnd (port : AnyPort) (tx : Bool)
  /-- PMC_STOP_REQUEST (R419). -/
  | pmcStopRequest
  /-- PMC_RESUME (R419). -/
  | pmcResume
  /-- SEC_ALLOCATE (R429). -/
  | secAllocate (otpOk : Bool)
  /-- SEC_PROGRAM_ROOT_HASH (R431). -/
  | secProgramRootHash (slot : Dom) (alg : BitVec 2) (otpOk : Bool)
  /-- DOORBELL_COMPLETE (R455). -/
  | doorbellComplete
  /-- SEAL (R430). -/
  | seal
  /-- SEAL_COMPLETE (R456). -/
  | sealComplete (otpOk : Bool)
  /-- GET_NONCE (R436). -/
  | getNonce
  /-- ENROLL (R436). -/
  | enroll
  /-- WARDEN_WRITE (R437). -/
  | wardenWrite
  /-- WARDEN_READ (R437). -/
  | wardenRead
  /-- VER_OPEN (R436). -/
  | verOpen
  /-- VER_COMMIT (R436). -/
  | verCommit
  /-- VER_CLOSE (R436). -/
  | verClose
  /-- KEK_INIT (R441). -/
  | kekInit
  /-- KEY_LOAD (R442). -/
  | keyLoad
  /-- KEY_ERASE (R444). -/
  | keyErase
  /-- SET_VIEW (R436). -/
  | setView
  /-- SET_MIRROR (R436). -/
  | setMirror
  /-- SET_MACSEC_REQ (R436). -/
  | setMacsecReq
  /-- ATTEST (R445). -/
  | attest
  /-- RESEAL (R430). -/
  | reseal
  /-- SIGNATURE_LOCKOUT_END (R434). -/
  | signatureLockoutEnd (dom : Dom)
  /-- TENANT_SECTION (R440). -/
  | tenantSection
  /-- MSC_IND_READ (R452). -/
  | mscIndRead (quad : Quad) (target : Fin 4) (index : BitVec 9)
  /-- MSC_IND_WRITE (R452). -/
  | mscIndWrite (quad : Quad) (target : Fin 4) (index : BitVec 9)
  /-- MSC_IND_DONE (R452). -/
  | mscIndDone (quad : Quad)
  /-- ISL_WINDOW_CLOSE (R467). -/
  | islWindowClose (circuit : Fin 4) (bits : List Bool × List Bool)
  /-- ISL_INPUT_FAULT (R466). -/
  | islInputFault (input : Fin 8) (bad : Bool)
  /-- ISL_SECOND_CLASSIFY (R468). -/
  | islSecondClassify (bits : List (List Bool × List Bool))
  /-- ISL_PERIOD_BOUNDARY (R469). -/
  | islPeriodBoundary (storeOk : Bool)
  /-- ISL_CHECKPOINT (R472). -/
  | islCheckpoint
  /-- ISL_RECORD_SEND (R474). -/
  | islRecordSend
  /-- ISL_MAILBOX_TIME (R476). -/
  | islMailboxTime (calLow : Bool) (storeOk : Bool)
  /-- ISL_MAILBOX_CALIBRATION (R480). -/
  | islMailboxCalibration (calLow : Bool) (storeOk : Bool)
  /-- ISL_MAILBOX_SEAL_ARM (R480). -/
  | islMailboxSealArm (calLow : Bool)
  /-- ISL_SEAL_FUSE (R480). -/
  | islSealFuse (storeOk : Bool)
  /-- ISL_SEAL_ARM_LAPSE (R480). -/
  | islSealArmLapse
  /-- ISL_SEAL_BREAK (R480). -/
  | islSealBreak (storeOk : Bool)
  /-- ISL_HOLD_ENTER (R479). -/
  | islHoldEnter
  /-- ISL_HOLD_EXIT (R479). -/
  | islHoldExit (storeOk : Bool)
  /-- ISL_COLD_START (R477). -/
  | islColdStart (storeOk : Bool)
  /-- ISL_WATCHDOG_RESET (R477). -/
  | islWatchdogReset (storeOk : Bool)
  /-- ISL_STATUS_UPDATE (R484). -/
  | islStatusUpdate (calLow : Bool) (vbat : BitVec 13) (up : BitVec 12)
  /-- ISL_LINK_TIMEOUT (R484). -/
  | islLinkTimeout
  /-- REGION_STALL_TIMEOUT (R487). -/
  | regionStallTimeout (region : Fin 128) (place : BitVec 8)
  /-- SPR_CMD_DECLARE (R503). -/
  | sprCmdDeclare (region : Fin 128)
  /-- SPR_CMD_TEST (R503). -/
  | sprCmdTest (region : Fin 128)
  /-- SPR_CMD_APPROVE (R492). -/
  | sprCmdApprove
  /-- SPR_CMD_DENY (R492). -/
  | sprCmdDeny
  /-- SPR_CMD_RETIRE (R497). -/
  | sprCmdRetire (slot : Fin 64)
  /-- APPROVAL_TIMEOUT (R492). -/
  | approvalTimeout
  /-- REPAIR_START (R492). -/
  | repairStart
  /-- REPAIR_COMPLETE (R492). -/
  | repairComplete (pass : Bool)
  /-- EVENT_ACCEPT (R508). -/
  | eventAccept
  /-- SQUALL_ACCEPT (R510). -/
  | squallAccept
  /-- EVR_RECORD_STORE (R512). -/
  | evrRecordStore (first second : Bool)
  /-- EVR_HEADER_WRITE (R513). -/
  | evrHeaderWrite
  /-- EVR_START_SCAN (R514). -/
  | evrStartScan
  /-- EVR_MIRROR_SELECT (R515). -/
  | evrMirrorSelect (seq : BitVec 24)
  /-- EVR_SW_EVENT (R506). -/
  | evrSwEvent (value : BitVec 16)
  /-- POR_RELEASE (R521). -/
  | porRelease (mode : Fin 4)
  /-- POR_ASSERT (R524). -/
  | porAssert
  /-- PWR_EN_SDS_TIMER (R521). -/
  | pwrEnSdsTimer
  /-- PWR_EN_HBM_TIMER (R521). -/
  | pwrEnHbmTimer
  /-- RAIL_CHECK (R522). -/
  | railCheck (rail : Fin 3) (inRange : Bool)
  /-- WARM_RESET (R525). -/
  | warmReset
  /-- BOOT_HEADER_CHECK (R532). -/
  | bootHeaderCheck
  /-- SECTION_REGISTER_WRITES (R531). -/
  | sectionRegisterWrites (otpOk : Bool)
  /-- SECTION_WINDOW_WRITES (R531). -/
  | sectionWindowWrites
  /-- SECTION_TABLE_COMMANDS (R531). -/
  | sectionTableCommands
  /-- SECTION_TENANT (R534). -/
  | sectionTenant
  /-- SECTION_ALLOCATION (R531). -/
  | sectionAllocation (otpOk : Bool)
  /-- SECTION_POLL (R531). -/
  | sectionPoll
  /-- SECTION_CHANGE_SET (R531). -/
  | sectionChangeSet
  /-- LULL_ENTER_CMD (R537). -/
  | lullEnterCmd
  /-- LULL_REQ_PIN (R537). -/
  | lullReqPin (high : Bool)
  /-- LULL_DRAIN_EXPIRE (R537). -/
  | lullDrainExpire
  /-- LULL_GO (R537). -/
  | lullGo
  /-- LULL_HOLD_EXPIRE (R537). -/
  | lullHoldExpire
  /-- LULL_POWER_DOWN_DONE (R538). -/
  | lullPowerDownDone
  /-- LULL_ABORT (R538). -/
  | lullAbort (pin : Bool)
  /-- WAKE_PIN (R540). -/
  | wakePin (low : Bool)
  /-- WAKE_TIMER (R540). -/
  | wakeTimer
  /-- LULL_EXIT (R541). -/
  | lullExit
  /-- DBG_RECEIVER_RESET (R548). -/
  | dbgReceiverReset
  /-- DBG_SESSION_OPEN (R551). -/
  | dbgSessionOpen
  /-- DBG_SESSION_CLOSE (R554). -/
  | dbgSessionClose
  /-- DBG_RESP_PUSH (R552). -/
  | dbgRespPush (value : Word)
  /-- DBG_UNLOCK (R552). -/
  | dbgUnlock
  /-- DBG_IDLE_TIMEOUT (R554). -/
  | dbgIdleTimeout
  /-- DBG_HALT_WRITE (R555). -/
  | dbgHaltWrite (halt : BitVec 5)
  /-- DBG_STEP (R556). -/
  | dbgStep (pipe : BitVec 3) (stage : BitVec 4)
  /-- DBG_TOKEN_SELECT (R556). -/
  | dbgTokenSelect (pipe : BitVec 3) (stage : BitVec 4)
  /-- DBG_MEM_ACCESS (R559). -/
  | dbgMemAccess (space : BitVec 3) (inc write : Bool)
  /-- DBG_MEM_ACCESS_DONE (R559). -/
  | dbgMemAccessDone
  /-- JTAG_INSTRUCTION (R560). -/
  | jtagInstruction (opcode : Byte)
  /-- JTAG_RESET (R560). -/
  | jtagReset
  /-- INIT_END (R528). -/
  | initEnd
  /-- PCIE_LINK_UP (R541). -/
  | pcieLinkUp (speed : Fin 4) (width : Fin 3)
  /-- LANE_LOCK_ACQUIRED (R91). -/
  | laneLockAcquired (quad : Quad) (lane : Fin 4) (what : Fin 5)
  /-- REMOTE_FAULT_RECEIVED (R112). -/
  | remoteFaultReceived (port : Port) (fault : Fin 3)
  /-- CLOCK_LOSS_HELD (R487). -/
  | clockLossHeld (domain : Fin 212)
  /-- LOCK_OVERLAP_WAIT_END (R181). -/
  | lockOverlapWaitEnd
  /-- STACK_HOT_CHANGE (R297). -/
  | stackHotChange (stack : Fin 2) (temp : BitVec 8)
  deriving DecidableEq, Repr

end Sys2Proof
end

