-- ==== Sys2Proof/Decode.lean ====
section
/-! DEFINITION. Words to commands. No row of the opcode table gives bits: the commands come over buses and pins and have
no encoding, so no word spells one. -/

namespace Sys2Proof

/-- The command a word spells by the table's bits: none, because the table gives no row any bits. -/
def decodeTableWord (_nbits _w : Nat) : Option Instr := none

end Sys2Proof
end

