-- ==== Sys2Proof/Config.lean ====
section
/-! DEFINITION. What the spec leaves to an implementation, to the environment or to chance: opaque constants with no
body, so that nothing can be proved of their values. Each is named in the assumption log. -/

namespace Sys2Proof.Config

/-- Free value: the n-th byte the device's random source draws (nonces R434, challenges R552, island secrets R480). -/
opaque randomByte : Nat → Byte

/-- Free value: the voltage in mV at which the board's regulator starts (R45 bounds it to 750 to 850). -/
opaque regulatorStart : Nat

/-- Free value: whether an ML-DSA-65 signature verifies: public key, message, signature. (The other algorithm of the
spec, ECDSA P-384, is computed: `Crypto.ecdsaVerify`.) -/
opaque mlDsaVerify : List Byte → List Byte → List Byte → Bool

/-- Free value: whether a signature verifies under the key whose SHA-384 a root slot holds (R552): algorithm, key hash,
message, signature. -/
opaque rootVerify : Nat → List Byte → List Byte → List Byte → Bool

/-- Free value: the signature the device identity key makes: algorithm, message, draw number. -/
opaque deviceSign : Nat → List Byte → Nat → List Byte

/-- Free value: the P-384 private key the island derives from a secret (R470 states no derivation). -/
opaque islandScalar : List Byte → Nat

/-- Free value: the calibration secret fused at manufacture (R480). -/
opaque islandCalSecret : List Byte

/-- Free value: whether an energy sum that falls between two accumulator units is taken as the upper one (R465 states no
rounding): numerator, denominator. -/
opaque islandRoundUp : Int → Nat → Bool

/-- Free value: the output of an input's 32-tap compensation filter (R464 states its response, not its coefficients), in 2^−23 of
full scale: the oversampling ratio and the last 32 outputs of the sinc3 decimator, newest first. -/
opaque compensate : Nat → List Int → Int

/-- Free value: a result the spec leaves open after an operation that goes on, numbered by the draw counter. -/
opaque freeValue : Nat → Nat

/-- Free value: the slots of stack 0 and stack 1 that hold the two copies of a free handle's ring entry (R288: the layout of
the free-store area is internal). -/
opaque ringSlots : Nat → Fin 30 × Fin 30

/-- Free value: the stack and slot that hold a handle's check word (R382: the free-store area keeps it at a position that the
handle fixes). -/
opaque checkSlot : Nat → Fin 2 × Fin 30

/-- Free value: the macro ([31:12]) and row ([11:0]) in which an SRAM word of a region stands (R499, R503 name them and give no
numbering). -/
opaque sramRow : Nat → Nat → BitVec 32

/-- Free value: the device serial in OTP (16 bytes, R445). -/
opaque serial : List Byte

/-- Free value: the island's identity (16 bytes, ISL_ID). -/
opaque islandId : List Byte

/-- Free value: the number by which event 0x2C04 names a cause of R444 (1 KEY_ERASE, 2 debug, 3 RESEAL, 4 Lull or reset). -/
opaque zeroizeCause : Nat → Nat

end Sys2Proof.Config
end

