-- ==== Sys2Proof/Machine/Bits.lean ====
section
/-! DEFINITION. Bit fields of register words, byte orders (R5), sparse arrays, and the check codes the spec
fixes bit by bit (CRC-16 of R74, CRC-32C, the Ethernet FCS). -/

namespace Sys2Proof

/-! ### Bit fields -/

/-- Field [hi:lo] of a number, both ends inclusive (the notation of `spec/00_scope.md`). -/
def bitsOf (w hi lo : Nat) : Nat := (w >>> lo) % 2 ^ (hi + 1 - lo)

/-- Field [hi:lo] of a register word. -/
def fld (w : Word) (hi lo : Nat) : Nat := bitsOf w.toNat hi lo

/-- One bit of a register word. -/
def bit (w : Word) (i : Nat) : Bool := w.getLsbD i

/-- The word with ones in [hi:lo]. -/
def maskOf (hi lo : Nat) : Word := BitVec.ofNat 32 ((2 ^ (hi + 1 - lo) - 1) <<< lo)

/-- The word with field [hi:lo] replaced. -/
def setFld (w : Word) (hi lo v : Nat) : Word :=
  (w &&& ~~~ (maskOf hi lo)) ||| BitVec.ofNat 32 ((v % 2 ^ (hi + 1 - lo)) <<< lo)

/-- The word with one bit replaced. -/
def setBit (w : Word) (i : Nat) (b : Bool) : Word := setFld w i i (if b then 1 else 0)

/-- A number as a register word. -/
def word (n : Nat) : Word := BitVec.ofNat 32 n

/-- A flag as a number. -/
def b2n (b : Bool) : Nat := if b then 1 else 0

/-- A signed reading of the low `w` bits of a number. -/
def toSigned (w n : Nat) : Int :=
  let m := n % 2 ^ w
  if m < 2 ^ (w - 1) then (m : Int) else (m : Int) - (2 ^ w : Nat)

/-- The low `w` bits of an integer, two's complement. -/
def fromSigned (w : Nat) (z : Int) : Nat := (z % (2 ^ w : Nat)).toNat

/-- Addition that saturates at the largest `w`-bit number. -/
def satAdd (w a b : Nat) : Nat := min (a + b) (2 ^ w - 1)

/-! ### Byte orders -/

/-- Little-endian value of a byte list (R5: structures shared in memory). -/
def leVal : List Byte → Nat
  | [] => 0
  | b :: bs => b.toNat + 256 * leVal bs

/-- Network-order value of a byte list (R5: frame contents). -/
def beVal (bs : List Byte) : Nat := bs.foldl (fun a b => a * 256 + b.toNat) 0

/-- The `n` bytes of a value, least significant first. -/
def leBytes : Nat → Nat → List Byte
  | 0, _ => []
  | n + 1, v => BitVec.ofNat 8 v :: leBytes n (v / 256)

/-- The `n` bytes of a value, most significant first. -/
def beBytes (n v : Nat) : List Byte := (leBytes n v).reverse

/-- `n` bytes of a list from an offset, zeros past its end. -/
def slice (bs : List Byte) (off n : Nat) : List Byte :=
  let t := (bs.drop off).take n
  t ++ List.replicate (n - t.length) 0

/-- Little-endian field of a structure: `n` bytes at byte `off`. -/
def leAt (bs : List Byte) (off n : Nat) : Nat := leVal (slice bs off n)

/-- Network-order field of a frame or header: `n` bytes at byte `off`. -/
def beAt (bs : List Byte) (off n : Nat) : Nat := beVal (slice bs off n)

/-- Replace bytes of a list from an offset; bytes past its end are not written. -/
def putBytes (bs : List Byte) (off : Nat) (new : List Byte) : List Byte :=
  (bs.take off ++ new ++ bs.drop (off + new.length)).take bs.length

/-- Bit field [hi:lo] of a structure read as one little-endian number. -/
def sfld (bs : List Byte) (hi lo : Nat) : Nat :=
  bitsOf (leAt bs (lo / 8) (hi / 8 + 1 - lo / 8)) (hi - lo / 8 * 8) (lo % 8)

/-! ### Sparse arrays -/

/-- What index `k` reads as, unlisted indices reading as `d k`. -/
def SMap.atF {α : Type} (d : Nat → α) : SMap α → Nat → α
  | [], k => d k
  | (i, v) :: m, k => if i = k then v else SMap.atF d m k

/-- Insert before the first larger index. -/
def SMap.ins {α : Type} (k : Nat) (v : α) : SMap α → SMap α
  | [] => [(k, v)]
  | (i, w) :: m => if k < i then (k, v) :: (i, w) :: m else (i, w) :: SMap.ins k v m

/-- Write index `k`; writing what an unlisted index reads as removes the entry, so equal arrays are equal data. -/
def SMap.putF {α : Type} [DecidableEq α] (d : Nat → α) (m : SMap α) (k : Nat) (v : α) : SMap α :=
  let m' := m.filter (fun e => decide (e.1 ≠ k))
  if v = d k then m' else SMap.ins k v m'

/-- `atF` with one default for every index. -/
def SMap.at {α : Type} (m : SMap α) (d : α) (k : Nat) : α := SMap.atF (fun _ => d) m k

/-- `putF` with one default for every index. -/
def SMap.put {α : Type} [DecidableEq α] (m : SMap α) (d : α) (k : Nat) (v : α) : SMap α :=
  SMap.putF (fun _ => d) m k v

/-- Update one index. -/
def SMap.upd {α : Type} [DecidableEq α] (m : SMap α) (d : α) (k : Nat) (f : α → α) : SMap α :=
  m.put d k (f (m.at d k))

/-- The canonical form of a sparse array. -/
def SMap.WF {α : Type} (d : Nat → α) (m : SMap α) : Prop :=
  m.Pairwise (fun a b => a.1 < b.1) ∧ ∀ e ∈ m, e.2 ≠ d e.1

/-! ### Byte memories (unlisted bytes read 0) -/

/-- `n` bytes of a memory from an address. -/
def readBytes (m : SMap Byte) (a : Nat) : Nat → List Byte
  | 0 => []
  | n + 1 => m.at 0 a :: readBytes m (a + 1) n

/-- Write bytes to consecutive addresses. -/
def writeBytes (m : SMap Byte) (a : Nat) : List Byte → SMap Byte
  | [] => m
  | b :: bs => writeBytes (m.put 0 a b) (a + 1) bs

/-- Little-endian number of `n` bytes in a memory. -/
def readLE (m : SMap Byte) (a n : Nat) : Nat := leVal (readBytes m a n)

/-- Store a number little-endian in `n` bytes. -/
def writeLE (m : SMap Byte) (a n v : Nat) : SMap Byte := writeBytes m a (leBytes n v)

/-- The byte after an XOR with a byte pattern at an address (fault injection, R298). -/
def xorByte (m : SMap Byte) (a : Nat) (v : Byte) : SMap Byte := m.put 0 a (m.at 0 a ^^^ v)

/-! ### Check codes -/

/-- Eight shifts of a reflected CRC register. -/
def crcRefl (poly : Nat) : Nat → Nat → Nat
  | 0, c => c
  | n + 1, c => crcRefl poly n (if c % 2 = 1 then (c / 2) ^^^ poly else c / 2)

/-- CRC-32C: reflected polynomial 0x82F6_3B78, initial value and final XOR all ones. -/
def crc32c (bs : List Byte) : Nat :=
  (bs.foldl (fun c b => crcRefl 0x82F63B78 8 (c ^^^ b.toNat)) 0xFFFFFFFF) ^^^ 0xFFFFFFFF

/-- The Ethernet frame check sequence (IEEE 802.3 CRC-32). -/
def crc32 (bs : List Byte) : Nat :=
  (bs.foldl (fun c b => crcRefl 0xEDB88320 8 (c ^^^ b.toNat)) 0xFFFFFFFF) ^^^ 0xFFFFFFFF

/-- `n` shifts of a 16-bit unreflected CRC register. -/
def crcFwd16 : Nat → Nat → Nat
  | 0, c => c
  | n + 1, c => crcFwd16 n (if 0x8000 ≤ c then ((c * 2) % 0x10000) ^^^ 0x1021 else c * 2)

/-- The CRC-16 of R74: polynomial 0x1021, initial value 0xFFFF, most significant bit of each byte first,
neither reflected nor finally inverted. -/
def crc16 (bs : List Byte) : Nat :=
  bs.foldl (fun c b => crcFwd16 8 (c ^^^ (b.toNat * 256))) 0xFFFF

/-! ### Lists -/

/-- Replace the element at an index; an index past the end changes nothing. -/
def setAt {α : Type} : List α → Nat → α → List α
  | [], _, _ => []
  | _ :: xs, 0, v => v :: xs
  | x :: xs, n + 1, v => x :: setAt xs n v

/-- Take out the first element that meets a test. -/
def takeFirst {α : Type} (p : α → Bool) : List α → Option (α × List α)
  | [] => none
  | x :: xs => if p x then some (x, xs) else (takeFirst p xs).map (fun r => (r.1, x :: r.2))

/-- Replace the first element that meets a test. -/
def replFirst {α : Type} (p : α → Bool) (f : α → α) : List α → List α
  | [] => []
  | x :: xs => if p x then f x :: xs else x :: replFirst p f xs

/-- Sum of a numeric view of a list. -/
def sumBy {α : Type} (f : α → Nat) (xs : List α) : Nat := xs.foldl (fun a x => a + f x) 0

end Sys2Proof
end

