-- ==== Sys2Proof/Machine/Crypto.lean ====
section
/-! DEFINITION. The public algorithms the spec names and does not describe, written from their own standards so that a
command that rests on one has its result: SHA-384 (FIPS 180-4), ECDSA P-384 with deterministic signing (FIPS 186-5,
RFC 6979), AES and its key unwrap (FIPS 197, RFC 3394), and AES-GCM (the cipher suites of IEEE 802.1AE). -/

namespace Sys2Proof.Crypto

/-- Evaluate a number before going on: without it an evaluator that substitutes unevaluated arguments copies work. -/
def force {α : Sort _} (n : Nat) (f : Nat → α) : α :=
  match n with
  | .zero => f 0
  | .succ k => f (.succ k)

@[simp] theorem force_eq {α : Sort _} (n : Nat) (f : Nat → α) : force n f = f n := by cases n <;> rfl

/-- The number bytes spell, most significant first, each step evaluated. -/
def packBytes : List Byte → Nat → Nat
  | [], acc => acc
  | b :: bs, acc => force (acc * 256 + b.toNat) (packBytes bs)

/-! ### SHA-384 -/

/-- The round constants of SHA-512 (fractional parts of the cube roots of the first eighty primes), packed with the first
most significant; twenty words to a line. -/
def shaK : Nat :=
  0x428a2f98d728ae227137449123ef65cdb5c0fbcfec4d3b2fe9b5dba58189dbbc3956c25bf348b53859f111f1b605d019923f82a4af194f9bab1c5ed5da6d8118d807aa98a303024212835b0145706fbe243185be4ee4b28c550c7dc3d5ffb4e272be5d74f27b896f80deb1fe3b1696b19bdc06a725c71235c19bf174cf692694e49b69c19ef14ad2efbe4786384f25e30fc19dc68b8cd5b5240ca1cc77ac9c65 * 2 ^ 3840 +
  0x2de92c6f592b02754a7484aa6ea6e4835cb0a9dcbd41fbd476f988da831153b5983e5152ee66dfaba831c66d2db43210b00327c898fb213fbf597fc7beef0ee4c6e00bf33da88fc2d5a79147930aa72506ca6351e003826f142929670a0e6e7027b70a8546d22ffc2e1b21385c26c9264d2c6dfc5ac42aed53380d139d95b3df650a73548baf63de766a0abb3c77b2a881c2c92e47edaee692722c851482353b * 2 ^ 2560 +
  0xa2bfe8a14cf10364a81a664bbc423001c24b8b70d0f89791c76c51a30654be30d192e819d6ef5218d69906245565a910f40e35855771202a106aa07032bbd1b819a4c116b8d2d0c81e376c085141ab532748774cdf8eeb9934b0bcb5e19b48a8391c0cb3c5c95a634ed8aa4ae3418acb5b9cca4f7763e373682e6ff3d6b2b8a3748f82ee5defb2fc78a5636f43172f6084c87814a1f0ab728cc702081a6439ec * 2 ^ 1280 +
  0x90befffa23631e28a4506cebde82bde9bef9a3f7b2c67915c67178f2e372532bca273eceea26619cd186b8c721c0c207eada7dd6cde0eb1ef57d4f7fee6ed17806f067aa72176fba0a637dc5a2c898a6113f9804bef90dae1b710b35131c471b28db77f523047d8432caab7b40c724933c9ebe0a15c9bebc431d67c49c100d4c4cc5d4becb3e42b6597f299cfc657e2a5fcb6fab3ad6faec6c44198c4a475817

/-- The initial hash value of SHA-384, its eight words packed. -/
def shaInit : Nat :=
  0xcbbb9d5dc1059ed8629a292a367cd5079159015a3070dd17152fecd8f70e593967332667ffc00b318eb44a8768581511db0c2e0d64f98fa747b5481dbefa4fa4

/-- A 64-bit word rotated right. -/
def rotr64 (n k : Nat) : Nat := (n >>> k ||| n <<< (64 - k)) % 2 ^ 64

/-- 64-bit word `i` of a packed block or state, counted from the least significant. -/
def word64 (x i : Nat) : Nat := (x >>> (64 * i)) % 2 ^ 64

/-- The message word that follows sixteen packed ones. -/
def shaNextW (w : Nat) : Nat :=
  force (word64 w 14) fun a => force (word64 w 1) fun b =>
    ((rotr64 b 19 ^^^ rotr64 b 61 ^^^ b >>> 6) + word64 w 6 + (rotr64 a 1 ^^^ rotr64 a 8 ^^^ a >>> 7) + word64 w 15) % 2 ^ 64

/-- One round on the packed working variables a to h (a most significant). -/
def shaRound (k w st : Nat) : Nat :=
  force (word64 st 3) fun e => force (word64 st 7) fun a =>
  force (word64 st 0 + (rotr64 e 14 ^^^ rotr64 e 18 ^^^ rotr64 e 41) +
    ((e &&& word64 st 2) ^^^ ((2 ^ 64 - 1 - e) &&& word64 st 1)) + k + word64 w 15) fun t1 =>
  force (word64 st 6) fun b => force (word64 st 5) fun c =>
  force ((rotr64 a 28 ^^^ rotr64 a 34 ^^^ rotr64 a 39) + ((a &&& b) ^^^ (a &&& c) ^^^ (b &&& c))) fun t2 =>
  force (word64 st 4 + t1) fun d =>
    ((t1 + t2) % 2 ^ 64) * 2 ^ 448 + (st >>> 320) % 2 ^ 192 * 2 ^ 256 + (d % 2 ^ 64) * 2 ^ 192 + (st >>> 64) % 2 ^ 192

/-- The last `n` rounds of a block. -/
def shaRounds : Nat → Nat → Nat → Nat
  | 0, _, st => st
  | n + 1, w, st =>
    force (shaRound (word64 shaK n) w st) fun st' => force (w % 2 ^ 960 * 2 ^ 64 + shaNextW w) fun w' => shaRounds n w' st'

/-- The eight words of two packed states added, each modulo 2^64. -/
def shaAdd (x y : Nat) : Nat :=
  (List.range 8).foldl (fun acc i => acc + (word64 x i + word64 y i) % 2 ^ 64 * 2 ^ (64 * i)) 0

/-- The state after the blocks of a padded message. -/
def shaBlocks : Nat → List Byte → Nat → Nat
  | 0, _, st => st
  | n + 1, bs, st =>
    force (packBytes (bs.take 128) 0) fun w =>
      force (shaAdd st (shaRounds 80 w st)) fun st' => shaBlocks n (bs.drop 128) st'

/-- SHA-384 of a byte list: 48 bytes. -/
def sha384 (m : List Byte) : List Byte :=
  let zeros := (239 - m.length % 128) % 128
  let padded := m ++ [0x80] ++ List.replicate zeros 0 ++ beBytes 16 (8 * m.length)
  force (shaBlocks (padded.length / 128) padded shaInit) fun st => beBytes 48 (st / 2 ^ 128)

/-! ### ECDSA P-384 -/

/-- The field's prime, the group's order, the curve's b and its base point. -/
def p384 : Nat := 2 ^ 384 - 2 ^ 128 - 2 ^ 96 + 2 ^ 32 - 1

def n384 : Nat :=
  0xffffffffffffffffffffffffffffffffffffffffffffffffc7634d81f4372ddf581a0db248b0a77aecec196accc52973

def b384 : Nat :=
  0xb3312fa7e23ee7e4988e056be3f82d19181d9c6efe8141120314088f5013875ac656398d8a2ed19d2a85c8edd3ec2aef

def gx384 : Nat :=
  0xaa87ca22be8b05378eb1c71ef320ad746e1d3b628ba79b9859f741e082542a385502f25dbf55296c3a545e3872760ab7

def gy384 : Nat :=
  0x3617de4a96262c6f5d9e98bf9292dc29f8f41dbd289a147ce9da3113b5f0b8c00a60b1ce1d7e819d7a431d7c90ea0e5f

/-- Difference modulo the prime of two reduced numbers. -/
def subP (a b : Nat) : Nat := (a + p384 - b) % p384

/-- A point in Jacobian coordinates (x = X/Z², y = Y/Z³); Z = 0 is the point at infinity. -/
structure Pt where
  x : Nat
  y : Nat
  z : Nat
  deriving DecidableEq, Repr

/-- A point whose coordinates are evaluated. -/
def mkPt {α : Sort _} (x y z : Nat) (f : Pt → α) : α :=
  force x fun x => force y fun y => force z fun z => f { x := x, y := y, z := z }

/-- Twice a point of a curve with a = -3. -/
def Pt.double {α : Sort _} (p : Pt) (f : Pt → α) : α :=
  force (p.z * p.z % p384) fun zz => force (p.y * p.y % p384) fun yy => force (p.x * yy % p384) fun b =>
  force (3 * subP p.x zz * (p.x + zz) % p384) fun m => force (subP (m * m % p384) (8 * b % p384)) fun x =>
    mkPt x (subP (m * subP (4 * b % p384) x % p384) (8 * yy * yy % p384)) (2 * p.y * p.z % p384) f

/-- The sum of two points. -/
def Pt.add {α : Sort _} (p q : Pt) (f : Pt → α) : α :=
  if p.z = 0 then f q
  else if q.z = 0 then f p
  else
    force (p.z * p.z % p384) fun zp => force (q.z * q.z % p384) fun zq =>
    force (p.x * zq % p384) fun u1 => force (q.x * zp % p384) fun u2 =>
    force (p.y * zq * q.z % p384) fun s1 => force (q.y * zp * p.z % p384) fun s2 =>
      if u1 = u2 then (if s1 = s2 then p.double f else f { x := 1, y := 1, z := 0 })
      else
        force (subP u2 u1) fun h => force (subP s2 s1) fun r => force (h * h % p384) fun hh =>
        force (h * hh % p384) fun hhh => force (u1 * hh % p384) fun v =>
        force (subP (r * r % p384) ((hhh + 2 * v) % p384)) fun x =>
          mkPt x (subP (r * subP v x % p384) (s1 * hhh % p384)) (p.z * q.z * h % p384) f

/-- u·P + v·Q over the low `n` bits of u and v, given P + Q. -/
def mulAdd (u v : Nat) (p q pq : Pt) : Nat → Pt → Pt
  | 0, acc => acc
  | n + 1, acc => acc.double fun a =>
    if u.testBit n then
      (if v.testBit n then a.add pq (mulAdd u v p q pq n) else a.add p (mulAdd u v p q pq n))
    else if v.testBit n then a.add q (mulAdd u v p q pq n)
    else mulAdd u v p q pq n a

/-- x to the e modulo m over the low `n` bits of e, most significant first. -/
def powMod (m x e : Nat) : Nat → Nat → Nat
  | 0, acc => acc
  | n + 1, acc => force (acc * acc % m) fun a =>
    if e.testBit n then force (a * x % m) (powMod m x e n) else powMod m x e n a

/-- Whether an ECDSA P-384 signature with SHA-384 verifies: the key is 0x04, X, Y; the signature r, s (48 bytes each). -/
def ecdsaVerify (key msg sig : List Byte) : Bool :=
  force (packBytes (slice key 1 48) 0) fun x => force (packBytes (slice key 49 48) 0) fun y =>
  force (packBytes (slice sig 0 48) 0) fun r => force (packBytes (slice sig 48 48) 0) fun s =>
    if key.length ≠ 97 ∨ key.head? ≠ some 0x04 ∨ sig.length ≠ 96 ∨ p384 ≤ x ∨ p384 ≤ y ∨ r = 0 ∨ n384 ≤ r ∨ s = 0 ∨ n384 ≤ s ∨
      y * y % p384 ≠ (x * x * x + (p384 - 3) * x + b384) % p384 then false
    else
      force (packBytes (sha384 msg) 0) fun e => force (powMod n384 s (n384 - 2) 384 1) fun w =>
      force (e * w % n384) fun u => force (r * w % n384) fun v =>
      let g : Pt := { x := gx384, y := gy384, z := 1 }
      let q : Pt := { x := x, y := y, z := 1 }
      g.add q fun gq =>
        match mulAdd u v g q gq 384 { x := 1, y := 1, z := 0 } with
        | ⟨rx, _, rz⟩ => decide (rz ≠ 0) &&
          (decide (rx = r * (rz * rz) % p384) || (decide (r + n384 < p384) && decide (rx = (r + n384) * (rz * rz) % p384)))

/-- HMAC over SHA-384 (FIPS 198-1) under a key of at most 128 bytes. -/
def hmac384 (key m : List Byte) : List Byte :=
  let k := key ++ List.replicate (128 - key.length) 0
  sha384 (k.map (fun b => b ^^^ 0x5c) ++ sha384 (k.map (fun b => b ^^^ 0x36) ++ m))

/-- The per-message number of RFC 6979: the first of the generator's outputs that lies in 1 to n - 1 (after four, each
outside with a chance below 2^-190, the fifth is reduced). -/
def nonceFrom : Nat → List Byte → List Byte → Nat
  | 0, k, v => packBytes (hmac384 k v) 0 % n384
  | fuel + 1, k, v =>
    let v := hmac384 k v
    force (packBytes v 0) fun x =>
      if 0 < x ∧ x < n384 then x
      else
        let k := hmac384 k (v ++ [0])
        nonceFrom fuel k (hmac384 k v)

/-- The deterministic per-message number of a private key and a message. -/
def nonce6979 (d : Nat) (msg : List Byte) : Nat :=
  let h := beBytes 48 (packBytes (sha384 msg) 0 % n384)
  let v := List.replicate 48 1
  let k := hmac384 (List.replicate 48 0) (v ++ [0] ++ beBytes 48 d ++ h)
  let v := hmac384 k v
  let k := hmac384 k (v ++ [1] ++ beBytes 48 d ++ h)
  nonceFrom 4 k (hmac384 k v)

/-- The affine coordinates of u times the base point. -/
def mulBase (u : Nat) : Nat × Nat :=
  let g : Pt := { x := gx384, y := gy384, z := 1 }
  match mulAdd u 0 g g g 384 { x := 1, y := 1, z := 0 } with
  | ⟨x, y, z⟩ => force (powMod p384 z (p384 - 2) 384 1) fun i => force (i * i % p384) fun ii => (x * ii % p384, y * ii % p384 * i % p384)

/-- The public key of a private key: X then Y. -/
def ecdsaPublic (d : Nat) : List Byte := beBytes 48 (mulBase d).1 ++ beBytes 48 (mulBase d).2

/-- The deterministic ECDSA P-384 signature with SHA-384 under a private key: r then s, 96 bytes. -/
def ecdsaSign (d : Nat) (msg : List Byte) : List Byte :=
  let k := nonce6979 d msg
  let r := (mulBase k).1 % n384
  beBytes 48 r ++ beBytes 48 ((packBytes (sha384 msg) 0 + r * d) * powMod n384 k (n384 - 2) 384 1 % n384)

/-- Whether a signature verifies, by algorithm: 1 ECDSA P-384, otherwise ML-DSA-65. -/
def sigVerify (alg : Nat) (key msg sig : List Byte) : Bool :=
  if alg = 1 then ecdsaVerify key msg sig else Config.mlDsaVerify key msg sig

/-! ### AES -/

/-- The S-box of AES, entry 0 in the least significant byte. -/
def aesSbox : Nat :=
  0xc072a49cafa2d4adf04759fa7dc982ca76abd7fe2b670130c56f6bf27b777c63 * 2 ^ 0 +
  0x75b227ebe28012079a059618c323c7041531d871f1e5a534ccf73f362693fdb7 * 2 ^ 256 +
  0xcf584c4a39becb6a5bb1fc20ed00d153842fe329b3d63b52a05a6e1b1a2c8309 * 2 ^ 512 +
  0xd2f3ff1021dab6bcf5389d928f40a351a89f3c507f02f94585334d43fbaaefd0 * 2 ^ 768 +
  0xdb0b5ede14b8ee4688902a22dc4f816073195d643d7ea7c41744975fec130ccd * 2 ^ 1024 +
  0x08ae7a65eaf4566ca94ed58d6d37c8e779e4959162acd3c25c2406490a3a32e0 * 2 ^ 1280 +
  0x9e1dc186b95735610ef6034866b53e708a8bbd4b1f74dde8c6b4a61c2e2578ba * 2 ^ 1536 +
  0x16bb54b00f2d99416842e6bf0d89a18cdf2855cee9871e9b948ed9691198f8e1 * 2 ^ 1792

/-- The inverse S-box of AES, entry 0 in the least significant byte. -/
def aesInvSbox : Nat :=
  0xcbe9dec444438e3487ff2f9b8239e37cfbd7f3819ea340bf38a53630d56a0952 * 2 ^ 0 +
  0x25d18b6d49a25b76b224d92866a12e084ec3fa420b954cee3d23c2a632947b54 * 2 ^ 256 +
  0x849d8da75746155edab9edfd5048706c92b6655dcc5ca4d41698688664f6f872 * 2 ^ 512 +
  0x6b8a130103bdafc1020f3fca8f1e2cd00645b3b80558e4f70ad3bc8c00abd890 * 2 ^ 768 +
  0x6edf751ce837f9e28535ade72274ac9673e6b4f0cecff297eadc674f4111913a * 2 ^ 1024 +
  0xf45acd78fec0db9a2079d2c64b3e56fc1bbe18aa0e62b76f89c5291d711af147 * 2 ^ 1280 +
  0xef9cc9939f7ae52d0d4ab519a97f51605fec8027591012b131c7078833a8dd1f * 2 ^ 1536 +
  0x7d0c2155631469e126d677ba7e042b17619953833cbbebc8b0f52aae4d3be0a0 * 2 ^ 1792

/-- The S-box and its inverse. -/
def sub (b : Nat) : Nat := (aesSbox >>> (8 * b)) % 256

def invSub (b : Nat) : Nat := (aesInvSbox >>> (8 * b)) % 256

/-- The four bytes of a column each through a box; a word's first byte is its most significant. -/
def subWord (f : Nat → Nat) (w : Nat) : Nat :=
  f (w / 2 ^ 24) * 2 ^ 24 + f (w / 2 ^ 16 % 256) * 2 ^ 16 + f (w / 2 ^ 8 % 256) * 2 ^ 8 + f (w % 256)

/-- Key expansion: words come newest first, `nk` the key's words, `i` the next word's index, `rc` the round constant. -/
def expand (nk : Nat) : Nat → Nat → Nat → List Nat → List Nat
  | 0, _, _, ws => ws
  | n + 1, i, rc, ws =>
    let last := ws.headD 0
    let rot := last % 2 ^ 24 * 256 + last / 2 ^ 24
    let first := decide (i % nk = 0)
    let t := if first then subWord sub rot ^^^ (rc * 2 ^ 24) else if decide (nk = 8) && decide (i % 8 = 4) then subWord sub last else last
    force (ws.getD (nk - 1) 0 ^^^ t) fun w => force (if first then (if rc < 128 then 2 * rc else (2 * rc) ^^^ 0x11b) else rc) fun rc' =>
      expand nk n (i + 1) rc' (w :: ws)

/-- Bytes in groups of four as numbers. -/
def words32 : List Byte → List Nat
  | a :: b :: c :: d :: r => packBytes [a, b, c, d] 0 :: words32 r
  | _ => []

/-- Words packed four to a round key. -/
def roundKeys : List Nat → List Nat
  | a :: b :: c :: d :: r => (a * 2 ^ 96 + b * 2 ^ 64 + c * 2 ^ 32 + d) :: roundKeys r
  | _ => []

/-- The round keys of a key of 16 or 32 bytes, first round first. -/
def aesKeys (key : List Byte) : List Nat :=
  let nk := key.length / 4
  roundKeys (expand nk (4 * (nk + 7) - nk) nk 1 (words32 key).reverse).reverse

/-- Byte `i` of a packed block, the first byte most significant. -/
def byteN (st i : Nat) : Nat := (st >>> (8 * (15 - i))) % 256

/-- A block from its sixteen bytes. -/
def block (f : Nat → Nat) : Nat := (List.range 16).foldl (fun acc i => acc * 256 + f i) 0

/-- ShiftRows (column `c` takes row `r` from column `c + k·r`) through a box. -/
def shiftSub (box : Nat → Nat) (k st : Nat) : Nat := block fun i => box (byteN st (4 * ((i / 4 + k * (i % 4)) % 4) + i % 4))

/-- Every byte of a block multiplied by x in the field of AES (x^8 + x^4 + x^3 + x + 1). -/
def xtime (st : Nat) : Nat :=
  ((st &&& 0x7f7f7f7f7f7f7f7f7f7f7f7f7f7f7f7f) <<< 1) ^^^ (((st >>> 7) &&& 0x01010101010101010101010101010101) * 0x1b)

/-- Every column of a block turned up by one byte. -/
def turn (st : Nat) : Nat :=
  ((st &&& 0x00ffffff00ffffff00ffffff00ffffff) <<< 8) ||| ((st >>> 24) &&& 0x000000ff000000ff000000ff000000ff)

/-- MixColumns: a byte becomes 2·itself + 3·the next + the two after. -/
def mixCols (st : Nat) : Nat :=
  force (turn st) fun a => force (turn a) fun b => force (turn b) fun c => xtime (st ^^^ a) ^^^ a ^^^ b ^^^ c

/-- InvMixColumns: 4·(itself + the byte two on) is added to each byte, then MixColumns. -/
def invMixCols (st : Nat) : Nat :=
  force (st ^^^ turn (turn st)) fun a => force (xtime a) fun a => force (st ^^^ xtime a) mixCols

/-- The rounds of an encryption after the first key was added. -/
def encRounds : List Nat → Nat → Nat
  | [], st => st
  | [k], st => shiftSub sub 1 st ^^^ k
  | k :: ks, st => force (shiftSub sub 1 st) fun a => force (mixCols a ^^^ k) (encRounds ks)

/-- AES encryption of a packed block under round keys. -/
def aesEnc (ks : List Nat) (b : Nat) : Nat :=
  match ks with
  | [] => b
  | k :: ks => force (b ^^^ k) (encRounds ks)

/-- The rounds of a decryption, round keys last first. -/
def decRounds : List Nat → Nat → Nat
  | [], st => st
  | [k], st => shiftSub invSub 3 st ^^^ k
  | k :: ks, st => force (shiftSub invSub 3 st ^^^ k) fun a => force (invMixCols a) (decRounds ks)

/-- AES decryption of a packed block under round keys. -/
def aesDec (ks : List Nat) (b : Nat) : Nat :=
  match ks.reverse with
  | [] => b
  | k :: ks => force (b ^^^ k) (decRounds ks)

/-! ### AES key unwrap (RFC 3394) -/

/-- One pass of the unwrap over the registers, last first: the integrity register, the counter, the registers done. -/
def unwrapPass (ks : List Nat) : List Nat → Nat → Nat → List Nat → Nat × List Nat
  | [], a, _, done => (a, done)
  | r :: rs, a, t, done =>
    force (aesDec ks ((a ^^^ t) * 2 ^ 64 + r)) fun b => force (b / 2 ^ 64) fun a' => force (b % 2 ^ 64) fun r' =>
      unwrapPass ks rs a' (t - 1) (r' :: done)

/-- The passes of an unwrap. -/
def unwrapPasses (ks : List Nat) : Nat → Nat → List Nat → Nat × List Nat
  | 0, a, rs => (a, rs)
  | n + 1, a, rs =>
    match unwrapPass ks rs.reverse a ((n + 1) * rs.length) [] with
    | (a', rs') => unwrapPasses ks n a' rs'

/-- Bytes in groups of eight as numbers. -/
def words64 : List Byte → List Nat
  | a :: b :: c :: d :: e :: f :: g :: h :: r => packBytes [a, b, c, d, e, f, g, h] 0 :: words64 r
  | _ => []

/-- AES key unwrap: the key-encryption key and the wrapped bytes; none when the integrity check fails. -/
def keyUnwrap (kek wrapped : List Byte) : Option (List Byte) :=
  match words64 wrapped with
  | [] => none
  | a :: rs =>
    match unwrapPasses (aesKeys kek) 6 a rs with
    | (a', rs') => if a' = 0xa6a6a6a6a6a6a6a6 then some (rs'.flatMap (beBytes 8)) else none

/-! ### AES-GCM -/

/-- Product in the field of GHASH: `x` taken bit by bit, most significant first, `v` the other factor shifted along. -/
def ghashMul (x : Nat) : Nat → Nat → Nat → Nat
  | 0, _, z => z
  | n + 1, v, z =>
    force (if x.testBit n then z ^^^ v else z) fun z' =>
      force (if v.testBit 0 then (v / 2) ^^^ (0xe1 * 2 ^ 120) else v / 2) fun v' => ghashMul x n v' z'

/-- GHASH over `n` 16-byte blocks of a byte list that is read as padded with zeros. -/
def ghash (h : Nat) : Nat → List Byte → Nat → Nat
  | 0, _, y => y
  | n + 1, bs, y => force (y ^^^ packBytes (slice bs 0 16) 0) fun a => force (ghashMul a 128 h 0) (ghash h n (bs.drop 16))

/-- Counter mode from a counter block: the bytes xored with the key stream. -/
def ctr (ks : List Nat) : Nat → Nat → List Byte → List Byte
  | 0, _, _ => []
  | n + 1, c, bs =>
    let part := bs.take 16
    force (aesEnc ks c) fun k => force (c / 2 ^ 32 * 2 ^ 32 + (c + 1) % 2 ^ 32) fun c' =>
      List.zipWith (fun x y => x ^^^ y) part (beBytes 16 k) ++ ctr ks n c' (bs.drop 16)

/-- The tag of authenticated bytes and a ciphertext. -/
def gcmTag (ks : List Nat) (j : Nat) (aad ct : List Byte) : Nat :=
  force (aesEnc ks 0) fun h => force (ghash h ((aad.length + 15) / 16) aad 0) fun y =>
    force (ghash h ((ct.length + 15) / 16) ct y) fun y =>
      force (ghash h 1 (beBytes 8 (8 * aad.length) ++ beBytes 8 (8 * ct.length)) y) fun y => y ^^^ aesEnc ks j

/-- The counter block of a 96-bit nonce. -/
def gcmJ (nonce : List Byte) : Nat := packBytes (slice nonce 0 12) 0 * 2 ^ 32 + 1

/-- AES-GCM protection: key, nonce, authenticated bytes, plaintext; the ciphertext, then the 16-byte ICV. -/
def gcmSeal (key nonce aad plain : List Byte) : List Byte :=
  let ks := aesKeys key
  let ct := ctr ks ((plain.length + 15) / 16) (gcmJ nonce + 1) plain
  ct ++ beBytes 16 (gcmTag ks (gcmJ nonce) aad ct)

/-- AES-GCM validation: ciphertext with its ICV; none when the ICV does not match. -/
def gcmOpen (key nonce aad sealed_ : List Byte) : Option (List Byte) :=
  let ks := aesKeys key
  let ct := sealed_.take (sealed_.length - 16)
  if sealed_.length < 16 ∨ sealed_.drop ct.length ≠ beBytes 16 (gcmTag ks (gcmJ nonce) aad ct) then none
  else some (ctr ks ((ct.length + 15) / 16) (gcmJ nonce + 1) ct)

end Sys2Proof.Crypto
end

