-- ==== Sys2Proof/Machine/RegDefs.lean ====
section
/-! DEFINITION. The register map's vocabulary: access classes (R8), the address map of BAR0 (R53), register
and field descriptors, and the common page (R58, R59). -/

namespace Sys2Proof.Machine

/-- The access classes of R8. -/
inductive Acc where
  | ro | rh | w1c | w1s | wo | rws | rwl | rwv
  deriving DecidableEq, Repr

/-- One field of a register: bits [hi:lo], access class, the range a write must keep (R60 kind 0x5) and the
values the spec says a write rejects as reserved (R60 kind 0x3). -/
structure FieldD where
  hi  : Nat
  lo  : Nat
  acc : Acc
  min : Nat := 0
  max : Option Nat := none
  rsv : List Nat := []
  deriving DecidableEq, Repr

/-- One row of a register table: `count` registers `stride` bytes apart from offset `off`; the reset values in
index order, the last one standing for every later index. -/
structure RegD where
  name   : String
  off    : Nat
  count  : Nat
  stride : Nat
  resets : List Nat
  fields : List FieldD
  deriving DecidableEq, Repr

/-- A single register. -/
def reg (name : String) (off rst : Nat) (fs : List FieldD) : RegD := ⟨name, off, 1, 4, [rst], fs⟩
/-- A row of registers. -/
def regs (name : String) (off count stride : Nat) (rsts : List Nat) (fs : List FieldD) : RegD :=
  ⟨name, off, count, stride, rsts, fs⟩

/-! Field shorthands, one for each class of R8. -/
def fRO (hi lo : Nat) : FieldD := { hi, lo, acc := .ro }
def fRH (hi lo : Nat) : FieldD := { hi, lo, acc := .rh }
def fW1C (hi lo : Nat) : FieldD := { hi, lo, acc := .w1c }
def fW1S (hi lo : Nat) : FieldD := { hi, lo, acc := .w1s }
def fWO (hi lo : Nat) (min : Nat := 0) (max : Option Nat := none) : FieldD := { hi, lo, acc := .wo, min, max }
def fRWS (hi lo : Nat) (min : Nat := 0) (max : Option Nat := none) : FieldD := { hi, lo, acc := .rws, min, max }
def fRWL (hi lo : Nat) (min : Nat := 0) (max : Option Nat := none) : FieldD := { hi, lo, acc := .rwl, min, max }
def fRWV (hi lo : Nat) (min : Nat := 0) (max : Option Nat := none) : FieldD := { hi, lo, acc := .rwv, min, max }

/-- The blocks of the address map, in the order of their block IDs (R53). -/
inductive Blk where
  | top | hif | clk | pmu | tsu | evr | dbg | isl | spr | sta | pmc | sec | lrn | tbl | bpm | glf
  | sds | mac | prs | pip | pol | rsq | tmg | tgs | mir | hbc | msc
  deriving DecidableEq, Repr

/-- The block ID of R53. -/
def Blk.id : Blk → Nat
  | .top => 0 | .hif => 1 | .clk => 2 | .pmu => 3 | .tsu => 4 | .evr => 5 | .dbg => 6 | .isl => 7
  | .spr => 8 | .sta => 9 | .pmc => 10 | .sec => 11 | .lrn => 12 | .tbl => 13 | .bpm => 14 | .glf => 15
  | .sds => 16 | .mac => 17 | .prs => 18 | .pip => 19 | .pol => 20 | .rsq => 21 | .tmg => 22 | .tgs => 23
  | .mir => 24 | .hbc => 25 | .msc => 26

/-- The page index of a block's first page, and its instances (R53). -/
def Blk.page0 : Blk → Nat × Nat
  | .top => (0, 1) | .hif => (1, 1) | .clk => (2, 1) | .pmu => (3, 1) | .tsu => (4, 1) | .evr => (5, 1)
  | .dbg => (6, 1) | .isl => (7, 1) | .spr => (8, 1) | .sta => (9, 1) | .pmc => (10, 1) | .sec => (11, 1)
  | .lrn => (12, 1) | .tbl => (13, 1) | .bpm => (14, 1) | .glf => (15, 1)
  | .sds => (0x10, 16) | .mac => (0x20, 64) | .prs => (0x60, 5) | .pip => (0x68, 5) | .pol => (0x70, 5)
  | .rsq => (0x78, 5) | .tmg => (0x80, 5) | .tgs => (0x88, 5) | .mir => (0x90, 1) | .hbc => (0x98, 2)
  | .msc => (0xA0, 16)

def Blk.all : List Blk :=
  [.top, .hif, .clk, .pmu, .tsu, .evr, .dbg, .isl, .spr, .sta, .pmc, .sec, .lrn, .tbl, .bpm, .glf,
   .sds, .mac, .prs, .pip, .pol, .rsq, .tmg, .tgs, .mir, .hbc, .msc]

/-- The page index of an instance of a block. -/
def Blk.page (b : Blk) (inst : Nat := 0) : Nat := b.page0.1 + inst

/-- The BAR0 address of offset `off` in an instance's page. -/
def Blk.addr (b : Blk) (inst off : Nat) : Nat := b.page inst * 0x1000 + off

/-- The block and instance a page index names; none where R53 gives no page. -/
def pageOf (page : Nat) : Option (Blk × Nat) :=
  (Blk.all.find? (fun b => decide (b.page0.1 ≤ page ∧ page < b.page0.1 + b.page0.2))).map
    (fun b => (b, page - b.page0.1))

/-- The far pages of R65 (the TSU page's port-timestamp offsets are the one part of a page). -/
def Blk.far : Blk → Bool
  | .sds | .mac | .msc | .hbc | .tgs => true
  | _ => false

/-- Whether a write to this offset (aliases already resolved) is posted (R65). -/
def isPosted (b : Blk) (off : Nat) : Bool :=
  (b.far && decide (0x40 ≤ off)) || (decide (b = .tsu) && decide (0x300 ≤ off ∧ off ≤ 0x7FC))

/-- The causes of PAGE_IRQ_RAW that a block's chapter names; its other bits are reserved there. The TGS page of P4, for which
R366 names none, keeps R59's 32 cause bits. -/
def irqCauses (b : Blk) (inst : Nat) : List FieldD :=
  match b with
  | .top => [fW1C 20 16, fW1C 2 0]
  | .sta => [fW1C 19 16, fW1C 3 0]
  | .hif | .clk | .isl | .sec | .hbc => [fW1C 4 0]
  | .pmu | .evr | .dbg | .lrn | .bpm | .mac | .pol | .tmg | .mir => [fW1C 3 0]
  | .tsu => [fW1C 7 0]
  | .spr | .tbl => [fW1C 6 0]
  | .pmc | .prs | .msc => [fW1C 1 0]
  | .glf | .pip => [fW1C 5 0]
  | .sds => [fW1C 8 0]
  | .rsq => [fW1C 2 0]
  | .tgs => if inst < 4 then [fW1C 4 0] else [fW1C 31 0]

/-- The common page of R58 and R59, with the causes of a block. -/
def commonRegs (causes : List FieldD) : List RegD :=
  [ reg "PAGE_ID" 0x000 0 [fRO 31 26, fRO 25 16, fRO 15 8],
    reg "PAGE_STATUS" 0x004 0 [fRH 31 31, fW1C 30 30, fRH 29 29, fRH 19 16],
    reg "PAGE_IRQ_RAW" 0x008 0 causes,
    reg "PAGE_IRQ_EN" 0x00C 0 [fRWL 31 0],
    reg "PAGE_IRQ_PEND" 0x010 0 [fRH 31 0],
    reg "PAGE_ERR_CAP" 0x014 0 [fW1C 31 31, fRH 30 30, fRH 27 24, fRH 11 2],
    reg "PAGE_DOMAIN" 0x018 0 [fRH 3 0],
    reg "PAGE_PMC_SEL" 0x01C 0 [fRWL 31 0] ]

/-- The descriptor that covers an offset, if any. -/
def findReg (ds : List RegD) (off : Nat) : Option RegD :=
  ds.find? (fun d => decide (d.off ≤ off ∧ off < d.off + d.count * d.stride ∧ (off - d.off) % d.stride = 0))

/-- The reset value of the register at an offset its descriptor covers. -/
def RegD.resetAt (d : RegD) (off : Nat) : Nat :=
  let i := (off - d.off) / d.stride
  d.resets.getD (min i (d.resets.length - 1)) 0

end Sys2Proof.Machine
end

