-- ==== Sys2Proof/Machine/RegsCore.lean ====
section
/-! DEFINITION. Register tables of the shared blocks: TSU (R344, R345), ISL (R483, R484), SPR (R502, R503),
STA with the ledger (R399, R400, R420, R421), PMC (R423, R424), LRN (R184, R185), TBL (R187, R188),
BPM (R303, R304), HBC (R306, R307). -/

namespace Sys2Proof.Machine

/-- R344, R345. -/
def tsuRegs : List RegD :=
  [ reg "TSU_STATUS" 0x040 0 [fRH 0 0],
    reg "TSU_SNAP_CMD" 0x044 0 [fWO 3 0],
    regs "TSU_TB_CTL" 0x080 4 64 [0] [],
    regs "TSU_TB_ADJ" 0x084 4 64 [0] [fRWL 31 0],
    regs "TSU_TB_SET_SEC_HI" 0x088 4 64 [0] [fRWL 15 0],
    regs "TSU_TB_SET_SEC_LO" 0x08C 4 64 [0] [fRWL 31 0],
    regs "TSU_TB_SET_NS" 0x090 4 64 [0] [fRWL 31 0],
    regs "TSU_TB_STEP" 0x094 4 64 [0] [fRWL 31 0],
    regs "TSU_TB_CMD" 0x098 4 64 [0] [fWO 1 0 1 (some 2)],
    regs "TSU_TB_SNAP_SEC_HI" 0x09C 4 64 [0] [fRH 15 0],
    regs "TSU_TB_SNAP_SEC_LO" 0x0A0 4 64 [0] [fRH 31 0],
    regs "TSU_TB_SNAP_NS" 0x0A4 4 64 [0] [fRH 31 0],
    regs "TSU_TB_SNAP_FRAC" 0x0A8 4 64 [0] [fRH 19 16, fRH 15 0],
    regs "TSU_PIN_CTL" 0x200 4 32 [0x100] [fRWL 1 0 0 (some 2), fRWL 5 4, fRWL 9 8, fRWL 12 12],
    regs "TSU_PIN_PERIOD" 0x204 4 32 [0x3B9ACA00] [fRWL 29 0 1000 (some 1000000000)],
    regs "TSU_PIN_PHASE" 0x208 4 32 [0] [fRWL 29 0],
    regs "TSU_PIN_WIDTH" 0x20C 4 32 [0x989680] [fRWL 29 0 8],
    regs "TSU_PIN_EV_NS" 0x210 4 32 [0] [fRH 31 0],
    regs "TSU_PIN_EV_SEC" 0x214 4 32 [0] [fRH 31 0],
    regs "TSU_PIN_EV_STATUS" 0x218 4 32 [0] [fW1C 31 31, fRH 30 30, fRH 28 28, fRH 27 24, fRH 4 0],
    reg "TSU_PTP_CFG" 0x280 0 [fRWL 5 0],
    regs "TSU_CNT_CORR, _NOCORR, _TXTS_LOST, _EV_LOST" 0x284 4 4 [0] [fRH 31 0],
    reg "TSU_CNT_CLR" 0x294 0 [fWO 3 0],
    regs "TSU_PORT_CFG" 0x300 64 4 [0] [fRWL 1 0, fRWL 4 4, fRWL 5 5, fRWL 15 8, fRWL 23 16],
    regs "TSU_TXTS[0]" 0x400 64 16 [0] [fW1C 31 31, fRH 30 30, fRH 29 28, fRH 27 24, fRH 9 0],
    regs "TSU_TXTS[1]" 0x404 64 16 [0] [fRH 15 0],
    regs "TSU_TXTS[2]" 0x408 64 16 [0] [fRH 31 0],
    regs "TSU_TXTS[3]" 0x40C 64 16 [0] [fRH 31 0] ]

/-- R483, R484: every block register is RH. -/
def islRegs : List RegD :=
  [ reg "ISL_STATUS" 0x040 0
      [fRH 31 31, fRH 1 0, fRH 5 4, fRH 6 6, fRH 8 8, fRH 9 9, fRH 10 10, fRH 11 11, fRH 12 12, fRH 13 13],
    regs "ISL_WIN_SEQ, ISL_SEQ_STORED, _SENT, _COLL" 0x044 4 4 [0] [fRH 31 0],
    reg "ISL_STORE" 0x054 0 [fRH 14 0, fRH 30 16],
    reg "ISL_TIME_SEC" 0x058 0 [fRH 31 0],
    reg "ISL_TIME_INFO" 0x05C 0 [fRH 15 0, fRH 24 16],
    reg "ISL_MBX_CNT" 0x060 0 [fRH 15 0, fRH 31 16],
    reg "ISL_VBAT" 0x064 0 [fRH 12 0, fRH 31 16],
    regs "ISL_CIRC_STAT" 0x080 4 16 [0] [fRH 3 0, fRH 8 8, fRH 9 9, fRH 10 10],
    regs "ISL_CIRC_P" 0x084 4 16 [0] [fRH 31 0],
    regs "ISL_CIRC_VRMS" 0x088 4 16 [0] [fRH 23 0],
    regs "ISL_CIRC_IRMS" 0x08C 4 16 [0] [fRH 23 0],
    regs "ISL_ID" 0x0C0 4 4 [0] [fRH 31 0],
    regs "ISL_PUBKEY" 0x100 24 4 [0] [fRH 31 0],
    regs "ISL_CFG_DIGEST" 0x180 12 4 [0] [fRH 31 0] ]

/-- R502, R503. -/
def sprRegs : List RegD :=
  [ reg "SPR_STATUS" 0x040 0 [fRH 4 0, fRH 8 8],
    reg "SPR_CTL" 0x044 0x3E80321 [fRWL 0 0, fRWL 1 1, fRWL 3 2, fRWL 13 4 10 (some 1000), fRWL 31 16 1 (some 60000)],
    reg "SPR_POLICY" 0x048 0x4401 ((List.range 8).map (fun k => fRWL (2 * k + 1) (2 * k) 0 (some 2))),
    reg "SPR_CMD" 0x04C 0 [fWO 2 0 1 (some 5), fWO 14 8],
    reg "SPR_REQ_HEAD" 0x050 0 [fRH 31 31, fRH 30 28, fRH 26 24, fRH 14 8],
    reg "SPR_REQ_ARG" 0x054 0 [fRH 31 0],
    reg "SPR_FAULT_CAP0" 0x058 0 [fW1C 31 31, fRH 26 24, fRH 22 16, fRH 15 0],
    reg "SPR_FAULT_CAP1" 0x05C 0 [fRH 31 8, fRH 7 0],
    regs "SPR_CNT_FAULT, _REPAIRED, _REFUSED, _TIMEOUT, _ROWS, _BANKS" 0x060 6 4 [0] [fRH 31 0],
    reg "SPR_CNT_CLR" 0x078 0 [fWO 5 0],
    regs "SPR_REGION_STATE" 0x080 16 4
      [0, 0, 0, 0, 0, 0, 0, 0x55000000, 0, 0, 0, 0x55000000, 0, 0, 0, 0x55000000] [fRH 31 0],
    reg "SPR_SPARE_LEFT" 0x0C0 0x0444440A
      [fRH 1 0, fRH 3 2, fRH 10 8, fRH 14 12, fRH 18 16, fRH 22 20, fRH 26 24],
    reg "SPR_ROWS" 0x0C4 0 [fRH 15 0, fRH 31 16],
    reg "SPR_DEGRADE" 0x0C8 0 [fRH 0 0, fRH 1 1, fRH 11 4, fRH 22 16] ]

/-- R420, R421, and the ledger and integrity registers of R399, R400. -/
def staRegs : List RegD :=
  [ reg "STA_STATUS" 0x040 0 [fRH 0 0, fRH 1 1, fRH 2 2],
    reg "STA_CTL" 0x044 0x3E8 [fRWL 15 0 1, fRWL 16 16, fRWL 17 17, fRWL 31 31],
    reg "STA_FRONT_CMD" 0x048 0 [fWO 0 0],
    reg "STA_LATCH_SEQ" 0x04C 0 [fRH 31 0],
    reg "STA_LATCH_NS" 0x050 0 [fRH 29 0],
    reg "STA_LATCH_SEC" 0x054 0 [fRH 31 0],
    reg "STA_LATCH_INFO" 0x058 0 [fRH 15 0, fRH 19 16, fRH 20 20, fRH 21 21, fRH 31 24],
    reg "STA_FRONT_DUR" 0x05C 0 [fRH 15 0],
    reg "STA_HALF_CAP" 0x060 0 [fW1C 31 31, fRH 19 0],
    reg "STA_BW_CTL" 0x064 0x64 [fRWL 19 0 1 (some 1000000)],
    reg "STA_LED_CTL" 0x400 0 [fRWL 0 0, fRWL 1 1, fRWL 2 2],
    reg "STA_LED_STATUS" 0x404 1 [fRH 0 0, fRH 1 1, fW1C 2 2],
    reg "STA_LED_ARCH_BASE" 0x408 0 [fRWS 13 0],
    reg "STA_LED_ARCH_SIZE" 0x40C 0 [fRWS 6 0 1 (some 64)],
    reg "STA_LED_ARCH_WR" 0x410 0 [fRH 31 0],
    reg "STA_LED_FAULT_CAP0" 0x414 0 [fW1C 31 31, fRH 27 24, fRH 19 0],
    reg "STA_LED_FAULT_CAP1" 0x418 0 [fRH 31 0],
    reg "STA_LED_RESID_LO" 0x41C 0 [fRH 31 0],
    reg "STA_LED_RESID_HI" 0x420 0 [fRH 15 0],
    regs "STA_LED_CNT_AUDIT, _FAULT, _OVERRUN" 0x424 3 4 [0] [fRH 31 0],
    reg "STA_LED_CNT_CLR" 0x430 0 [fWO 2 0],
    reg "STA_INT_CAP0" 0x440 0 [fW1C 31 31, fRH 26 24, fRH 18 16, fRH 14 8, fRH 5 0],
    reg "STA_INT_CAP1" 0x444 0 [fRH 31 0],
    reg "STA_INT_CAP2" 0x448 0 [fRH 31 0],
    regs "STA_CNT_INT_CELL, _EDIT, _UNDER, _DESC" 0x450 4 4 [0] [fRH 31 0],
    reg "STA_CNT_INT_CLR" 0x460 0 [fWO 3 0] ]

/-- R423, R424. -/
def pmcRegs : List RegD :=
  [ reg "PMC_STATUS" 0x040 0 [fW1C 0 0, fRH 1 1],
    reg "PMC_CTL" 0x044 0 [fRWL 0 0, fRWL 1 1, fW1S 8 8],
    reg "PMC_TRIG" 0x048 0 [fRWL 31 16, fRWL 15 0],
    reg "PMC_STOP_SEQ" 0x04C 0 [fRH 31 0] ]

/-- R184, R185. -/
def lrnRegs : List RegD :=
  [ reg "LRN_CTL" 0x040 0 [fRWL 0 0],
    reg "LRN_STATUS" 0x044 0 [fRH 12 0, fRH 22 16],
    reg "LRN_MOVE_CTL" 0x048 0x46464 [fRWL 7 0 1, fRWL 15 8 1, fRWL 19 16 1 (some 14)],
    reg "LRN_AGE_CTL" 0x04C 0x8001012C [fRWL 15 0 1, fRWL 19 16 1 (some 15), fRWL 31 31],
    reg "LRN_CUCKOO" 0x050 8 [fRWL 4 0 1 (some 16)],
    reg "LRN_TIME" 0x054 0 [fRH 15 0],
    regs "LRN_CNT_LEARNED, _MOVED, _HELD, _FROZEN, _FULL, _LOST, _LOCK_DROP, _AGED, _STATIC" 0x058 9 4 [0] [fRH 31 0],
    reg "LRN_CNT_CLR" 0x07C 0 [fWO 8 0],
    reg "LRN_FREEZE_CAP0" 0x080 0 [fW1C 31 31, fRH 22 16, fRH 14 8, fRH 3 0],
    reg "LRN_FREEZE_CAP1" 0x084 0 [fRH 31 16, fRH 11 0],
    reg "LRN_FREEZE_CAP2" 0x088 0 [fRH 31 0] ]

/-- The identity bank map: logical bank 4j + i in byte i. -/
def identityMap (j : Nat) : Nat := (4 * j) + (4 * j + 1) * 0x100 + (4 * j + 2) * 0x10000 + (4 * j + 3) * 0x1000000

/-- R187, R188. -/
def tblRegs : List RegD :=
  [ reg "TBL_STATUS" 0x040 0 [fRH 0 0, fRH 1 1, fRH 19 16],
    reg "TBL_DMA_BASE_LO" 0x044 0 [fRWS 31 6],
    reg "TBL_DMA_BASE_HI" 0x048 0 [fRWS 31 0],
    reg "TBL_DMA_CTL" 0x04C 0x400 [fRWL 0 0, fRWS 11 8 4 (some 12)],
    reg "TBL_DMA_HEAD" 0x050 0 [fRH 11 0],
    reg "TBL_DMA_TAIL" 0x054 0 [fRWL 11 0],
    reg "TBL_DMA_ERR" 0x058 0 [fW1C 31 31, fRH 27 24, fRH 23 20, fRH 12 12, fRH 11 0],
    reg "TBL_DMA_CNT" 0x05C 0 [fRH 31 0],
    reg "TBL_SCRUB_CTL" 0x060 0x1003 [fRWL 0 0, fRWL 2 1 0 (some 2), fRWL 3 3, fRWL 15 8 1],
    reg "TBL_SCRUB_STATUS" 0x064 0 [fRH 31 16, fRH 6 0, fRH 8 8],
    reg "TBL_SHADOW_BASE" 0x068 0 [fRWL 13 0 0 (some 16122)],
    reg "TBL_SCRUB_CAP0" 0x06C 0 [fW1C 31 31, fRH 27 24, fRH 20 16, fRH 6 0],
    reg "TBL_SCRUB_CAP1" 0x070 0 [fRH 9 0],
    regs "TBL_CNT_MINORITY, _NOMAJ, _SHADOW, _REPAIRED, _REPAIR_LOST, _LOCK_AUTO" 0x074 6 4 [0] [fRH 31 0],
    reg "TBL_CNT_CLR" 0x08C 0 [fWO 5 0],
    reg "TBL_REPAIR_PEND" 0x090 0 [fRH 8 0],
    regs "TBL_LOCK_SLOT" 0x0C0 8 4 [0] [fRH 31 31, fRH 27 24, fRH 12 0],
    regs "TBL_LOCK_FIRST" 0x0E0 8 4 [0] [fRH 15 0],
    regs "TBL_LPM_BANK" 0x100 24 4 [0] [fRWL 31 31, fRWS 30 30, fRWS 27 24, fRWS 23 16, fRWS 15 8, fRWS 7 0] ] ++
  (List.range 5).map (fun c => regs "TBL_BANK_MAP" (0x400 + 96 * c) 24 4 ((List.range 24).map identityMap)
    [fRH 6 0, fRH 14 8, fRH 22 16, fRH 30 24])

/-- R303, R304. -/
def bpmRegs : List RegD :=
  [ reg "BPM_STATUS" 0x040 0 [fRH 0 0, fRH 1 1, fRH 2 2],
    reg "BPM_CTL" 0x044 0 [fRWL 0 0, fRWL 1 1, fW1S 8 8],
    reg "BPM_SPILL_BASE" 0x048 0 [fRWS 13 0],
    reg "BPM_SPILL_SIZE" 0x04C 0 [fRWS 13 0 0 (some 12000)],
    reg "BPM_RING_BASE" 0x050 0 [fRWS 13 0 0 (some 15872)],
    reg "BPM_USE_SEL" 0x054 0 [fRWL 2 0 0 (some 4)],
    regs "BPM_SPILL_THR" 0x060 5 4 [0x800] [fRWL 13 0 0 (some 16128)],
    regs "BPM_POOL_SIZE" 0x080 7 4 [16384, 16384, 16384, 16384, 16384, 0, 0] [fRH 25 0],
    regs "BPM_POOL_FREE" 0x0A0 7 4 [0] [fRH 25 0],
    regs "BPM_POOL_ALLOC" 0x0C0 7 4 [0] [fRH 25 0],
    regs "BPM_FAULT_RES" 0x0E0 7 4 [256, 256, 256, 256, 256, 0, 0] [fRH 25 0],
    reg "BPM_INV_CAP" 0x100 0 [fW1C 31 31, fRH 30 28, fRH 27 27, fRH 25 0],
    reg "BPM_STALE_CAP0" 0x104 0 [fW1C 31 31, fRH 28 28, fRH 27 16, fRH 11 0],
    reg "BPM_STALE_CAP1" 0x108 0 [fRH 31 0],
    regs "BPM_CNT_QUOTA, _POOL, _STALE, _TWIN, _HBM_LOST, _DESC_ERR, _ORPHAN, _RETIRED" 0x110 8 4 [0] [fRH 31 0],
    reg "BPM_CNT_CLR" 0x130 0 [fWO 7 0],
    regs "BPM_REQ_QUOTA" 0x200 80 4 [0xFFFF0000] [fRWL 31 16, fRWL 13 0 0 (some 16128)],
    regs "BPM_REQ_USE" 0x340 80 4 [0] [fRH 31 16, fRH 13 0] ]

/-- R306, R307. Slots 30 and 31 of a stack reset unmapped. -/
def hbcRegs : List RegD :=
  [ reg "HBC_STATUS" 0x040 0 [fRH 0 0, fRH 15 8, fRH 16 16],
    reg "HBC_CTL" 0x044 0 [fRWL 0 0],
    regs "HBC_BANK_MASK" 0x048 6 4 [0x100, 0x200, 0x400, 0x800, 0x1000, 0x2000] [fRWS 31 0],
    reg "HBC_SCHED" 0x060 0x200 [fRWL 12 0 128 (some 4096)],
    reg "HBC_CE_THR" 0x064 0x10 [fRWL 15 0 1],
    reg "HBC_FREEZE_SUM" 0x068 0 [fRH 31 0],
    reg "HBC_DRAINED" 0x06C 0 [fRH 31 0],
    reg "HBC_PC_CMD" 0x070 0 [fWO 4 0, fWO 9 8 1 (some 1)],
    reg "HBC_PPR_CMD" 0x074 0 [fWO 4 0, fWO 13 8, fWO 28 16],
    reg "HBC_PPR_STATUS" 0x078 0 [fRH 31 31, fRH 1 0],
    regs "HBC_PC_MAP" 0x080 8 4
      [0x83828180, 0x87868584, 0x8B8A8988, 0x8F8E8D8C, 0x93929190, 0x97969594, 0x9B9A9998, 0x1F1E9D9C]
      [fRH 4 0, fRH 7 7, fRH 12 8, fRH 15 15, fRH 20 16, fRH 23 23, fRH 28 24, fRH 31 31],
    regs "HBC_CE_CNT" 0x100 32 4 [0] [fRH 31 0],
    regs "HBC_FRZ_INFO" 0x180 32 4 [0] [fW1C 31 31, fRH 26 24, fRH 6 0],
    regs "HBC_FRZ_ADDR" 0x200 32 4 [0] [fRH 28 16, fRH 13 8, fRH 4 0],
    regs "HBC_FRZ_SYND" 0x280 32 4 [0] [fRH 31 0],
    regs "HBC_FRZ_CMD" 0x400 128 4 [0] [fRH 31 28, fRH 21 16, fRH 12 0] ]

end Sys2Proof.Machine
end

