-- ==== Sys2Proof/Machine/RegsHost.lean ====
section
/-! DEFINITION. Register tables of the host and clock pages: HIF (R82, R83) and CLK (R47, R48). -/

namespace Sys2Proof.Machine

/-- R82, R83. -/
def hifRegs : List RegD :=
  [ reg "HIF_STATUS" 0x040 0 [fRH 18 16, fRH 10 8, fRH 0 0],
    reg "HIF_DMA_CTL" 0x044 0 [fRWL 0 0],
    reg "HIF_ERR_CAP" 0x048 0 [fW1C 31 31, fRH 30 30, fRH 29 29, fRH 27 24],
    reg "HIF_ERR_ADDR" 0x04C 0 [fRH 29 0],
    reg "HIF_ERR_DATA" 0x050 0 [fRH 31 0],
    reg "HIF_ERR_CNT" 0x054 0 [fRH 15 0],
    reg "HIF_HBM_APER" 0x058 0 [fRWL 13 0 0 (some 16128)],
    reg "HIF_IRQ_EOI" 0x05C 0 [fWO 7 0],
    regs "HIF_IRQ_SRC" 0x060 5 4 [0] [fRH 31 0],
    reg "HIF_IRQ_SRC[5]" 0x074 0 [fRH 15 0],
    regs "HIF_RX_UNDER" 0x100 32 4 [0] [fW1C 31 0],
    regs "HIF_TX_ERR" 0x180 32 4 [0] [fW1C 31 0] ]

/-- R47, R48. `vmin` and the monitor window have ranges that depend on another field: `clkRange`. -/
def clkRegs : List RegD :=
  [ reg "CLK_STATUS" 0x040 0 [fRH 18 18, fRH 17 17, fRH 16 16, fRH 5 0],
    reg "CLK_GOV_CTL" 0x044 0x64 [{ fRWL 17 16 with rsv := [3] }, fRWL 9 0 10 (some 1000)],
    reg "CLK_GOV_VLIM" 0x048 0x35202A8 [fRWL 25 16 680 (some 850), fRWL 9 0 680 (some 850)],
    reg "CLK_GOV_STEP" 0x04C 0x2000A [fRWL 23 16 1 (some 20), fRWL 7 0 1 (some 50)],
    reg "CLK_GOV_GUARD" 0x050 0x280498 [fRWL 23 16 10 (some 255), fRWL 11 0 1150 (some 2000)],
    reg "CLK_GOV_BAND_THR" 0x054 0xC08040 [fRWL 23 16, fRWL 15 8, fRWL 7 0],
    regs "CLK_GOV_BAND_TGT" 0x058 4 4 [0x498, 0x4E2, 0x546, 0x5DC] [fRWL 11 0 1120 (some 2000)],
    reg "CLK_GOV_LOAD" 0x068 0 [fRH 17 16, fRH 7 0],
    reg "CLK_AVS_VREQ" 0x06C 0x2EE [fRWL 9 0],
    reg "CLK_AVS_VNOW" 0x070 0 [fRH 25 16, fRH 9 0],
    reg "CLK_AVS_STATUS" 0x074 0 [fW1C 31 31, fRH 15 0],
    reg "CLK_AVS_CTL" 0x078 0x101 [fRWS 12 8 1 (some 24), fRWS 7 4, fRWL 0 0],
    reg "CLK_MON_CTL" 0x07C 0xA [fRWL 9 0 1 (some 1000)],
    reg "CLK_MON_MIN" 0x080 0xFFF [fRH 21 16, fRH 11 0],
    reg "CLK_MON_CLR" 0x084 0 [fWO 0 0],
    regs "CLK_MON_CADENCE" 0x100 37 4 [0] [fRH 11 0],
    regs "CLK_DOM_RUN" 0x200 6 4 [0] [fRH 31 0],
    reg "CLK_DOM_RUN[6]" 0x218 0 [fRH 19 0],
    regs "CLK_DOM_LOSS" 0x220 6 4 [0] [fW1C 31 0],
    reg "CLK_DOM_LOSS[6]" 0x238 0 [fW1C 19 0] ]

end Sys2Proof.Machine
end

