-- ==== Sys2Proof/Machine/RegsPath.lean ====
section
/-! DEFINITION. Register tables of the frame path: PRS (R128, R131), PIP (R159, R161), POL (R228, R229),
GLF (R256, R257), RSQ (R275, R276), TMG (R329, R330), TGS (R364, R365), MIR (R378, R379). -/

namespace Sys2Proof.Machine

/-- R128, R131. -/
def prsRegs : List RegD :=
  [ reg "PRS_TPID" 0x040 0x188A8 [fRWV 16 16, fRWV 15 0],
    reg "PRS_MAL_CAP0" 0x044 0 [fW1C 31 31, fRH 30 30, fRH 27 24, fRH 21 16, fRH 14 8, fRH 6 4, fRH 3 0],
    reg "PRS_MAL_CAP1" 0x048 0 [fRH 31 24, fRH 23 16, fRH 13 0],
    regs "PRS_CNT_INCOMPLETE, _MALFORMED, _LATE, _GRAPH, _PUNT" 0x04C 5 4 [0] [fRH 31 0],
    reg "PRS_CNT_CLR" 0x060 0 [fWO 4 0],
    regs "PRS_PORT_CFG_A" 0x100 68 8 [1] [fRWV 31 31, fRWV 23 16, fRWV 11 0 1 (some 4094)],
    regs "PRS_PORT_CFG_B" 0x104 68 8 [0] [fRWL 25 16, fRWL 7 4, fRWL 0 0] ]

/-- R159, R161; `inst` is the page's instance: the takeover registers exist in page 4 alone. -/
def pipRegs (inst : Nat) : List RegD :=
  [ reg "PIP_STATUS" 0x040 1 [fRH 0 0, fRH 1 1, fRH 2 2],
    reg "PIP_PCP_MAP" 0x044 0xFAC688 [fRWV 23 0],
    reg "PIP_UNM_CAP0" 0x048 0 [fW1C 31 31, fRH 14 8, fRH 6 4, fRH 3 0],
    reg "PIP_UNM_CAP1" 0x04C 0 [fRH 27 16, fRH 15 0],
    regs ("PIP_CNT_UNMATCHED, _RULE_DROP, _FENCE, _RECIRC, _RECIRC_LIMIT, _PUNT, _PUNT_REFUSED, " ++
      "_PROG_FAULT, _WARDEN, _EDIT_SKIP") 0x050 10 4 [0] [fRH 31 0],
    reg "PIP_CNT_CLR" 0x078 0 [fWO 9 0],
    regs "PIP_PUNT_MTR" 0x0C0 16 4 [0x10002710] [fRWL 31 24 1, fRWL 23 0],
    regs "PIP_EGR_PORT" 0x100 (if inst = 4 then 4 else 16) 4 [0] [fRWL 11 0],
    regs "PIP_IN_PORT" 0x200 68 4 [0] [fRWL 0 0] ] ++
  (if inst = 4 then
    [ reg "PIP_LEE_CTL" 0x080 0x100 [fRWL 0 0, fRWL 2 1, fRWL 8 8, fW1S 16 16],
      reg "PIP_LEE_STATUS" 0x084 0 [fRH 0 0, fRH 2 1, fRH 3 3, fRH 4 4, fRH 31 16],
      reg "PIP_LEE_WT_NORM" 0x088 0xC043000 [fRWL 5 0, fRWL 13 8, fRWL 21 16 1, fRWL 29 24],
      reg "PIP_LEE_WT_TAKE" 0x08C 0x4010437 [fRWL 5 0, fRWL 13 8, fRWL 21 16 1, fRWL 29 24] ]
   else [])

/-- R228, R229. -/
def polRegs : List RegD :=
  [ reg "POL_STATUS" 0x040 0 [fRH 8 0, fRH 16 16],
    reg "POL_FAULT_CAP0" 0x044 0 [fW1C 31 31, fRH 26 24, fRH 14 8, fRH 3 0],
    reg "POL_FAULT_CAP1" 0x048 0 [fRH 31 16, fRH 15 0],
    reg "POL_LATCH_CAP" 0x04C 0 [fW1C 31 31, fRH 25 24, fRH 11 0],
    regs "POL_CNT_SDU, _GATE, _RED, _YELLOW, _FENCE, _FAULT, _SEQ" 0x050 7 4 [0] [fRH 31 0],
    reg "POL_CNT_CLR" 0x06C 0 [fWO 6 0],
    regs "POL_GATE_STATE" 0x080 128 4 [0] [fRH 31 0] ]

/-- R256, R257. -/
def glfRegs : List RegD :=
  [ reg "GLF_STATUS" 0x040 0x44 [fRH 2 0, fRH 6 4, fRH 8 8, fRH 9 9],
    reg "GLF_CTL" 0x044 1 [fRWL 0 0, fRWL 31 31],
    reg "GLF_SLOT_MAP" 0x048 0xBA98 [fRH 15 0],
    reg "GLF_PLANE_STATE" 0x04C 0x10000 [fRH 2 0, fRH 6 4, fRH 10 8, fRH 14 12, fRH 18 16],
    reg "GLF_PLANE_CMD" 0x050 0 [fWO 2 0 0 (some 4), fWO 5 4 1 (some 3)],
    reg "GLF_PACER" 0x054 0x200 [fRWL 9 0 64 (some 512)],
    reg "GLF_CREDIT" 0x058 0x800C0 [fRWS 7 0 16 (some 200), fRWS 22 16 0 (some 64)],
    reg "GLF_FAULT_CTL" 0x05C 0x400800C8 [fRWL 9 0 50 (some 1000), fRWL 23 16 1, fRWL 30 28 2 (some 5)],
    reg "GLF_FAULT_CAP0" 0x060 0 [fW1C 31 31, fRH 26 24, fRH 18 16, fRH 10 8, fRH 2 0],
    reg "GLF_FAULT_CAP1" 0x064 0 [fRH 31 16, fRH 15 0],
    regs "GLF_STAGE_OCC" 0x068 5 4 [0] [fRH 13 0, fRH 29 16],
    regs "GLF_CNT_ISOLATE, _SWAP, _RESENT, _MC_NOGROUP, _MC_FENCE, _MC_EMPTY, _PACER_HOLD" 0x080 7 4 [0] [fRH 31 0],
    reg "GLF_CNT_CLR" 0x09C 0 [fWO 7 0],
    regs "GLF_PLANE_ERR" 0x0A0 5 4 [0] [fRH 31 0] ]

/-- R275, R276. -/
def rsqRegs : List RegD :=
  [ reg "RSQ_STATUS" 0x040 0 [fRH 12 0, fRH 20 16],
    reg "RSQ_CTL" 0x044 8 [fRWL 5 0 8 (some 32)],
    reg "RSQ_TMO_CAP0" 0x048 0 [fW1C 31 31, fRH 26 24, fRH 19 0],
    reg "RSQ_TMO_CAP1" 0x04C 0 [fRH 31 16, fRH 14 8, fRH 6 4, fRH 3 0],
    regs "RSQ_SRC_NEXT" 0x050 5 4 [0] [fRH 19 0],
    regs "RSQ_SRC_HELD" 0x064 5 4 [0] [fRH 12 0],
    reg "RSQ_RCV_CAP0" 0x078 0 [fW1C 31 31, fRH 30 30, fRH 25 16, fRH 15 0],
    reg "RSQ_RCV_CAP1" 0x07C 0 [fRH 15 0],
    regs "RSQ_CNT_DUP, _TIMEOUT, _LOSTCELL, _NOSLOT, _WINDOW, _ELIM, _ROGUE" 0x080 7 4 [0] [fRH 31 0],
    reg "RSQ_CNT_CLR" 0x09C 0 [fWO 6 0],
    reg "RSQ_IND_CTL" 0x0A0 0 [fRH 31 31, fRH 29 28, fRWL 24 24, fRWL 20 20, fRWL 17 16, fRWL 14 0],
    regs "RSQ_IND_DATA" 0x0C0 7 4 [0] [fRWL 31 0] ]

/-- R329, R330; page 4 has ports 65 to 67 alone and no flow control. -/
def tmgRegs (inst : Nat) : List RegD :=
  [ reg "TMG_STATUS" 0x040 0 [fRH 0 0, fRH 28 16],
    reg "TMG_SAMPLE_CTL" 0x044 0xA [fRWL 31 31, fRWL 15 0 1],
    reg "TMG_HIST_METRIC" 0x048 0
      ((List.range 8).map (fun h => fRWL (2 * h + 1) (2 * h) 0 (some 2))),
    reg "TMG_RES_CAP" 0x04C 0 [fW1C 31 31, fRH 27 24, fRH 22 20, fRH 12 0],
    regs "TMG_CNT_RESIDENCY, _LINKDOWN, _FC_REQ, _SAMPLE_LAG" 0x050 4 4 [0] [fRH 31 0],
    reg "TMG_CNT_CLR" 0x060 0 [fWO 3 0],
    (if inst = 4 then regs "TMG_PORT_CFG" 0x104 3 4 [0x114] [fRWL 5 0, fRWL 8 8]
     else regs "TMG_PORT_CFG" 0x100 16 4 [0x114] [fRWL 5 0, fRWL 8 8]) ] ++
  (List.range 8).map (fun h => regs "TMG_HIST_EDGE" (0x300 + 32 * h) 7 4 [0] [fRWL 23 0]) ++
  (if inst = 4 then [] else
    [ regs "TMG_FC_CFG" 0x200 16 4 [0xFFFF0000] [fRWL 1 0 0 (some 2), fRWL 31 16 1],
      regs "TMG_FC_STATE" 0x240 16 4 [0] [fRH 7 0],
      regs "TMG_FC_THR" 0x400 128 4 [0] [fRWL 31 16, fRWL 15 0] ])

/-- R364, R365; page 4 holds the common registers alone. -/
def tgsRegs (inst : Nat) : List RegD :=
  if inst = 4 then [] else
  [ reg "TGS_STATUS" 0x040 0 [fRH 15 0, fRH 31 16],
    reg "TGS_NOFIT_CAP" 0x044 0 [fW1C 31 31, fRH 27 24, fRH 22 20, fRH 13 0],
    reg "TGS_LATE_CAP" 0x048 0 [fW1C 31 31, fRH 27 24, fRH 17 16, fRH 15 0],
    regs "TGS_CNT_NOFIT, _LATE, _OVERRUN" 0x050 3 4 [0] [fRH 31 0],
    reg "TGS_CNT_CLR" 0x05C 0 [fWO 2 0],
    regs "TGS_LIST_CTL" 0x100 16 32 [0x10000] [fRWL 0 0, fRWS 2 1, fRWL 3 3, fW1S 8 8, fW1S 9 9, fRWL 26 16 1 (some 1024)],
    regs "TGS_BASE_SEC_HI" 0x104 16 32 [0] [fRWL 15 0],
    regs "TGS_BASE_SEC_LO" 0x108 16 32 [0] [fRWL 31 0],
    regs "TGS_BASE_NS" 0x10C 16 32 [0] [fRWL 29 0 0 (some 999999999)],
    regs "TGS_CYCLE" 0x110 16 32 [0xF4240] [fRWL 31 0 1000 (some 4000000000)],
    regs "TGS_ADMIN" 0x114 16 32 [0xFF] [fRWL 7 0],
    regs "TGS_PORT_STATUS" 0x118 16 32 [0x1000FF00]
      [fRH 0 0, fRH 1 1, fRH 2 2, fRH 3 3, fRH 5 4, fRH 15 8, fRH 26 16, fRH 28 28],
    regs "TGS_CYC_CNT" 0x11C 16 32 [0] [fRH 31 0],
    regs "TGS_PORT_OWN" 0x300 16 4 [0] [fRH 3 0] ]

/-- R378, R379. -/
def mirRegs : List RegD :=
  [ reg "MIR_STATUS" 0x040 0 [fW1C 0 0, fRH 1 1, fRH 2 2],
    reg "MIR_CTL" 0x044 0 [fRWL 0 0, fRWS 1 1],
    reg "MIR_RING_BASE" 0x048 0 [fRWS 13 0],
    reg "MIR_RING_SIZE" 0x04C 0 [fRWS 11 0 1 (some 2184)],
    reg "MIR_RING_WR" 0x050 0 [fRH 31 0],
    reg "MIR_RING_RD" 0x054 0 [fRWL 31 0],
    reg "MIR_FREEZE_CTL" 0x058 0 [fW1S 0 0, fRWL 4 4, fRWL 5 5, fRWL 6 6, fRWL 9 8],
    reg "MIR_FREEZE_POST" 0x05C 0 [fRWL 23 0],
    reg "MIR_TRIG_EVENT" 0x060 0 [fRWL 31 16, fRWL 15 0],
    reg "MIR_TRIG_SEQ" 0x064 0 [fRH 31 0],
    reg "MIR_TRIG_NS" 0x068 0 [fRH 31 0],
    reg "MIR_TRIG_SEC" 0x06C 0 [fRH 31 0],
    reg "MIR_DOM_ALLOW" 0x070 1 [fRH 15 0],
    regs "MIR_CNT_REC, _OVERFLOW, _HBM, _FENCED, _TRIG_IGN" 0x080 5 4 [0] [fRH 31 0],
    reg "MIR_CNT_CLR" 0x094 0 [fWO 4 0],
    regs "MIR_SESS_CTL" 0x100 8 32 [0] [fRWL 0 0, fRWL 2 1, fRWL 3 3, fRWL 4 4, fRWL 31 16],
    regs "MIR_SESS_PORTS[0]" 0x104 8 32 [0] [fRWL 31 0],
    regs "MIR_SESS_PORTS[1]" 0x108 8 32 [0] [fRWL 31 0],
    regs "MIR_SESS_PORTS[2]" 0x10C 8 32 [0] [fRWL 3 0],
    regs "MIR_SESS_RSN_LO" 0x110 8 32 [0] [fRWL 31 0],
    regs "MIR_SESS_RSN_HI" 0x114 8 32 [0] [fRWL 2 0],
    regs "MIR_SESS_SAMPLE" 0x118 8 32 [0] [fRWL 23 0],
    regs "MIR_SESS_OVF" 0x11C 8 32 [0] [fRH 31 0] ]

end Sys2Proof.Machine
end

