-- ==== Sys2Proof/Machine/RegsPort.lean ====
section
/-! DEFINITION. Register tables of the port pages: SDS (R107, R108) and MAC (R110, R111). -/

namespace Sys2Proof.Machine

/-- R107, R108. The FEC modes a rate allows are `sdsRange` (R86, R89). -/
def sdsRegs : List RegD :=
  [ reg "SDS_QUAD_CTL" 0x040 0 [fRWS 1 0 0 (some 2)],
    reg "SDS_QUAD_STATUS" 0x044 0 [fRH 0 0, fRH 5 4],
    regs "SDS_LANE_CTL" 0x048 4 4 [0]
      [fRWL 0 0, fRWS 6 4 0 (some 3), fRWS 9 8 0 (some 2), fRWS 12 12, fRWS 13 13, fRWS 14 14,
       fRWS 16 16, fRWS 17 17, fRWS 21 20 0 (some 2)],
    regs "SDS_LANE_STATUS" 0x058 4 4 [0] [fRH 0 0, fRH 1 1, fRH 2 2, fRH 6 4, fRH 8 8, fRH 13 12],
    regs "SDS_LANE_EQ" 0x068 4 4 [0x3000] [fRWL 5 0 0 (some 15), fRWL 13 8 24 (some 63), fRWL 21 16 0 (some 31)],
    regs "SDS_FEC_CORR" 0x078 4 4 [0] [fRH 31 0],
    regs "SDS_FEC_UNCORR" 0x088 4 4 [0] [fRH 31 0],
    reg "SDS_CNT_CLR" 0x098 0 [fWO 3 0],
    reg "SDS_TRAIN_CTL" 0x09C 0x1F4 [fRWL 11 0 100 (some 2000)] ]

/-- R110, R111. -/
def macRegs : List RegD :=
  [ reg "MAC_CTL" 0x040 0 [fRWL 0 0, fRWL 1 1],
    reg "MAC_MAX_LEN" 0x044 0x5F2 [fRWS 13 0 1518 (some 16000)],
    reg "MAC_STATUS" 0x048 0 [fRH 0 0, fRH 1 1, fRH 5 4, fRH 15 8],
    reg "MAC_TX_IPG" 0x04C 0xC [fRWL 5 0 12 (some 63)],
    reg "MAC_CT_CTL" 0x050 0 [fRWL 7 0],
    reg "MAC_PAUSE_CTL" 0x054 0 [fRWL 0 0, fRWL 1 1, fRWL 2 2, fRWL 3 3],
    reg "MAC_PAUSE_ADDR_LO" 0x058 0 [fRWL 31 0],
    reg "MAC_PAUSE_ADDR_HI" 0x05C 0 [fRWL 15 0],
    reg "MAC_PFC_MAP" 0x060 0xFAC688 [fRWL 23 0],
    reg "MAC_PREEMPT_CTL" 0x064 0xFF0A00 [fRWS 0 0, fRWS 1 1, fRWS 5 4, fRWS 14 8 1, fRWL 23 16],
    reg "MAC_PREEMPT_STATUS" 0x068 0 [fRH 2 0, fRH 4 4],
    reg "MAC_WAKE_CTL" 0x06C 0 [fRWL 0 0, fRWL 1 1],
    reg "MAC_WAKE_MASK_LO" 0x070 0 [fRWL 31 0],
    reg "MAC_WAKE_MASK_HI" 0x074 0 [fRWL 31 0],
    reg "MAC_WAKE_STATUS" 0x078 0 [fW1C 0 0, fW1C 1 1],
    regs "MAC_WAKE_PAT" 0x080 16 4 [0] [fRWL 31 0] ]

end Sys2Proof.Machine
end

