-- ==== Sys2Proof/Machine/RegsSys.lean ====
section
/-! DEFINITION. Register tables of the system pages: TOP (R206, R207, R456, R542, R543), PMU (R545, R546),
EVR (R517, R518), DBG (R561, R562), SEC (R453, R454) and MSC (R457, R458). -/

namespace Sys2Proof.Machine

/-- R542, R543, with the version registers (R206, R207) and the seal registers (R456). -/
def topRegs : List RegD :=
  [ reg "TOP_ID" 0x040 0x5A4B6400 [fRO 31 0],
    reg "TOP_STEP" 0x044 0xA1 [fRO 7 0],
    reg "TOP_STATE" 0x048 0 [fRH 2 0],
    reg "TOP_BOOT_STATUS" 0x04C 0 [fRH 1 0, fRH 2 2, fRH 3 3, fRH 4 4, fRH 11 8, fRH 21 16],
    reg "TOP_BOOT_TENANT" 0x050 0 [fRH 15 1],
    reg "TOP_BOOT_SEQ" 0x054 0 [fRH 31 0],
    reg "TOP_RST_CMD" 0x058 0 [fWO 31 16 0x5253 (some 0x5253), fWO 1 0 1 (some 1)],
    reg "TOP_RST_CAUSE" 0x05C 1 [fW1C 0 0, fW1C 1 1, fW1C 2 2, fW1C 3 3],
    reg "TOP_IRQ_PEND_LO" 0x060 0 [fRH 31 0],
    reg "TOP_IRQ_PEND_HI" 0x064 0 [fRH 31 0],
    regs "TOP_IRQ_ROUTE" 0x100 64 4 [0] [fRWL 31 31, fRWL 7 0],
    reg "TOP_VER_STATUS" 0x300 0x100
      [fRH 2 0, fRH 6 4, fRH 10 8, fRH 12 12, fRH 19 16, fRH 24 24, fRH 30 28],
    reg "TOP_VER_COMMIT" 0x304 0 [fWO 1 0 1 (some 3)],
    reg "TOP_VER_CTL" 0x308 0x3E8 [fRWL 15 0 10 (some 60000)],
    reg "TOP_VER_CNT" 0x30C 0 [fRH 31 16, fRH 15 0],
    regs "TOP_VER_DRAIN" 0x310 8 4 [0] [fRH 31 0],
    reg "TOP_SEAL_CMD" 0x340 0 [fWO 1 0 1 (some 1)],
    reg "TOP_SEAL_STATUS" 0x344 0 [fRH 31 31, fRH 1 0] ]

/-- R561, R562. The challenge is random (R552): its bytes stand in the state and are drawn at reset. -/
def dbgRegs : List RegD :=
  [ reg "DBG_STATUS" 0x040 1 [fRH 0 0, fRH 1 1, fRH 2 2, fRH 3 3, fRH 6 4],
    reg "DBG_SESS" 0x044 0 [fWO 1 0 1 (some 3)],
    reg "DBG_CTL" 0x048 0x3E8 [fRWL 15 0 10 (some 60000)],
    reg "DBG_RESP" 0x04C 0 [fWO 31 0],
    reg "DBG_RESP_CNT" 0x050 0 [fRH 9 0],
    reg "DBG_HALT" 0x054 0 [fRWL 4 0],
    reg "DBG_HALT_STATUS" 0x058 0 [fRH 4 0, fRH 8 8],
    reg "DBG_STEP" 0x05C 0 [fWO 2 0 0 (some 4), fWO 11 8 0 (some 12)],
    reg "DBG_HIT" 0x060 0 [fW1C 7 0, fW1C 11 8, fW1C 15 12],
    reg "DBG_HIT_CAP" 0x064 0 [fRH 31 31, fRH 26 24, fRH 22 16, fRH 3 0],
    reg "DBG_MA_CTL" 0x068 0 [fRH 31 31, fRH 30 28, fRH 27 24, fRWL 10 8, fRWL 4 4, fRWL 1 1, fRWL 0 0],
    reg "DBG_MA_ADDR_LO" 0x06C 0 [fRWL 31 0],
    reg "DBG_MA_ADDR_HI" 0x070 0 [fRWL 31 0],
    reg "DBG_MA_DATA" 0x074 0 [fRWL 31 0],
    reg "DBG_TOKEN_SEL" 0x078 0 [fRWL 2 0, fRWL 11 8],
    regs "DBG_STAGE_OCC" 0x080 5 4 [0] [fRH 11 0],
    regs "DBG_CHAL" 0x0A0 12 4 [0] [fRH 31 0],
    regs "DBG_TOKEN_DATA" 0x0D0 12 4 [0] [fRH 31 0],
    regs "DBG_BP_CTL" 0x100 8 16 [0]
      [fRWL 0 0, fRWL 5 1, fRWL 12 8, fRWL 19 16 0 (some 11), fRWL 30 24],
    regs "DBG_BP_VAL" 0x104 8 16 [0] [fRWL 31 0],
    regs "DBG_BP_MASK" 0x108 8 16 [0] [fRWL 31 0],
    regs "DBG_BP_DOM" 0x10C 8 16 [0] [fRWL 15 0, fRWL 23 16],
    regs "DBG_WP_CTL" 0x180 4 16 [0] [fRWL 0 0, fRWL 1 1, fRWL 7 4, fRWL 12 8],
    regs "DBG_WP_LO" 0x184 4 16 [0] [fRWL 23 0],
    regs "DBG_WP_HI" 0x188 4 16 [0] [fRWL 23 0],
    regs "DBG_EBP_CODE" 0x1C0 4 8 [0] [fRWL 31 16, fRWL 15 0],
    regs "DBG_EBP_ACT" 0x1C4 4 8 [0] [fRWL 0 0, fRWL 12 8] ]

/-- R545, R546. -/
def pmuRegs : List RegD :=
  [ reg "PMU_STATUS" 0x040 0 [fRH 0 0, fRH 4 4, fRH 6 5, fRH 31 16],
    reg "PMU_LULL_CMD" 0x044 0 [fWO 1 0],
    reg "PMU_LULL_CTL" 0x048 0x1000000A
      [fRWL 9 0 1 (some 1000), fRWL 25 16 0 (some 1000), fRWL 28 28, fRWL 29 29, fRWL 30 30],
    reg "PMU_LULL_TIMER" 0x04C 0xE10 [fRWL 23 0 1 (some 16777215)],
    reg "PMU_WAKE_CAUSE" 0x050 0 [fW1C 31 31, fRH 2 0, fRH 14 8] ]

/-- R517, R518. -/
def evrRegs : List RegD :=
  [ reg "EVR_STATUS" 0x040 0 [fRH 6 0, fRH 8 8, fRH 9 9, fRH 10 10],
    reg "EVR_CTL" 0x044 0x131
      [fRWL 0 0, fRWS 1 1, fRWS 6 4 0 (some 4), fRWS 12 8 0 (some 24), fRWL 17 16],
    reg "EVR_WR_SEQ" 0x048 0 [fRH 23 0],
    reg "EVR_SPI_SEQ" 0x04C 0 [fRH 23 0],
    reg "EVR_OPTIME_H" 0x050 0 [fRH 23 0],
    reg "EVR_OPTIME_S" 0x054 0 [fRH 11 0],
    reg "EVR_PWR_CYC" 0x058 0 [fRH 23 0],
    reg "EVR_MIR_SEL" 0x05C 0 [fRWL 23 0],
    reg "EVR_MIR_STATUS" 0x060 0 [fRH 31 31, fRH 23 0],
    regs "EVR_MIR_DATA" 0x064 8 4 [0] [fRH 31 0],
    regs "EVR_CNT_STAGED, _LOST, _FATAL_LOST, _FILTERED, _WERR, _SQUALL" 0x090 6 4 [0] [fRH 31 0],
    reg "EVR_CNT_CLR" 0x0A8 0 [fWO 5 0],
    reg "EVR_SW_EVT" 0x0AC 0 [fWO 15 0] ]

/-- R453, R454. The alloc and protected bits of domain 0 are RO. -/
def secRegs : List RegD :=
  [ reg "SEC_STATUS" 0x040 0 [fRH 1 0, fRH 5 4, fRH 8 8, fRH 9 9, fRH 31 16],
    reg "SEC_DOORBELL" 0x044 0 [fWO 2 0 1 (some 2), fWO 11 8, fWO 13 12],
    reg "SEC_DB_STATUS" 0x048 0 [fRH 31 31, fRH 3 0],
    reg "SEC_ALLOC_ADDR_LO" 0x04C 0 [fRWS 31 4],
    reg "SEC_ALLOC_ADDR_HI" 0x050 0 [fRWS 31 0],
    reg "SEC_ALLOC_CNT" 0x054 0 [fRWS 12 0 1 (some 4096)],
    reg "SEC_MAC_ADDR_LO" 0x058 0 [fRWL 31 0],
    reg "SEC_MAC_ADDR_HI" 0x05C 0 [fRWL 15 0],
    reg "SEC_SHARED_GEN" 0x060 0 [fRH 31 0],
    reg "SEC_CMD_CAP0" 0x064 0 [fW1C 31 31, fRH 27 24, fRH 23 16, fRH 15 0],
    reg "SEC_CMD_CAP1" 0x068 0 [fRH 31 0],
    regs "SEC_CNT_ACCEPT, _REFUSE, _BADSIG, _FENCE" 0x070 4 4 [0] [fRH 31 0],
    reg "SEC_CNT_CLR" 0x080 0 [fWO 3 0],
    reg "SEC_DOM_CFG[0]" 0x0C0 1 [fRO 0 0, fRO 1 1, fRH 11 8],
    regs "SEC_DOM_CFG[1..15]" 0x0C4 15 4 [0] [fRWS 0 0, fRWS 1 1, fRH 11 8],
    regs "SEC_DOM_REFUSED" 0x100 16 4 [0] [fRH 31 0],
    regs "SEC_HASH_STAGE" 0x140 12 4 [0] [fRWL 31 0],
    regs "SEC_ALLOC_DIGEST" 0x180 12 4 [0] [fRH 31 0] ]

/-- R457, R458. -/
def mscRegs : List RegD :=
  [ reg "MSC_STATUS" 0x040 0 [fRH 0 0],
    reg "MSC_PN_THR" 0x044 0x3E1F [fRWL 4 0 16 (some 31), fRWL 13 8 32 (some 63)],
    reg "MSC_IND_CTL" 0x048 0 [fRH 31 31, fRH 29 28, fRWL 24 24, fRWL 20 20, fRWL 17 16, fRWL 8 0],
    reg "MSC_VAL_CAP0" 0x04C 0 [fW1C 31 31, fRH 26 24, fRH 17 16, fRH 8 0],
    reg "MSC_VAL_CAP1" 0x050 0 [fRH 31 0],
    regs "MSC_PORT_CFG" 0x060 4 4 [0] [fRWL 0 0, fRWL 1 1, fRWL 31 16],
    regs "MSC_CNT_UNTAGGED" 0x070 4 4 [0] [fRH 31 0],
    regs "MSC_CNT_NOSCI" 0x080 4 4 [0] [fRH 31 0],
    reg "MSC_CNT_CLR" 0x090 0 [fWO 7 0],
    regs "MSC_IND_DATA" 0x0C0 16 4 [0] [fRWL 31 0],
    regs "MSC_TX_SEL" 0x100 64 4 [0] [fRWL 5 0, fRWL 8 8] ]

end Sys2Proof.Machine
end

