-- ==== Sys2Proof/Machine/RegMap.lean ====
section
/-! DEFINITION. The register map as a whole: every implemented BAR0 offset, its descriptor and its reset value. -/

namespace Sys2Proof.Machine

/-- The block registers of a page, from offset 0x040 upward. -/
def blockRegs (b : Blk) (inst : Nat) : List RegD :=
  match b with
  | .top => topRegs | .hif => hifRegs | .clk => clkRegs | .pmu => pmuRegs | .tsu => tsuRegs
  | .evr => evrRegs | .dbg => dbgRegs | .isl => islRegs | .spr => sprRegs | .sta => staRegs
  | .pmc => pmcRegs | .sec => secRegs | .lrn => lrnRegs | .tbl => tblRegs | .bpm => bpmRegs
  | .glf => glfRegs | .sds => sdsRegs | .mac => macRegs | .prs => prsRegs | .pip => pipRegs inst
  | .pol => polRegs | .rsq => rsqRegs | .tmg => tmgRegs inst | .tgs => tgsRegs inst
  | .mir => mirRegs | .hbc => hbcRegs | .msc => mscRegs

/-- The descriptor of a word-aligned offset below 0x800 in a page; none where the spec calls it unimplemented. -/
def regAt (b : Blk) (inst off : Nat) : Option RegD :=
  if off < 0x40 then findReg (commonRegs (irqCauses b inst)) off else findReg (blockRegs b inst) off

/-- The reset value of a BAR0 register address (aliases resolved); 0 where nothing is implemented. -/
def resetWord (a : Nat) : Word :=
  match pageOf (a / 0x1000) with
  | none => 0
  | some (b, inst) =>
    let off := a % 0x1000
    if off = 0 then word (b.id * 0x4000000 + inst * 0x10000 + 0x100)
    else
      match regAt b inst off with
      | none => 0
      | some d => word (d.resetAt off)

end Sys2Proof.Machine
end

