-- ==== Sys2Proof/Machine/StateTypes.lean ====
section
/-! DEFINITION. The plain-data types the State is made of: what each block keeps beside its registers. -/

namespace Sys2Proof.Machine

/-- An event a block has raised and the recorder has not yet accepted (R508): source page, code (R506), parameters. -/
structure Ev where
  page : Nat
  code : Nat
  p0 : Nat := 0
  p1 : Nat := 0
  p2 : Nat := 0
  p3 : Nat := 0
  deriving DecidableEq, Repr

/-- What leaves the device at a pin or link, oldest first in the outbox. -/
inductive Out where
  /-- An MSI-X message of a vector: address and data of its table entry (R70, R71). -/
  | msix (vector addr data : Nat)
  /-- A PCIe read completion with data, or Completer Abort (R61). -/
  | completion (data : List Byte)
  | completerAbort
  /-- A frame leaving a front port's transmit MAC, FCS included; `stomped`: it ends with the inverted FCS (R98). -/
  | frame (port : Nat) (bytes : List Byte) (stomped : Bool)
  /-- A MAC control frame (R104). -/
  | macControl (port : Nat) (bytes : List Byte)
  /-- A verify (false) or respond (true) mPacket (R105). -/
  | mPacket (port : Nat) (respond : Bool)
  /-- An AVSBus Voltage write-and-commit in mV (R42). -/
  | avsWrite (mv : Nat)
  /-- A PPS_IO pin in output mode is driven high or low (R342). -/
  | pin (n : Nat) (high : Bool)
  /-- Energy test pulses of the island (R481). -/
  | islPulse (count : Nat)
  /-- A status of a debug-port packet: 1 ok, 2 busy, 4 error (R549). -/
  | dbgStatus (status : Nat)
  /-- The value an ok read returns on the debug port, and the CRC behind it (R549). -/
  | dbgData (w : Word) (crc : Nat)
  /-- The 32 bits the JTAG port shifts out of IDCODE (R560). -/
  | jtagId (w : Word)
  deriving DecidableEq, Repr

/-- A posted write that has not completed (R65): page offset, bits written and their values; and the BAR0 offset and data as
the host sent them, which R67 captures. -/
structure FarPost where
  off  : Nat := 0
  mask : Word := 0
  data : Word := 0
  addr : Nat := 0
  sent : Word := 0
  deriving DecidableEq, Repr

/-- The PCIe capabilities of the function (R50): PCI Express, Power Management (D0, D3hot), MSI-X, AER. -/
inductive PcieCap where
  | express | power | msix | aer
  deriving DecidableEq, Repr

/-- The PCIe function's configuration space as R50 gives it: identity, capabilities, sizes; and whether AER has logged a
Completer Abort (R61). -/
structure PcieFn where
  vendor    : Nat := 0x1F2D
  device    : Nat := 0x6400
  revision  : Nat := 0xA1
  classCode : Nat := 0x020000
  ssvid     : Nat := 0
  ssid      : Nat := 0
  caps      : List PcieCap := [.express, .power, .msix, .aer]
  vectors   : Nat := 256
  maxPayload : Nat := 512
  maxReadMax : Nat := 4096
  abortLogged : Bool := false
  deriving DecidableEq, Repr

/-- One MSI-X table entry (R51). -/
structure MsixEnt where
  addr   : Nat := 0
  data   : Nat := 0
  masked : Bool := true
  deriving DecidableEq, Repr

/-- What a host ring keeps beside its control entry: unreported completions and whether their delay has run (R77);
whether a fetch has stopped between frames (R81). -/
structure RingX where
  unrep   : Nat := 0
  elapsed : Bool := false
  deriving DecidableEq, Repr

/-- The PCIe side of HIF: MSI-X table, vectors whose level is 1, posted writes by page, rings, the link, D3hot and PERST_N,
configuration retries (R526), configuration space (R50). -/
structure Hif where
  msix    : SMap MsixEnt := []
  levels  : List Nat := []
  far     : SMap FarPost := []
  rings   : SMap RingX := []
  linkUp  : Bool := false
  d3hot   : Bool := false
  perst   : Bool := false
  cfgRetry : Bool := true
  fn      : PcieFn := {}
  deriving DecidableEq, Repr

/-- The cadence governor (R42 to R46): last request, AVSBus write or read in progress with its retries, the request that
waits for it, whether it starts from vmax after Lull, the cadence required at the last interval, whether a reading fell below
guard in this interval and whether any window has ended; and the clocked domains whose clock was lost (R39). -/
structure Clk where
  vset    : Option Nat := none
  writing : Option Nat := none
  reading : Bool := false
  tries   : Nat := 0
  next    : Option Nat := none
  fromMax : Bool := false
  creq    : Nat := 0
  guardSeen : Bool := false
  measured  : Bool := false
  lost    : List Nat := []
  deriving DecidableEq, Repr

/-- A lane of a quad beside its status word: FEC lock, and a partner refused for half duplex (R90, R91). -/
structure LaneX where
  fecLock  : Bool := false
  anRefuse : Bool := false
  trainLogged : Bool := false
  hadSignal : Bool := false
  deriving DecidableEq, Repr

/-- A frame being received at a MAC: bytes so far, its id in the core once it has passed there (R92), whether it counts as
begun (R409), whether it has been dropped already, the reason recorded when a beat found the FIFO full (0: none has), whether
its pipeline was halted while it arrived (R95), its stamp, and the rest of it where it comes from the port's own transmitter
(near-end loop, R108). -/
structure RxFrame where
  bytes    : List Byte := []
  fid      : Option Nat := none
  begun    : Bool := false
  stopped  : Bool := false
  full     : Nat := 0
  halt     : Bool := false
  after    : Option Nat := none
  msc      : Word := 0
  stamp    : Nat × Nat × Nat × Nat × Nat := (0, 0, 0, 0, 0)
  loop     : Option (List Byte) := none
  deriving DecidableEq, Repr

/-- A front port's MAC: enables in force (R111), the frame in reception, the pause timer's quanta and those of each priority
with the gate group it pauses (quanta × 8 + group; R102, R103), requests waiting to be sent (R104), verify attempts (R105),
wake detectors armed at entry to Lull (bit 0 energy, bit 1 pattern, bits [5:2] the port's lanes in its quad; R106); frames
sent that near-end loop brings back, and the frame that far-end loop is sending back (R108). -/
structure MacX where
  rxEn   : Bool := false
  txEn   : Bool := false
  rx     : Option RxFrame := none
  pause  : Nat := 0
  pfc    : SMap Nat := []
  ctlOut : List (List Byte) := []
  verifyTries : Nat := 0
  armed  : Nat := 0
  loop   : List (List Byte) := []
  far    : Option (List Byte) := none
  deriving DecidableEq, Repr

/-- A parse result (R123); records are (offset, hdr_id) in the order written. -/
structure Parse where
  recs       : List (Nat × Nat) := []
  incomplete : Bool := false
  malformed  : Bool := false
  latePend   : Bool := false
  l2Only     : Bool := false
  padded     : Bool := false
  graphFault : Bool := false
  punt       : Bool := false
  tags       : Nat := 0
  reason     : Nat := 0
  dataEnd    : Option Nat := none
  vid        : Nat := 0
  pcp        : Nat := 0
  dei        : Nat := 0
  malNode    : Nat := 0
  malKind    : Nat := 0
  deriving DecidableEq, Repr

/-- A late claim (R121, R125): the offset claimed, kind 5 or 7, node and header start. -/
structure Late where
  claim : Nat
  kind  : Nat
  node  : Nat
  start : Nat
  deriving DecidableEq, Repr

/-- A learn request (R174): owner, VID, address, port. -/
structure LearnReq where
  owner : Nat
  vid   : Nat
  mac   : Nat
  port  : Nat
  deriving DecidableEq, Repr

/-- Where a frame's token is on the ingress side. -/
inductive Place where
  | receiving | staged | stage (n : Nat) | police | queued (q : Nat) | sending (q : Nat) | sent | gone
  deriving DecidableEq, Repr

/-- What a pass's actions have asked for beside the metadata fields (R141, R149). -/
structure Acts where
  noLearn  : Bool := false
  learn    : Option LearnReq := none
  frozen   : Bool := false
  l2Mcast  : Bool := false
  badWord  : Bool := false
  ttl      : Option (Nat × Nat) := none
  rnatReq  : Bool := false
  rnatEnt  : List Byte := []
  recirc   : Option Nat := none
  puntRing : Nat := 0
  puntMeter : Nat := 0
  deriving DecidableEq, Repr

/-- The entries a frame uses in POL (R210): filter, gate, meter, sequence instance. -/
structure PolUse where
  filt  : Option Nat := none
  gate  : Option Nat := none
  meter : Option Nat := none
  seq   : Option Nat := none
  deriving DecidableEq, Repr

/-- What a frame meets at the instant its token reaches POL (R216, R227): the entries it uses, whether one belongs to another
domain, their bytes as they stand, and its gate's state with the gate group to give it. -/
structure PolView where
  use    : PolUse := {}
  fenced : Bool := false
  filt   : List Byte := []
  gate   : List Byte := []
  opened : Bool := false
  ipv    : Option Nat := none
  seq    : List Byte := []
  deriving DecidableEq, Repr

/-- A frame inside the device. `bytes` runs from the destination address to the FCS as far as received. -/
structure Frame where
  id       : Nat := 0
  src      : Nat := 0
  inPort   : Nat := 0
  grp      : Nat := 0
  pipe     : Nat := 0
  bytes    : List Byte := []
  wireLen  : Nat := 0
  complete : Bool := false
  verdict  : Nat := 0
  pass     : Nat := 1
  domain   : Nat := 0
  version  : Nat := 0
  prot     : Bool := false
  admitted : Bool := false
  stampTb  : Nat := 0
  stampEp  : Nat := 0
  stampNs  : Nat := 0
  stampSec : Nat := 0
  stampFrac : Nat := 0
  scOwner  : Option Nat := none
  clearReq : Nat := 0
  direct   : Option Nat := none
  tsReq    : Option (Nat × Nat) := none
  startNode : Option Nat := none
  entryPcp : Option Nat := none
  after    : Option Nat := none
  parse    : Parse := {}
  late     : List Late := []
  md       : SMap Nat := []
  acts     : Acts := {}
  seqNo    : Option Nat := none
  rtag     : Bool := false
  place    : Place := .receiving
  held     : Bool := false
  sentN    : Nat := 0
  stg      : Nat := 0
  sprayBase : Nat := 0
  groups   : Nat := 0
  mcHead   : Nat := 0
  mcCount  : Nat := 0
  pausePcp : Nat := 0
  ord      : Nat := 0
  pol      : Option PolView := none
  malOff   : Nat := 0
  malClaim : Nat := 0
  lenKnown : Bool := false
  left     : Bool := false
  secLen   : Nat := 0
  deriving DecidableEq, Repr

/-- A cell sent and not yet released from staging (R24, R239): its frame and index, send queue, slot and plane last used,
the groups that have not acknowledged it with their sequence numbers, whether it waits to be resent under R247 (and then
whether for the isolation that GLF_FAULT_CAP1 captures), and how often R248 has acted on it. -/
structure SentCell where
  k      : Nat
  fid    : Nat
  idx    : Nat
  first  : Bool
  last   : Bool
  q      : Nat
  slot   : Nat
  plane  : Nat
  wait   : List (Nat × Nat)
  again  : Option Bool := none
  resends : Nat := 0
  deriving DecidableEq, Repr

/-- A cell inside a plane, on its way to egress group `e`, or a front, which takes no sequence number (R242). -/
structure Flight where
  k     : Nat
  e     : Nat
  plane : Nat
  seq   : Nat
  fid   : Nat
  idx   : Nat
  first : Bool
  last  : Bool
  resend : Bool := false
  front : Bool := false
  deriving DecidableEq, Repr

/-- A cell held in a reorder slot of egress group `e` (R260). -/
structure HeldCell where
  e     : Nat
  k     : Nat
  seq   : Nat
  fid   : Nat
  idx   : Nat
  first : Bool
  last  : Bool
  deriving DecidableEq, Repr

/-- A number declared lost that next has not passed yet, with the frame whose last cell it was (R263). -/
structure LostNum where
  e    : Nat
  k    : Nat
  seq  : Nat
  fid  : Option Nat
  deriving DecidableEq, Repr

/-- A credit a cell holds until its reorder slot is freed (R237): account (k, e, slot) and class, under the cell's number. -/
structure Credit where
  k    : Nat
  e    : Nat
  slot : Nat
  seq  : Nat
  prot : Bool
  deriving DecidableEq, Repr

/-- The Gale fabric beside its registers (R233 to R250): send queues (key k × 6 + queue), their spray pointers (a slot) and
those to be set to 0 at the next frame boundary, the round robin of each staging, next sequence numbers (k × 5 + e), cells
sent, in flight and acknowledged, credits held and free (account × 2 + class), times of errors by plane, planes under
self-test with the slot each is meant for, slots that wait for a swap, cells that have waited for the pacer, fronts between
staging and resequencer (k × 5 + e, number of the first cell sent after the front). -/
structure Glf where
  queues  : SMap (List Nat) := []
  spray   : SMap Nat := []
  resetPtr : List Nat := []
  rr      : SMap Nat := []
  nextSeq : SMap Nat := []
  unacked : List SentCell := []
  flights : List Flight := []
  acks    : List (Nat × Nat × Nat) := []
  credits : List Credit := []
  free    : SMap Nat := []
  errs    : List (Nat × Nat) := []
  tests   : List (Nat × Option Nat) := []
  waiting : List Nat := []
  held    : List (Nat × Nat) := []
  marks   : List (Nat × Nat) := []
  deriving DecidableEq, Repr

/-- The resequencers beside their registers and recovery structures (R260 to R274): cells held, round robin, selectors,
configs, states and counters (keyed by group, target and byte), indirect accesses in progress with their principal, frames
whose cells are discarded (group, frame), numbers declared lost that next has not passed. -/
structure Rsq where
  held    : List HeldCell := []
  rr      : SMap Nat := []
  ind     : SMap Byte := []
  indBusy : SMap Nat := []
  dead    : List (Nat × Nat) := []
  lost    : List LostNum := []
  deriving DecidableEq, Repr

/-- A copy to be made in an egress group (R254), before its edit. -/
structure CopySpec where
  port  : Nat
  vid   : Nat := 0
  edit  : Nat := 0
  queue : Option Nat := none
  gates : Option (Nat × Nat) := none
  owner : Option Nat := none
  deriving DecidableEq, Repr

/-- A frame (or multicast share) arriving in an egress group (R262): cells passed out, whether the last was among them,
R-TAG to strip, copies not yet edited, copies edited and not yet ended, whether BPM has admitted it, and then the charge of
R282 (n, reserved and whole cells, copies at admission, pool, dual), cells allocated, and the tail so far. -/
structure EFrame where
  e      : Nat
  fid    : Nat
  k      : Nat
  order  : Nat
  got    : Nat := 0
  last   : Bool := false
  strip  : Bool := false
  todo   : List CopySpec := []
  ready  : List Nat := []
  admitted : Bool := false
  n      : Nat := 0
  resv   : Nat := 0
  need   : Nat := 0
  pool   : Nat := 7
  dual   : Bool := false
  alloc  : Nat := 0
  tail   : Option Nat := none
  lastH  : Option Nat := none
  deriving DecidableEq, Repr

/-- A copy in an egress group: its edited first-cell bytes and net change in length, its queue or host ring, its chain, the
cells charged to its queue, the clock of its enqueue, whether its frame has arrived whole, cells whose reads for it have been
asked for, and cells read for it from their twins. -/
structure Copy where
  id     : Nat := 0
  fid    : Nat := 0
  e      : Nat := 0
  port   : Nat := 0
  queue  : Option Nat := none
  ring   : Nat := 0
  head   : List Byte := []
  delta  : Int := 0
  domain : Nat := 0
  version : Nat := 0
  cells  : Nat := 0
  headH  : Option Nat := none
  headGen : Nat := 0
  tailH  : Option Nat := none
  tailGen : Nat := 0
  enq    : Nat := 0
  queued : Bool := false
  done   : Bool := false
  bad    : Nat := 0
  hdrs   : List (Nat × Nat) := []
  readN  : Nat := 0
  twins  : List Nat := []
  waitFit : Bool := false
  deriving DecidableEq, Repr

/-- The descriptor of an allocated cell (R280) with the charge it took (R282) and its check value (R382). -/
structure CellD where
  alloc : Bool := false
  gen   : Nat := 0
  next  : Option Nat := none
  twin  : Option Nat := none
  head  : Bool := false
  tail1 : Bool := false
  last  : Bool := false
  share : Nat := 0
  len   : Nat := 0
  domain : Nat := 0
  check : Nat := 0
  resv  : Bool := false
  req   : Nat := 0
  dual  : Bool := false
  since : Nat := 0
  twinNext : Option Nat := none
  grp : Nat := 0
  fcKey : Option Nat := none
  deriving DecidableEq, Repr

/-- One pool's free store (R288): the first index never handed out, handles returned (oldest first), handles in the
on-chip cache, handles whose ring entries have been found unreadable (R293). -/
structure Pool where
  fresh : Nat := 0
  back  : List Nat := []
  cache : Nat := 0
  bad   : List Nat := []
  deriving DecidableEq, Repr

/-- For what a request is made, where losing it matters (R299, R300): a read of a copy's cell, a write of the capture record
at a ring index (with the record it replaces), a write of the ledger archive. -/
inductive HbmUser where
  | other
  | copy (cid cell : Nat)
  | capture (index : Nat) (old : List Byte)
  | archive (seq : Nat)
  deriving DecidableEq, Repr

/-- A request queued at a pseudo-channel (R297): its granule's address, for a write the bytes it replaced, the clock of its
arrival, and for what it is made. -/
structure HbmReq where
  addr  : Nat
  write : Bool
  old   : List Byte
  at_   : Nat
  by_   : HbmUser := .other
  deriving DecidableEq, Repr

/-- The buffer manager and HBM controllers beside their registers: free stores, descriptors, requester use (requester × 5 +
group), flow-control counts, the clock of the sweep's start, handles retired, slots under a kind 7 repair; request queues,
open rows (slot × 64 + bank, row + 1) and last commands by slot, the clocks of corrected bursts by slot, the row under
repair by stack, the spare (plus 1) under test for a slot; spill regions whose descriptors have been written fresh (byte
address, 2 MB units), newest first. -/
structure Bpm where
  pools   : SMap Pool := []
  cells   : SMap CellD := []
  inResv  : SMap Nat := []
  inShr   : SMap Nat := []
  fcCells : SMap Nat := []
  sweepAt : Nat := 0
  retired : List Nat := []
  retiring : List Nat := []
  hbmQ    : SMap (List HbmReq) := []
  openRow : SMap Nat := []
  cmds    : SMap (List Nat) := []
  ceAt    : SMap (List Nat) := []
  pprArg  : SMap Nat := []
  testSpare : SMap Nat := []
  descs   : List (Nat × Nat) := []
  deriving DecidableEq, Repr

/-- A transmission at a port: the copy, whether it is to be stomped, its class, whether it started cut-through, its
fragments begun, bytes sent before the present fragment and the clock at which that began, its transmit stamp, and the
transmit SC, SA and PN that protect it, and whether it has counted as an overrun (R359). -/
structure TxState where
  copy  : Nat
  stomp : Bool := false
  express : Bool := true
  cut   : Bool := false
  frags : Nat := 1
  sent  : Nat := 0
  since : Nat := 0
  tb    : Nat := 0
  ep    : Nat := 0
  ns    : Nat := 0
  sec   : Nat := 0
  frac  : Nat := 0
  prot  : Option (Nat × Nat × Nat) := none
  counted : Bool := false
  deriving DecidableEq, Repr

/-- A provisional selection (R320): the copy and its queue, the phases it was picked in, and what its start charges: the
round robin of its group, or the DRR pointer and deficits. -/
structure TxSel where
  copy  : Nat := 0
  queue : Nat := 0
  excess : Bool := false
  rr    : Option Nat := none
  ptr   : Nat := 0
  defs  : List (Nat × Nat) := []
  deriving DecidableEq, Repr

/-- Minimum, maximum, sum and count of sampled values, and the histogram (R327): depth in cells, depth in copies, age. -/
structure QSample where
  n     : Nat := 0
  cells : Nat × Nat × Nat := (0, 0, 0)
  copies : Nat × Nat × Nat := (0, 0, 0)
  age   : Nat × Nat × Nat := (0, 0, 0)
  bins  : List Nat := List.replicate 8 0
  deriving DecidableEq, Repr

/-- The traffic managers beside their registers and the queue window (R309 to R328): copies by queue, round robin and DRR
pointers by group, selections (port × 2 + class), transmissions and suspended frames by port, shaper configurations in
force by queue and group, samples of the period. -/
structure Tmg where
  queues : SMap (List Nat) := []
  rr     : SMap Nat := []
  ptr    : SMap Nat := []
  sel    : SMap TxSel := []
  tx     : SMap TxState := []
  yielded : SMap TxState := []
  qShp   : SMap (List Byte) := []
  gShp   : SMap (List Byte) := []
  samples : SMap QSample := []
  deriving DecidableEq, Repr

/-- Learning and table access beside their registers (R163 to R183). -/
structure Tbl where
  fifo   : List LearnReq := []
  park   : List LearnReq := []
  hits   : SMap Nat := []
  banks  : SMap Byte := []
  lockAt : SMap Nat := []
  freed  : List (Nat × Nat × Nat × Nat) := []
  waiting : Bool := false
  repairs : List (Nat × Nat × Nat × List Byte) := []
  scrubWord : Nat := 0
  shadowBase : Nat := 0
  shadowBad : Bool := false
  saidLost : Bool := false
  origin : Nat := 0
  dirty  : Bool := false
  findings : SMap (List (Nat × Nat)) := []
  unread : SMap Nat := []
  deriving DecidableEq, Repr

/-- Rule versions beside TOP_VER_* (R191 to R204): the clock at which the open set was opened, its limit in force,
whether it has been reported, and the value each live version has for each RW-V register written since. -/
structure Ver where
  openAt : Nat := 0
  limit  : Nat := 1000
  late   : Bool := false
  inForce : SMap Word := []
  staged : List Nat := []
  pendingCommit : Option Nat := none
  deriving DecidableEq, Repr

/-- Policing beside the meter window (R209 to R227): configurations in force of meters and schedules, the entry each
schedule is in (none: before its base), punt-meter buckets in millionths of a frame and their configuration in force, meters first written since the last refill,
meters written since reset. -/
structure Pol where
  meters  : SMap (List Byte) := []
  scheds  : SMap (List Byte) := []
  entry   : SMap (Option Nat) := []
  punt    : SMap (Option (Nat × Word)) := []
  puntNew : List Nat := []
  puntSet : List Nat := []
  deriving DecidableEq, Repr

/-- One time base (R332 to R335): 48-bit seconds, ns, 32-bit fraction, epoch. -/
structure TimeBase where
  sec   : Nat := 0
  ns    : Nat := 0
  frac  : Nat := 0
  epoch : Nat := 0
  deriving DecidableEq, Repr

/-- An entry of a port's transmit timestamp FIFO (R339). -/
structure TxStamp where
  ring  : Nat
  desc  : Nat
  tb    : Nat
  epoch : Nat
  ns    : Nat
  sec   : Nat
  ovf   : Bool
  deriving DecidableEq, Repr

/-- An entry of a pin's event FIFO (R343). -/
structure PinStamp where
  ns      : Nat
  sec     : Nat
  epoch   : Nat
  falling : Bool
  ovf     : Bool
  deriving DecidableEq, Repr

/-- The time-sync unit beside its registers: the four bases, the FIFOs behind the head registers with whether an entry
was lost since the last one, and each output pin's level with the rise it counts from. -/
structure Tsu where
  tb     : SMap TimeBase := []
  txts   : SMap (List TxStamp) := []
  txLost : SMap Bool := []
  pinEv  : SMap (List PinStamp) := []
  pinLost : SMap Bool := []
  pinHigh : SMap Bool := []
  pinRose : SMap TimeBase := []
  landed : SMap Nat := []
  deriving DecidableEq, Repr

/-- A gate control list taken in by a commit (R350, R352): base and start in ns of its time base, cycle, the bank it holds,
its entries (interval, states, op), and the cycle it was last seen in. No list is one whose cycle is 0. -/
structure GList where
  base  : Nat := 0
  start : Nat := 0
  cycle : Nat := 0
  tb    : Nat := 0
  bank  : Nat := 0
  entries : List (Nat × Nat × Nat) := []
  seen  : Int := 0
  deriving DecidableEq, Repr

/-- The time-gate engines: active and pending lists by front port. -/
structure Tgs where
  act  : SMap GList := []
  pend : SMap GList := []
  deriving DecidableEq, Repr

/-- What a capture record says of a frame or copy at its record point (R370); `none` where not yet known. -/
structure CapInfo where
  inPort  : Nat
  outPort : Option Nat := none
  reason  : Nat := 0
  queue   : Option Nat := none
  domain  : Nat
  version : Nat
  len     : Option Nat := none
  bytes   : List Byte
  deriving DecidableEq, Repr

/-- One staged capture record (R370), without its ring sequence number and CRC, and whether its session is a rule
trigger. -/
structure CapRec where
  bytes : List Byte
  trig  : Bool := false
  deriving DecidableEq, Repr

/-- Mirroring beside the MIR registers: capture queues by number − 4,352 (R371), the queue served last, each session's
candidates since its last enable, records still to write after the trigger (none: no freeze under way). -/
structure Mir where
  queues : SMap (List CapRec) := []
  last   : Nat := 0
  seen   : SMap Nat := []
  post   : Option Nat := none
  deriving DecidableEq, Repr

/-- Statistics and the ledger beside STA and PMC registers. Counters, keyed by bank byte offset (R407): the live ones, those
of blocks the front in flight has passed, the values it has latched at blocks that restart theirs, the readable bank. The
front: pages passed, tokens ahead of it by page, its clock and TB0 instant, whether software injected it, lateness reported,
the mode before it and whether it changes, its part in a stop (0 none, 1 stops, 2 finds stopped, 3 resumes), instants skipped,
time changed, the instant (ns) that a timed front must follow, what this latch will say of both. Ledger terms by `ledKey`: of the open interval, of blocks passed, of intervals
an overrun left unaudited, of the cut under audit; residents (account × 2^24 + instance) of that cut and of the one before;
device words of both, and those the interval began with; what the cut is, R289 failures by pool. Bandwidth windows by port × 2 + side: octets so far, peak and last. Pages whose performance counters stand. -/
structure Sta where
  cnt      : SMap Nat := []
  late     : SMap Nat := []
  next     : SMap Nat := []
  bank     : SMap Nat := []
  passed   : List Nat := []
  frontAt  : Nat := 0
  frontTb  : TimeBase := {}
  soft     : Bool := false
  lateSaid : Bool := false
  oldFree  : Bool := false
  modeChg  : Bool := false
  pmcPart  : Nat := 0
  skipped  : Nat := 0
  stepped  : Bool := false
  after    : Option Nat := none
  lastFront : Option Nat := none
  info     : Nat := 0
  led      : SMap Int := []
  ledLate  : SMap Int := []
  ledWait  : SMap Int := []
  ledCut   : SMap Int := []
  resCut   : SMap Int := []
  resPrev  : SMap Int := []
  wordCut  : SMap Int := []
  wordWait : SMap Int := []
  wordBase : SMap Nat := []
  cutTb    : TimeBase := {}
  ledOn    : Bool := false
  first    : Bool := false
  spans    : Bool := false
  overran  : Bool := false
  bpmFail  : SMap Int := []
  bwRx     : SMap Nat := []
  bwTx     : SMap Nat := []
  bwPk     : SMap (Nat × Nat) := []
  pmcHeld  : List Nat := []
  deriving DecidableEq, Repr

/-- A generation of the OTP (R430): its two state fuses (0 Open, 1 Allocated, 2 Sealed), the allocation digest, root-key hashes with
their algorithms by slot, KEKs by domain, debug-taint. -/
structure OtpGen where
  fuses  : Nat := 0
  digest : List Byte := []
  roots  : SMap (List Byte) := []
  algs   : SMap Nat := []
  keks   : SMap (List Byte) := []
  taint  : Bool := false
  deriving DecidableEq, Repr

/-- An allocation entry in force (R428): kind, domain, unit, first item, items. -/
structure Alloc where
  kind  : Nat
  dom   : Nat
  unit_ : Nat
  first : Nat
  count : Nat
  deriving DecidableEq, Repr

/-- A command frame waiting for the warden: its domain, ingress port and bytes. -/
structure WCmd where
  dom  : Nat
  port : Nat
  front : Bool
  bytes : List Byte
  deriving DecidableEq, Repr

/-- Security beside the SEC and MSC registers: OTP by generation and the generation in use (both outlive power), the
allocation in force, commands at port 67; keys enrolled, nonces, last sequence numbers (plus 1), the times of recent
signature failures, lockouts, view flags by domain; MSC entries, accesses in progress, SAs reported at their threshold;
the doorbell operation in progress (op, slot, result); digest and seq of each domain's boot section. -/
structure Sec where
  otp    : List OtpGen := [{}, {}, {}, {}]
  gen    : Nat := 0
  allocs : List Alloc := []
  inbox  : List WCmd := []
  keys   : SMap (List Byte) := []
  nonces : SMap (List Byte) := []
  seqs   : SMap Nat := []
  badSig : SMap (List Nat) := []
  locked : List Nat := []
  views  : List Nat := []
  msc    : SMap Byte := []
  thrSaid : List Nat := []
  bell   : Nat × Nat × Nat := (0, 0, 0)
  section_ : SMap (List Byte × Nat) := []
  deriving DecidableEq, Repr
/-- A circuit of the island (R465 to R468): accumulators in 2^−20 mWh, whole seconds measured, class in force, the new class
seen and for how many seconds, seconds each class held in the period, period flags (input fault, over-range). -/
structure IslCirc where
  cons   : Nat := 0
  regen  : Nat := 0
  live   : Nat := 0
  cls    : Nat := 0
  cand   : Nat := 0
  candN  : Nat := 0
  heldS  : List Nat := [0, 0, 0, 0, 0, 0]
  fault  : Bool := false
  overR  : Bool := false
  next   : Nat := 0
  deriving DecidableEq, Repr

/-- What a circuit measures: its modulator bitstreams as sampled (R463), newest first as far back as the filters reach, with
the clocks since the filters started; the samples of the window and of the second in progress, oldest first, in 2^−45 V and
2^−45 × 0.01 A (R465); whether the second has been measured from its start, and an input fault in it (R468). -/
structure IslStream where
  clocks : Nat := 0
  v      : List Bool := []
  i      : List Bool := []
  win    : List (Int × Int) := []
  sec    : List (Int × Int) := []
  whole  : Bool := false
  bad    : Bool := false
  deriving DecidableEq, Repr

/-- A checkpoint (R472): its sequence number, the circuits, island time in ns, the period in progress and its flags. -/
structure IslCkpt where
  seq    : Nat := 0
  circs  : List IslCirc := [{}, {}, {}, {}]
  time   : Nat := 0
  period : Nat := 0
  flags  : Nat := 0
  deriving DecidableEq, Repr

/-- A circuit's one-second readings: mean power in W, rms voltage in V, rms current in 0.1 A, rounded down; with each, whether
it falls short of the value. -/
structure IslReads where
  p : Int × Bool := (0, false)
  v : Nat × Bool := (0, false)
  i : Nat × Bool := (0, false)
  deriving DecidableEq, Repr

/-- The Neltus island (chapter 20): whether it has started, hold and the periods entered; frames in the mailbox; time in ns
at a clock; the period in progress and its common flags (R471); circuits, inputs in fault; the two checkpoints; record memory
(MRAM), numbers of records made, sent and collected, replay in progress, records whose store failed, storage flags, the first
period not recorded, event records lost; time flags, where the open interval began, step to come, last step, last rejection;
location with its time; mailbox counts, the clock of the last accepted frame; seal, generations used, their secrets, the
configuration, the clock of the arming; energy since the last pulse. -/
structure Isl where
  run    : Bool := false
  hold   : Bool := false
  holds  : Nat := 0
  inbox  : List (List Byte) := []
  base   : Nat := 0
  baseAt : Nat := 0
  period : Nat := 0
  flags  : Nat := 0
  circs  : List IslCirc := [{}, {}, {}, {}]
  faulty : List Nat := []
  streams : SMap IslStream := []
  reads  : SMap IslReads := []
  ckA    : IslCkpt := {}
  ckB    : IslCkpt := {}
  mram   : SMap Byte := []
  made   : Nat := 0
  sent   : Nat := 0
  coll   : Nat := 0
  replay : Option (Nat × Nat) := none
  unstored : SMap (List Byte) := []
  storeBad : Bool := false
  full   : Bool := false
  evLost : Nat := 0
  suspect : Bool := false
  lost   : Bool := false
  openFrom : Nat := 0
  step   : Option Int := none
  lastStep : Option Nat := none
  lastRej : Option Nat := none
  loc    : Option (Nat × Nat × Nat) := none
  accepted : Nat := 0
  rejected : Nat := 0
  lastOk : Option Nat := none
  sealed_ : Bool := false
  gens   : Nat := 0
  secrets : SMap (List Byte) := []
  cfg    : List Byte := List.replicate 128 0
  armedAt : Option Nat := none
  pulse  : Nat := 0
  deriving DecidableEq, Repr
/-- A request in the repair queue (R491, R492): kind, region, argument, policy in force when it was made, approval limit
in ms, and whether it has been approved. -/
structure RepReq where
  kind   : Nat
  region : Nat
  arg    : Nat
  pol    : Nat
  limit  : Nat
  ok     : Bool := false
  deriving DecidableEq, Repr

/-- The spares manager beside the SPR registers: repair queue, clock at which the head began to wait, ports that P4
carries in a takeover, pool sizes as configured, spare rows used by macro, spare banks and pseudo-channels that failed,
monitor windows a region's cadence has stopped for. -/
structure Spr where
  queue   : List RepReq := []
  askedAt : Nat := 0
  moved   : List Nat := []
  cfgPool : SMap Nat := []
  rows    : SMap Nat := []
  stopped : SMap Nat := []
  spareBank : SMap Nat := []
  reserve : List Nat := []
  sparePc : SMap Nat := []
  lee     : SMap Nat := []
  deriving DecidableEq, Repr

/-- An accepted event record (R505); seq, times and power cycle are set at acceptance, or by the start scan (R508). `stored`
says whether it is for external storage or for the mirror only (R516). -/
structure EvRec where
  ev     : Ev
  seq    : Nat := 0
  opSec  : Nat := 0
  frac   : Nat := 0
  pwrCyc : Nat := 0
  stored : Bool := true
  deriving DecidableEq, Repr

/-- An open loss count (R510): records lost, the codes of the first and last, op_sec of the first, fatal records lost. -/
structure EvLoss where
  lost  : Nat
  first : Nat
  last  : Nat
  opSec : Nat
  fatal : Nat
  deriving DecidableEq, Repr

/-- The event recorder beside its registers: events raised and waiting, the round-robin page (R508), the FIFO (R509),
records accepted before a start scan has fixed seq, whether that scan is still to fix it, the open loss count, the mirror
(record bytes, newest last), op_sec and clock at POR_N release (R514), header counts of copies A and B, records stored since a
header was due by their number, clocks of the last header due by time and of the last 0x1403. -/
structure Evr where
  waiting : List Ev := []
  ptr     : Nat := 0
  fifo    : List EvRec := []
  early   : List EvRec := []
  fixed   : Bool := false
  loss    : Option EvLoss := none
  mirror  : List (List Byte) := []
  origin  : Nat := 0
  porAt   : Nat := 0
  hdrA    : Nat := 0
  hdrB    : Nat := 0
  stored  : Nat := 0
  hdrAt   : Nat := 0
  werrAt  : Option Nat := none
  deriving DecidableEq, Repr

/-- Power and start-up beside the PMU and TOP registers: POR_N high, in the Lull state, power-down under way (R537 step 5), the
PWR_EN outputs, rails checked since their enable (bit each), a rail fault to be reported at the next start (R522), WAKE_N and
LULL_REQ_N, PCIE_WAKE_N driven low, a wake that has started the exit with its cause and port (R540), one to be reported at Run
(R541), clocks of the start, of Quiesce, of Ready and of power-down, whether the image in use is the alternate
one, whether its header has been accepted, sections completed, whether any has acted, entries of the section in progress, clock of a
poll's start. -/
structure Pmu where
  por     : Bool := false
  lull    : Bool := false
  dying   : Bool := false
  enCore  : Bool := false
  enSds   : Bool := false
  enHbm   : Bool := false
  checked : Nat := 0
  railBad : Option Nat := none
  wakeN   : Bool := true
  reqN    : Bool := true
  pcieWake : Bool := false
  wake    : Option (Nat × Nat) := none
  exited  : Option (Nat × Nat) := none
  startAt : Nat := 0
  quietAt : Nat := 0
  readyAt : Nat := 0
  downAt  : Nat := 0
  alt     : Bool := false
  loading : Bool := false
  sect    : Nat := 0
  acted   : Bool := false
  part    : Nat := 0
  pollAt  : Nat := 0
  deriving DecidableEq, Repr

/-- The debug port beside the DBG registers: bits received since the last start bit of an unfinished packet (R549), the clock
of the last valid packet, failed unlocks since POR_N, the signature pushed, the challenge (R552), words collected for a table
entry by target, copy, index and word (R559), the boundary-scan instruction that acts (R560). -/
structure Dbg where
  rx     : List Bool := []
  lastAt : Nat := 0
  fails  : Nat := 0
  resp   : List Byte := []
  chal   : List Byte := []
  words  : SMap Word := []
  jtag   : Nat := 0x01
  deriving DecidableEq, Repr

end Sys2Proof.Machine
end

