-- ==== Sys2Proof/Machine/State.lean ====
section
/-! DEFINITION. The whole state of the block, as plain data, and the reasons a step can stop. -/

namespace Sys2Proof.Machine

/-- The state. `regs` is the one home of every register word of BAR0 (keyed by BAR0 byte address, unlisted words at
their reset value); `inForce` holds the value in force of RW-L fields whose effect comes later than the write (R9);
`win` holds the BAR2 windows (ring control, queue, meter and gate list memory), keyed by BAR2 offset. -/
structure State where
  /-- Commands that wait, first in, first out. -/
  pending : List Instr := []
  regs    : SMap Word := []
  inForce : SMap Word := []
  win     : SMap Byte := []
  /-- Host memory, HBM, the on-chip cell store, the recorder's serial memory (both of R511), the boot image memory. -/
  host    : SMap Byte := []
  hbm     : SMap Byte := []
  sram    : SMap Byte := []
  spi     : SMap Byte := []
  flash   : SMap Byte := []
  /-- Cycles of 4 ns since cold reset. -/
  clk     : Nat := 0
  /-- Draws made so far from the random source and the free values. -/
  fresh   : Nat := 0
  out     : List Out := []
  hif     : Hif := {}
  gov     : Clk := {}
  lanes   : SMap LaneX := []
  macs    : SMap MacX := []
  frames  : SMap Frame := []
  copies  : SMap Copy := []
  eframes : List EFrame := []
  nextId  : Nat := 1
  ver     : Ver := {}
  tbl     : Tbl := {}
  pol     : Pol := {}
  glf     : Glf := {}
  rsq     : Rsq := {}
  bpm     : Bpm := {}
  tmg     : Tmg := {}
  tsu     : Tsu := {}
  tgs     : Tgs := {}
  mir     : Mir := {}
  sta     : Sta := {}
  sec     : Sec := {}
  isl     : Isl := {}
  spr     : Spr := {}
  evr     : Evr := {}
  pmu     : Pmu := {}
  dbg     : Dbg := {}
  deriving DecidableEq, Repr

/-- The spec names no way for the device to stop: no command raises a fault (safe: nothing is cut short). -/
inductive Fault where
  /-- Raised by no command; kept so that the type has a name for it. Safe. -/
  | stopped
  deriving DecidableEq, Repr

/-- Why a command has no meaning. -/
inductive Refusal where
  /-- Answered by an arm of exec whose command has no meaning yet (safe: the run stops there). -/
  | notModelled (mnemonic : String)
  deriving DecidableEq, Repr

/-- The state right after a cold reset (R524): every register at its reset value, every memory unlisted, no command
waiting. -/
def State.reset : State := {}

end Sys2Proof.Machine
end

