-- ==== Sys2Proof/Machine/Ops.lean ====
section
/-! DEFINITION. The named operations over the state: register words and fields, windows, host memory, HBM and frame
stores, the draw counter. Every meaning reads and writes the state through these. -/

namespace Sys2Proof.Machine

/-! ### Page addresses (R53) -/

def topA (o : Nat) : Nat := o
def hifA (o : Nat) : Nat := 0x1000 + o
def clkA (o : Nat) : Nat := 0x2000 + o
def pmuA (o : Nat) : Nat := 0x3000 + o
def tsuA (o : Nat) : Nat := 0x4000 + o
def evrA (o : Nat) : Nat := 0x5000 + o
def dbgA (o : Nat) : Nat := 0x6000 + o
def islA (o : Nat) : Nat := 0x7000 + o
def sprA (o : Nat) : Nat := 0x8000 + o
def staA (o : Nat) : Nat := 0x9000 + o
def pmcA (o : Nat) : Nat := 0xA000 + o
def secA (o : Nat) : Nat := 0xB000 + o
def lrnA (o : Nat) : Nat := 0xC000 + o
def tblA (o : Nat) : Nat := 0xD000 + o
def bpmA (o : Nat) : Nat := 0xE000 + o
def glfA (o : Nat) : Nat := 0xF000 + o
def sdsA (q o : Nat) : Nat := 0x10000 + q * 0x1000 + o
def macA (p o : Nat) : Nat := 0x20000 + p * 0x1000 + o
def prsA (k o : Nat) : Nat := 0x60000 + k * 0x1000 + o
def pipA (k o : Nat) : Nat := 0x68000 + k * 0x1000 + o
def polA (k o : Nat) : Nat := 0x70000 + k * 0x1000 + o
def rsqA (e o : Nat) : Nat := 0x78000 + e * 0x1000 + o
def tmgA (e o : Nat) : Nat := 0x80000 + e * 0x1000 + o
def tgsA (e o : Nat) : Nat := 0x88000 + e * 0x1000 + o
def mirA (o : Nat) : Nat := 0x90000 + o
def hbcA (t o : Nat) : Nat := 0x98000 + t * 0x1000 + o
def mscA (q o : Nat) : Nat := 0xA0000 + q * 0x1000 + o

/-! ### Page indexes (R53), and the page whose period a port's receive or transmit side counts in (R406) -/

def prsPage (k : Nat) : Nat := 0x60 + k
def pipPage (k : Nat) : Nat := 0x68 + k
def polPage (k : Nat) : Nat := 0x70 + k
def rsqPage (e : Nat) : Nat := 0x78 + e
def tmgPage (e : Nat) : Nat := 0x80 + e
def tgsPage (e : Nat) : Nat := 0x88 + e
def mirPage : Nat := 0x90
def hbcPage (t : Nat) : Nat := 0x98 + t
def macPage (p : Nat) : Nat := 0x20 + p
def sdsPage (q : Nat) : Nat := 0x10 + q
def mscPage (q : Nat) : Nat := 0xA0 + q

/-- The egress group of a port (R18, R19). -/
def groupOf (p : Nat) : Nat := min (p / 16) 4

def rxPage (p : Nat) : Nat :=
  if p < 64 then macPage p else if p = 64 then 1 else if p = 65 then 7 else if p = 66 then pipPage 4 else 11
def txPage (p : Nat) : Nat := tmgPage (groupOf p)

/-! ### Register words and fields -/

/-- The stored word of a register. -/
def State.rd (s : State) (a : Nat) : Word := s.regs.atF resetWord a

/-- Store a register word. -/
def State.wr (s : State) (a : Nat) (w : Word) : State := { s with regs := s.regs.putF resetWord a w }

/-- A field of a register. -/
def State.f (s : State) (a hi lo : Nat) : Nat := fld (s.rd a) hi lo

/-- One bit of a register. -/
def State.b (s : State) (a i : Nat) : Bool := bit (s.rd a) i

/-- Set a field of a register. -/
def State.setF (s : State) (a hi lo v : Nat) : State := s.wr a (setFld (s.rd a) hi lo v)

/-- Set one bit of a register. -/
def State.setB (s : State) (a i : Nat) (v : Bool) : State := s.wr a (setBit (s.rd a) i v)

/-- The word of a register that is in force. -/
def State.fw (s : State) (a : Nat) : Word := s.inForce.atF resetWord a

/-- A field of the word in force. -/
def State.ff (s : State) (a hi lo : Nat) : Nat := fld (s.fw a) hi lo

/-- Bring the stored word of a register into force. -/
def State.load (s : State) (a : Nat) : State := { s with inForce := s.inForce.putF resetWord a (s.rd a) }

/-- Add to a saturating 32-bit counter register. -/
def State.addCnt (s : State) (a n : Nat) : State := s.wr a (word (satAdd 32 (s.rd a).toNat n))

/-- Count one in a saturating 32-bit counter register. -/
def State.bump (s : State) (a : Nat) : State := s.addCnt a 1

/-- Count one in a saturating field. -/
def State.bumpF (s : State) (a hi lo : Nat) : State := s.setF a hi lo (satAdd (hi + 1 - lo) (s.f a hi lo) 1)

/-! ### Memories -/

/-- Bytes of a BAR2 window (R54). -/
def State.winRd (s : State) (a n : Nat) : List Byte := readBytes s.win a n
/-- Little-endian number in a BAR2 window. -/
def State.winLE (s : State) (a n : Nat) : Nat := readLE s.win a n
def State.winWr (s : State) (a : Nat) (bs : List Byte) : State := { s with win := writeBytes s.win a bs }
def State.winPut (s : State) (a n v : Nat) : State := { s with win := writeLE s.win a n v }
/-- Bytes of host memory (R5: little-endian structures). -/
def State.hostRd (s : State) (a n : Nat) : List Byte := readBytes s.host a n
def State.hostWr (s : State) (a : Nat) (bs : List Byte) : State := { s with host := writeBytes s.host a bs }

/-- The bytes of a fresh descriptor (R280, R291): alloc 0, gen 0, null links, its CRC. -/
def freshDesc : List Byte :=
  let b := leBytes 4 0xE0000000 ++ leBytes 4 0xE0000000 ++ List.replicate 6 0
  b ++ leBytes 2 (crc16 b)

/-- Which byte of a descriptor an HBM address holds in a spill region of `z` 2 MB units from byte `base` (R296). -/
def descByte (base z a : Nat) : Option Nat :=
  let line := (a - base) / 0x4000
  if base ≤ a ∧ line % 17 = 0 ∧ line / 17 < z * 128 / 17 ∧ a / 256 % 32 < 30 then some (a % 16) else none

/-- What an HBM byte that nothing has written reads as: 0, but in the places of descriptors what a fresh one holds (R291). -/
def State.hbmBase (s : State) (a : Nat) : Byte :=
  match s.bpm.descs.findSome? (fun r => descByte r.1 r.2 a) with
  | some i => freshDesc.getD i 0
  | none => 0

/-- Bytes from an address, each as its difference from a base. -/
def diffBytes (base : Nat → Byte) (a : Nat) : List Byte → List Byte
  | [] => []
  | b :: bs => (b ^^^ base a) :: diffBytes base (a + 1) bs

/-- HBM bytes. The field `hbm` holds each byte's difference from what it reads as unwritten, so that the descriptors of a whole
spill region are fresh with nothing listed. -/
def State.hbmRd (s : State) (a n : Nat) : List Byte := diffBytes s.hbmBase a (readBytes s.hbm a n)
def State.hbmWr (s : State) (a : Nat) (bs : List Byte) : State := { s with hbm := writeBytes s.hbm a (diffBytes s.hbmBase a bs) }

/-! ### Frames and copies -/

def State.frame (s : State) (i : Nat) : Frame := s.frames.at {} i
def State.setFrame (s : State) (f : Frame) : State := { s with frames := s.frames.put {} f.id f }
def State.dropFrameRec (s : State) (i : Nat) : State := { s with frames := s.frames.put {} i {} }
def State.copy (s : State) (i : Nat) : Copy := s.copies.at {} i
def State.setCopy (s : State) (c : Copy) : State := { s with copies := s.copies.put {} c.id c }
def State.dropCopyRec (s : State) (i : Nat) : State := { s with copies := s.copies.put {} i {} }
def State.mac (s : State) (p : Nat) : MacX := s.macs.at {} p
def State.setMac (s : State) (p : Nat) (m : MacX) : State := { s with macs := s.macs.put {} p m }
def State.lane (s : State) (l : Nat) : LaneX := s.lanes.at {} l
def State.setLane (s : State) (l : Nat) (x : LaneX) : State := { s with lanes := s.lanes.put {} l x }

/-- What a metadata field reads before anything writes it in a pass (R138). -/
def mdDefault (id : Nat) : Nat := if id = 0x0E ∨ id = 0x0F then 0xFFFF else 0

/-- A metadata field of a frame (R138). -/
def Frame.mdGet (f : Frame) (id : Nat) : Nat :=
  match id with
  | 0 => f.domain
  | 1 => f.version
  | 2 => f.inPort
  | 3 => f.src
  | 4 => f.pass
  | _ => f.md.atF mdDefault id

def Frame.mdSet (f : Frame) (id v : Nat) : Frame := { f with md := SMap.putF mdDefault f.md id v }

/-- The queue that a unicast frame's metadata names (R143). -/
def Frame.queueId (f : Frame) : Nat := f.mdGet 9 * 64 + f.mdGet 0x0B * 8 + f.mdGet 0x0C

/-- The pipeline that admits frames of port `p` (R155): its own, or P4 once it has switched. -/
def State.pipeOf (s : State) (p : Nat) : Nat := if 64 ≤ p ∨ s.spr.moved.contains p then 4 else p / 16

/-- The clocks of these domains run again (R39). -/
def State.clocksBack (s : State) (ns : List Nat) : State :=
  { s with gov := { s.gov with lost := s.gov.lost.filter (fun n => !ns.contains n) } }

/-- Put something on the outbox. -/
def State.emit (s : State) (o : Out) : State := { s with out := s.out ++ [o] }

/-- A draw number that no draw has used, and the state after it. -/
def State.draw (s : State) : Nat × State := (s.fresh, { s with fresh := s.fresh + 1 })

/-- `n` random bytes (Config.randomByte) and the state after the draws. -/
def State.random (s : State) (n : Nat) : List Byte × State :=
  ((List.range n).map (fun i => Config.randomByte (s.fresh + i)), { s with fresh := s.fresh + n })

/-- Apply a change for each element of a list, in order. -/
def forEach {α : Type} (xs : List α) (s : State) (f : State → α → State) : State := xs.foldl f s

/-- A change made only when a condition holds. -/
def State.when (s : State) (c : Bool) (f : State → State) : State := if c then f s else s

end Sys2Proof.Machine
end

