-- ==== Sys2Proof/Machine/Flags.lean ====
section
/-! DEFINITION. Status flags and interrupts: page causes (R59), the interrupt tree (R69 to R71), raising an event
(R508), first-only captures, and how every command answers. -/

namespace Sys2Proof.Machine

/-- PAGE_IRQ_PEND of a page: RAW AND EN (R58). -/
def State.pagePend (s : State) (page : Nat) : Word := s.rd (page * 0x1000 + 8) &&& s.rd (page * 0x1000 + 0xC)

/-- Pages with a nonzero PAGE_IRQ_PEND. Only a written PAGE_IRQ_RAW can be nonzero, so the listed words suffice. -/
def State.pendPages (s : State) : List Nat :=
  (s.regs.filter (fun e => decide (e.1 % 0x1000 = 8 ∧ s.pagePend (e.1 / 0x1000) ≠ 0))).map (fun e => e.1 / 0x1000)

/-- The TOP_IRQ_PEND bit a page is summed into (R69). -/
def topBit (page : Nat) : Nat :=
  match pageOf page with
  | none => 64
  | some (b, i) =>
    match b with
    | .sds => 16 + i
    | .mac => 16 + i / 4
    | .msc => 16 + i
    | .prs => 32 + i
    | .pip => 32 + i
    | .pol => 32 + i
    | .rsq => 37 + i
    | .tmg => 37 + i
    | .tgs => 37 + i
    | .mir => 42
    | .hbc => 43 + i
    | b => b.id

/-- TOP_IRQ_PEND (R69): the summary bits that are 1. -/
def State.topPend (s : State) (n : Nat) : Bool := s.pendPages.any (fun p => decide (topBit p = n))

/-- The vectors that the pages raise through TOP_IRQ_ROUTE (R70). -/
def State.pageVectors (s : State) : List Nat :=
  (s.pendPages.filter (fun p => s.b (topA (0x100 + 4 * topBit p)) 31)).map (fun p => s.f (topA (0x100 + 4 * topBit p)) 7 0)

/-- The vectors that rings raise: irq_pend and irq_en both 1 (R77); byte 22 of a ring control entry. -/
def State.ringVectors (s : State) : List Nat :=
  (s.win.filter (fun e => decide (0x1000000 ≤ e.1 ∧ e.1 < 0x1010000 ∧ e.1 % 32 = 22 ∧
    bitsOf e.2.toNat 1 1 = 1 ∧ bitsOf e.2.toNat 5 5 = 1))).map (fun e => (s.win.at 0 (e.1 - 6)).toNat)

/-- The vectors whose level is 1 (R70): the OR of the enabled routed bits and of the ring interrupts assigned. -/
def State.levels (s : State) : List Nat :=
  let vs := s.pageVectors ++ s.ringVectors
  (List.range 256).filter (fun v => vs.contains v)

/-- The MSI-X entry of a vector. -/
def State.msix (s : State) (v : Nat) : MsixEnt := s.hif.msix.at {} v

/-- Send a vector's message (R70, R71). -/
def State.sendVector (s : State) (v : Nat) : State := s.emit (.msix v (s.msix v).addr (s.msix v).data)

/-- The PBA bit of a vector: its level is 1 and it is masked (R70). -/
def State.pba (s : State) (v : Nat) : Bool := s.levels.contains v && (s.msix v).masked

/-- Bring the vector levels up to date: a level that has risen sends its message unless it is masked (R70). -/
def State.settle (s : State) : State :=
  let now := s.levels
  let rose := now.filter (fun v => !s.hif.levels.contains v && !(s.msix v).masked)
  { s with hif := { s.hif with levels := now },
           out := s.out ++ rose.map (fun v => .msix v (s.msix v).addr (s.msix v).data) }

/-- State of region `r` (R503). -/
def State.region (s : State) (r : Nat) : Nat := s.f (sprA (0x080 + 4 * (r / 8))) (4 * (r % 8) + 3) (4 * (r % 8))

/-- Whether a region is isolated: any state but good, and in use. -/
def State.regionDown (s : State) (r : Nat) : Bool := decide (1 ≤ s.region r ∧ s.region r ≤ 4)

/-- Set a cause bit of a page (R59). -/
def State.irq (s : State) (page bitNo : Nat) : State := s.setB (page * 0x1000 + 8) bitNo true

/-- Raise an event of a page: it waits for the recorder (R508). `n` is the event number within the block. -/
def State.raise (s : State) (page code : Nat) (p0 p1 p2 p3 : Nat := 0) : State :=
  { s with evr := { s.evr with waiting := s.evr.waiting ++
      [{ page, code, p0 := p0 % 2 ^ 32, p1 := p1 % 2 ^ 32, p2 := p2 % 2 ^ 32, p3 := p3 % 2 ^ 16 }] } }

/-- Set a cause bit and raise its event. -/
def State.report (s : State) (page bitNo code : Nat) (p0 p1 p2 p3 : Nat := 0) : State :=
  (s.irq page bitNo).raise page code p0 p1 p2 p3

/-- Fill a capture register whose bit 31 is `valid`, when none is held; further words go with it. -/
def State.capture (s : State) (a : Nat) (w0 : Nat) (more : List (Nat × Nat) := []) : State :=
  if s.b a 31 then s
  else forEach more (s.wr a (word (w0 % 2 ^ 31 + 2 ^ 31))) (fun s e => s.wr e.1 (word e.2))

end Sys2Proof.Machine
end

