-- ==== Sys2Proof/Machine/Timing.lean ====
section
/-! DEFINITION. Time: the four time bases (R332, R333), the stamps taken from them, and the passing of one cycle. -/

namespace Sys2Proof.Machine

/-- Time base `b`. -/
def State.tb (s : State) (b : Nat) : TimeBase := s.tsu.tb.at {} b
def State.setTb (s : State) (b : Nat) (t : TimeBase) : State :=
  { s with tsu := { s.tsu with tb := s.tsu.tb.put {} b t } }

/-- A signed number of nanoseconds added to a base, with the carry into its 48-bit seconds (R333, R335). -/
def TimeBase.addNs (t : TimeBase) (d : Int) : TimeBase :=
  let total : Int := (t.sec : Int) * 1000000000 + (t.ns : Int) + d
  { t with sec := (total / 1000000000).toNat % 2 ^ 48, ns := (total % 1000000000).toNat }

/-- One cycle of a base: 4 ns plus adj × 2^−32 ns (R333); the fraction has 32 bits. -/
def TimeBase.cycle (t : TimeBase) (adj : Int) : TimeBase :=
  let f : Int := (t.frac : Int) + adj
  { t.addNs (4 + f / 4294967296) with frac := (f % 4294967296).toNat }

/-- TSU_TB_ADJ[b].adj. -/
def State.tbAdj (s : State) (b : Nat) : Int := toSigned 32 (s.rd (tsuA (0x084 + 64 * b))).toNat

/-- Bring the pin settings of a base into force: they change at its next second (R342). -/
def State.loadPins (s : State) (b : Nat) : State :=
  forEach (List.range 4) s (fun s n =>
    s.when (decide (s.f (tsuA (0x200 + 32 * n)) 5 4 = b)) (fun s =>
      forEach [0x200, 0x204, 0x208, 0x20C] s (fun s o => s.load (tsuA (o + 32 * n)))))

/-- One cycle of every base; a base that enters a new second brings its pins' settings into force. -/
def State.tickBases (s : State) : State :=
  forEach (List.range 4) s (fun s b =>
    let t := s.tb b
    let t' := t.cycle (s.tbAdj b)
    let s := s.setTb b t'
    if t'.sec = t.sec then s else s.loadPins b)

/-- The core is powered: POR_N high, PWR_EN_CORE asserted, outside the Lull state. -/
def State.alive (s : State) : Bool := s.pmu.por && s.pmu.enCore && !s.pmu.lull

/-- One cycle of 4 ns passes: the always-on clock and, while the core is powered and the TSU is not isolated, the time
bases advance. -/
def State.tick (s : State) : State :=
  let s := { s with clk := s.clk + 1 }
  if s.alive && !s.regionDown 61 then s.tickBases else s

/-- Lull entry is under way (R537), or factory test mode (R527): MACs and host transmit rings take no further frame. -/
def State.quiesced (s : State) : Bool := decide (4 ≤ s.f (topA 0x048) 2 0)

/-- A base's time in ns. -/
def TimeBase.total (t : TimeBase) : Nat := t.sec * 1000000000 + t.ns

/-- Timed fronts fall strictly after this instant of TB0: the time of the latest change of TB0, or the latest instant
skipped (R403, R404). -/
def State.frontAfter (s : State) (n : Nat) : State := { s with sta := { s.sta with after := some n } }
/-- TB0 was set or stepped in this period (R404). -/
def State.frontStepped (s : State) : State := { s with sta := { s.sta with stepped := true } }

/-- Microseconds as cycles of 4 ns. -/
def usec (n : Nat) : Nat := n * 250
/-- Milliseconds as cycles of 4 ns. -/
def msec (n : Nat) : Nat := n * 250000
/-- Seconds as cycles of 4 ns. -/
def seconds (n : Nat) : Nat := n * 250000000

/-- A stamp of base `b` with a port adjustment of `adj` ns added (R337). -/
def State.stamp (s : State) (b : Nat) (adj : Int) : TimeBase := (s.tb b).addNs adj

/-- The base of a front port, TSU_PORT_CFG[p].tb. -/
def State.portTb (s : State) (p : Nat) : Nat := s.f (tsuA (0x300 + 4 * p)) 1 0
/-- rx_adj of a port (R345). -/
def State.rxAdj (s : State) (p : Nat) : Int := toSigned 8 (s.f (tsuA (0x300 + 4 * p)) 15 8)
/-- tx_adj of a port (R345). -/
def State.txAdj (s : State) (p : Nat) : Int := toSigned 8 (s.f (tsuA (0x300 + 4 * p)) 23 16)

end Sys2Proof.Machine
end

