-- ==== Sys2Proof/Machine/Counting.lean ====
section
/-! DEFINITION. What every block counts: port slots and other live counters (R405 to R412), performance events (R416 to
R418), ledger terms (R389), and the drain counters of rule versions with the advance of O (R197, R198). -/

namespace Sys2Proof.Machine

/-- A front is in flight and has passed the block of a page (R32). -/
def State.passed (s : State) (page : Nat) : Bool := s.b (staA 0x040) 0 && s.sta.passed.contains page

/-- What a frame is given that enters, or is admitted, at a block which the front in flight has passed: the number of that
front. -/
def State.frontMark (s : State) (page : Nat) : Option Nat := if s.passed page then some (s.rd (staA 0x04C)).toNat else none

/-- A frame is behind the front in flight: no token passes the front, so it does not leave a block that the front has yet to
pass (R390). -/
def State.behind (s : State) (f : Frame) : Bool := s.b (staA 0x040) 0 && decide (f.after = some (s.rd (staA 0x04C)).toNat)

/-- The mode a counter of a page counts under: a front brings a new mode into force as it passes (R405). -/
def State.freeMode (s : State) (page : Nat) : Bool :=
  if s.b (staA 0x040) 0 && !s.passed page then s.sta.oldFree else s.b (staA 0x040) 1

/-- Put `x` into live counter `k` of page `page`: where a statistics front has passed the page and is still on its way, into the
counter's part behind the front (R390). -/
def State.putCnt (s : State) (page k x : Nat) : State :=
  if s.passed page then { s with sta := { s.sta with late := s.sta.late.put 0 k x } }
  else { s with sta := { s.sta with cnt := s.sta.cnt.put 0 k x } }

/-- Count `n` in a live counter of the block of a page, by its bank byte offset (R407): in the period whose front has
not yet passed the block (R32). It saturates at 2^48 − 1 in period mode; in free-running mode it wraps, and a crossing of
half range is captured first-only (R405). -/
def State.cntAdd (s : State) (page k n : Nat) : State :=
  let v : Nat := if s.passed page then s.sta.late.at 0 k else s.sta.cnt.at 0 k
  let total : Nat := (s.sta.cnt.at 0 k + s.sta.late.at 0 k) % 2 ^ 48
  if s.freeMode page then
    if total < 2 ^ 47 ∧ 2 ^ 47 ≤ (total + n) % 2 ^ 48 ∧ s.b (staA 0x060) 31 = false then
      ((s.putCnt page k ((v + n) % 2 ^ 48)).capture (staA 0x060) (k / 8)).report 9 1 0x2402 (2 ^ 31 + k / 8)
    else s.putCnt page k ((v + n) % 2 ^ 48)
  else s.putCnt page k (satAdd 48 v n)

/-- Count `n` in slot `i` of port `p` (R409): drops by the block that decides them, receive and transmit counters by the
port's side (R406). -/
def State.dropSlot (s : State) (page p i : Nat) : State := s.cntAdd page (p * 0x200 + 8 * i) 1
def State.slot (s : State) (p i : Nat) (n : Nat := 1) : State :=
  s.cntAdd (if i < 0x2C then rxPage p else txPage p) (p * 0x200 + 8 * i) n

/-- Whether performance counter `c` of a page selects event `ev` (R416), the selection being the one in force. -/
def State.pmcSel (s : State) (page ev c : Nat) : Bool :=
  decide (bitsOf (s.fw (page * 0x1000 + 0x1C)).toNat (4 * c + 2) (4 * c) = ev)

/-- An occurrence of performance event `ev` at a page (R416 to R419). -/
def State.pmc (s : State) (page ev : Nat) (n : Nat := 1) : State :=
  if bit (s.fw (pmcA 0x044)) 0 = true ∧ s.sta.pmcHeld.contains page = false then
    forEach ((List.range 8).filter (fun c => s.pmcSel page ev c)) s (fun s c =>
      s.cntAdd page (0x20000 + 64 * page + 8 * c) n)
  else s

/-- The key of a ledger term: account code, instance, term (0 in, 1 out, 2 drops, 3 not-loss, 4 replications). -/
def ledKey (code inst term : Nat) : Nat := (code * 2 ^ 24 + inst) * 8 + term

/-- Add to a ledger term (R389) at the block of a page, in the interval whose front has not yet passed it (R390). Account 0
holds the drops by reason that the device condition compares. -/
def State.ledZ (s : State) (page code inst term : Nat) (z : Int) : State :=
  if s.passed page then { s with sta := { s.sta with ledLate := s.sta.ledLate.upd 0 (ledKey code inst term) (fun x => x + z) } }
  else { s with sta := { s.sta with led := s.sta.led.upd 0 (ledKey code inst term) (fun x => x + z) } }
def State.led (s : State) (page code inst term : Nat) (n : Nat := 1) : State := s.ledZ page code inst term n

/-- Add to a term of the device frame account and of the version's (accounts 2 and 3). -/
def State.ledFrame (s : State) (page v term : Nat) (n : Nat := 1) : State := (s.led page 2 0 term n).led page 3 v term n

/-- A ledger fault (R393): counted; captured with its event while no capture is held. -/
def State.ledgerFault (s : State) (code inst : Nat) (resid : Int) : State :=
  let s := s.bump (staA 0x428)
  if s.b (staA 0x414) 31 then s
  else
    let r := fromSigned 48 resid
    let s := s.wr (staA 0x414) (word (2 ^ 31 + code * 2 ^ 24 + inst % 2 ^ 20))
    let s := ((s.wr (staA 0x418) (s.rd (staA 0x410))).wr (staA 0x41C) (word r)).wr (staA 0x420) (word (r / 2 ^ 32))
    s.report 9 16 0x2410 code inst (fromSigned 32 resid)

/-- A cause bit and its event when the bit is not set already (the "rises after it was last cleared" rule). -/
def State.onRise (s : State) (page bitNo code : Nat) (p0 p1 p2 p3 : Nat := 0) : State :=
  if s.b (page * 0x1000 + 8) bitNo then s else s.report page bitNo code p0 p1 p2 p3

/-- A counter rises, and with it its cause bit and event; a saturated one does not rise. -/
def State.bumpRise (s : State) (a page bitNo code : Nat) : State :=
  if s.rd a = 0xFFFFFFFF then s else (s.bump a).onRise page bitNo code

/-! ### Rule versions -/

/-- C, O and the next version N (R191). -/
def State.verC (s : State) : Nat := s.f (topA 0x300) 2 0
def State.verO (s : State) : Nat := s.f (topA 0x300) 6 4
def State.verN (s : State) : Nat := (s.verC + 1) % 8

/-- TOP_VER_DRAIN[v]. -/
def State.drain (s : State) (v : Nat) : Nat := (s.rd (topA (0x310 + 4 * v))).toNat

/-- The versions from `v` to C in commit order. -/
def State.versFrom (s : State) (v : Nat) : List Nat :=
  (List.range ((s.verC + 8 - v) % 8 + 1)).map (fun i => (v + i) % 8)

/-- Whether version `v` is live (R191). -/
def State.verLive (s : State) (v : Nat) : Bool := (s.versFrom s.verO).contains v

/-- The value an RW-V register has for version `v` (R193). -/
def State.rwv (s : State) (a v : Nat) : Word := s.ver.inForce.atF (fun k => resetWord (k % 2 ^ 24)) (v * 2 ^ 24 + a)

/-- Discard the RW-V values of versions that are no longer live (R193). -/
def State.dropDeadRwv (s : State) : State :=
  { s with ver := { s.ver with inForce := s.ver.inForce.filter (fun e => s.verLive (e.1 / 2 ^ 24)) } }

/-- O moves to the earliest later version with a nonzero drain counter, or to C: one advance (R198). -/
def State.advanceO (s : State) : State :=
  let o := s.verO
  if o = s.verC ∨ s.drain o ≠ 0 then s
  else
    let o' := ((s.versFrom o).find? (fun v => decide (s.drain v ≠ 0))).getD s.verC
    let s := (s.setF (topA 0x300) 6 4 o').setF (topA 0x300) 10 8 ((s.verC + 8 - o') % 8 + 1)
    (s.dropDeadRwv).report 0 19 0x0013 o' ((o' + 8 - o) % 8)

/-- Count frames or copies of version `v` into the device (R197). -/
def State.drainAdd (s : State) (v n : Nat) : State :=
  let a := topA (0x310 + 4 * v)
  s.wr a (word ((s.rd a).toNat + n))

/-- A frame or copy of version `v` leaves the device (R197); O advances when its counter reaches 0 (R198). -/
def State.drainSub (s : State) (v : Nat) : State :=
  let a := topA (0x310 + 4 * v)
  (s.wr a (word ((s.rd a).toNat - 1))).advanceO

/-! ### Drops -/

/-- Count a drop or discard under reason `r` at port `p`, decided by the block of a page (R12, R409, R417). -/
def State.countDrop (s : State) (page p r : Nat) : State := ((s.dropSlot page p r).led page 0 r 2).pmc page 5

/-- A frame or copy past admission is dropped under `r` at port `p` (or discarded under 0x10): slot, accounts 2 and 3,
drain counter. -/
def State.lose (s : State) (page p r v : Nat) : State :=
  ((s.countDrop page p r).ledFrame page v (if r = 0x10 then 3 else 2)).drainSub v

/-- A frame or copy of version `v` is delivered: accounts 2 and 3, drain counter. -/
def State.deliver (s : State) (page v : Nat) : State := (s.ledFrame page v 1).drainSub v

/-- `n` copies are made of one frame or copy (R197). -/
def State.replicate (s : State) (page v n : Nat) : State :=
  ((s.ledFrame page v 0 (n - 1)).led page 2 0 4 (n - 1)).drainAdd v (n - 1)

/-- A copy that ends uncounted beside one that is counted for the same frame: it is taken off the replications, so that
accounts 2 and 3 keep to the one drop that is counted. -/
def State.vanish (s : State) (page v : Nat) : State :=
  (((s.ledZ page 2 0 0 (-1)).ledZ page 2 0 4 (-1)).ledZ page 3 v 0 (-1)).drainSub v

/-! ### What every command answers -/

/-- Performance event 6: the pages whose PAGE_IRQ_PEND has become nonzero since state `s` (R417, R418). -/
def State.pendRose (s t : State) : State :=
  forEach (t.pendPages.filter (fun p => !s.pendPages.contains p)) t (fun t p => t.pmc p 6)

/-- What every command answers: the state its effect leaves, with the vector levels brought up to date and the queue
of waiting commands as it was. -/
def answer (s t : State) : Host.Outcome State Fault Refusal :=
  .next { (s.pendRose t).settle with pending := s.pending }

end Sys2Proof.Machine
end

