-- ==== Sys2Proof/Machine/Operands.lean ====
section
/-! DEFINITION. Register accesses: how an address names a register (R53, R54, R64), and the checks of a write in the order
of R60's kinds (R62). -/

namespace Sys2Proof.Machine

/-- Who asks for an access: the host, the warden for a tenant (R437), a debug memory access (R559), a packet on the debug
wire (R549), the boot sequencer (R531). -/
inductive Principal where
  | host | warden (d : Nat) | debug | wire | boot
  deriving DecidableEq, Repr

/-- The domain a principal acts for (R202). -/
def Principal.domain : Principal → Nat
  | .warden d => d
  | _ => 0

/-- Whether the warden writes: its writes to a far page never overrun (R439). -/
def Principal.isWarden : Principal → Bool
  | .warden _ => true
  | _ => false

/-- A write resolved to a register: page, offset, the bits it may change and their values. -/
structure RegReq where
  page : Nat
  off  : Nat
  mask : Word
  val  : Word
  deriving DecidableEq, Repr

/-- Resolve a BAR0 write (R64): the low alias at 0x800 changes [15:0], the high alias at 0xC00 changes [31:16]. -/
def resolve (addr : Nat) (d : Word) : RegReq :=
  let o := addr % 0x1000
  if o < 0x800 then ⟨addr / 0x1000, o, maskOf 31 0, d⟩
  else if o < 0xC00 then ⟨addr / 0x1000, o - 0x800, word (fld d 31 16), word (fld d 15 0)⟩
  else ⟨addr / 0x1000, o - 0xC00, word (fld d 31 16 * 0x10000), word (fld d 15 0 * 0x10000)⟩

/-- The BAR0 address of a resolved request. -/
def RegReq.addr (r : RegReq) : Nat := r.page * 0x1000 + r.off

/-- The word a register would hold after a write: selected bits from the write, the others as stored; in a WO field
unselected bits count as 0. -/
def merged (d : RegD) (old : Word) (r : RegReq) : Word :=
  let keep := (old &&& ~~~ r.mask) ||| (r.val &&& r.mask)
  d.fields.foldl (fun w f => if f.acc = .wo then setFld w f.hi f.lo (fld (r.val &&& r.mask) f.hi f.lo) else w) keep

/-- Whether a write selects any bit of a field. -/
def touches (r : RegReq) (f : FieldD) : Bool := decide (fld r.mask f.hi f.lo ≠ 0)

/-- Whether a write acts on the register: on one of WO fields it selects the field that says what to do (the one with values
that are refused), or any field where no value is refused. Unselected bits are not written (R64). -/
def acts (d : RegD) (r : RegReq) : Bool :=
  let wo := d.fields.filter (fun f => decide (f.acc = .wo))
  let ops := wo.filter (fun f => decide (0 < f.min))
  wo.isEmpty || (if ops.isEmpty then wo.any (touches r) else ops.all (touches r))

/-- The bits of a register that no field names. -/
def reservedBits (d : RegD) : Word := d.fields.foldl (fun w f => w &&& ~~~ (maskOf f.hi f.lo)) (maskOf 31 0)

/-- Kind 0x3: a selected reserved bit set to 1, or a value the field's row rejects as reserved. -/
def breaksReserved (d : RegD) (w : Word) (r : RegReq) : Bool :=
  decide (r.val &&& r.mask &&& reservedBits d ≠ 0) ||
  d.fields.any (fun f => touches r f && f.rsv.contains (fld w f.hi f.lo))

/-- Whether the block that owns the RW-S fields of a register is enabled (R88 and the line each chapter states). -/
def State.blockOn (s : State) (b : Blk) (i off : Nat) : Bool :=
  match b with
  | .sds => if off = 0x040 then (List.range 4).any (fun l => s.b (sdsA i (0x048 + 4 * l)) 0) else s.b (sdsA i off) 0
  | .mac => s.b (macA i 0x040) 0 || s.b (macA i 0x040) 1
  | .clk => s.b (clkA 0x078) 0
  | .evr => s.b (evrA 0x044) 0
  | .sec => s.b (secA 0x040) 8
  | .tbl => if 0x100 ≤ off ∧ off < 0x160 then s.b (tblA off) 31 else s.b (tblA 0x04C) 0
  | .glf => s.b (glfA 0x044) 31
  | .bpm => s.b (bpmA 0x044) 0
  | .hbc => s.b (hbcA i 0x044) 0
  | .tgs => s.b (tgsA i (0x100 + (off - 0x100) / 32 * 32)) 0
  | .mir => s.b (mirA 0x044) 0
  | .sta => s.b (staA 0x400) 0
  | _ => false

/-- Kind 0x4: the write changes the value of an RW-S field while its block is enabled (R8). -/
def breaksStatic (on : Bool) (d : RegD) (old w : Word) : Bool :=
  on && d.fields.any (fun f => decide (f.acc = .rws) && decide (fld old f.hi f.lo ≠ fld w f.hi f.lo))

/-- Kind 0x5 by the range the field's own row states. -/
def breaksRange (d : RegD) (w : Word) (r : RegReq) : Bool :=
  d.fields.any (fun f =>
    let v := fld w f.hi f.lo
    ((decide (f.acc = .wo) && acts d r) || touches r f) && decide (f.acc ≠ .ro ∧ f.acc ≠ .rh) &&
      (decide (v < f.min) || (match f.max with | some m => decide (m < v) | none => false)))

end Sys2Proof.Machine
end

