-- ==== Sys2Proof/Machine/Checks.lean ====
section
/-! DEFINITION. The conditions on a register write that depend on more than one field or on the block's state (kind 0x5),
and the fences on registers (kind 0x7). Each is named in the block's own chapter. -/

namespace Sys2Proof.Machine

/-- Whether the mode of a quad carries front port `p` (R85). -/
def carriedIn (mode p : Nat) : Bool :=
  decide (mode = 0 ∨ (mode = 1 ∧ p % 4 % 2 = 0) ∨ (mode = 2 ∧ p % 4 = 0))

/-- The quad mode of a front port. -/
def State.quadMode (s : State) (p : Nat) : Nat := s.f (sdsA (p / 4) 0x040) 1 0

/-- Whether a front port is carried (R85). -/
def State.carried (s : State) (p : Nat) : Bool := carriedIn (s.quadMode p) p

/-- Whether lane `l` is the lowest lane of a port in a mode (R86). -/
def lowestLane (mode l : Nat) : Bool := carriedIn mode l

/-- The FEC modes of R89 for a lane rate and quad mode. -/
def fecAllowed (mode rate fec : Nat) : Bool :=
  if mode = 0 then
    match rate with
    | 2 => decide (fec ≤ 1)
    | 3 => decide (fec ≤ 2)
    | _ => decide (fec = 0)
  else decide (fec = 0 ∨ fec = 2)

/-- The lane rate code of a front port: that of its own lane, which is its lowest (R86). -/
def State.portRate (s : State) (p : Nat) : Nat := s.f (sdsA (p / 4) (0x048 + 4 * (p % 4))) 6 4

/-- Slots that hold an active plane (R241). -/
def State.slotValid (s : State) (j : Nat) : Bool := s.b (glfA 0x048) (4 * j + 3)
def State.activeSlots (s : State) : List Nat := (List.range 4).filter s.slotValid
/-- State code of plane `p` (R257). -/
def State.planeState (s : State) (p : Nat) : Nat := s.f (glfA 0x04C) (4 * p + 2) (4 * p)

/-- The condition of a GLF_PLANE_CMD write (R258). -/
def State.planeCmdOk (s : State) (op p : Nat) : Bool :=
  let idle := !s.b (glfA 0x040) 8
  match op with
  | 1 => decide (s.planeState p = 0 ∧ s.activeSlots.length = 4) && idle
  | 2 => decide (s.planeState p = 1 ∨ s.planeState p = 2 ∨ s.planeState p = 4) && idle
  | 3 => decide (s.activeSlots.length < 4 ∧ s.planeState p = 1) && idle
  | _ => false

/-- Regions that exist (R486): state 5 marks those not in use. -/
def State.regionExists (s : State) (r : Nat) : Bool := decide (r < 128) && decide (s.region r ≠ 5)

/-- The condition of an SPR_CMD write (R503). -/
def State.sprCmdOk (s : State) (op r : Nat) : Bool :=
  match op with
  | 1 => s.regionExists r
  | 2 => s.regionExists r && decide (s.region r = 1 ∨ s.region r = 2)
  | 3 => s.b (sprA 0x050) 31 && decide (s.f (sprA 0x050) 30 28 = 1)
  | 4 => s.b (sprA 0x050) 31 && decide (s.f (sprA 0x050) 30 28 = 1)
  | 5 => decide (64 ≤ r) && s.regionExists r
  | _ => false

/-- A step of a base by a signed number of ns keeps its seconds at 0 or above (R335). -/
def State.stepOk (s : State) (b : Nat) : Bool :=
  let t := s.tb b
  decide (0 ≤ (t.sec : Int) * 1000000000 + (t.ns : Int) + toSigned 32 (s.rd (tsuA (0x094 + 64 * b))).toNat)

/-- The condition of a TSU_TB_CMD write (R335, R345). -/
def State.tbCmdOk (s : State) (b op : Nat) : Bool :=
  match op with
  | 1 => decide ((s.rd (tsuA (0x090 + 64 * b))).toNat < 1000000000)
  | 2 => s.stepOk b
  | _ => false

/-- Whether two runs of 2 MB units overlap. -/
def overlap (a n b m : Nat) : Bool := decide (0 < n ∧ 0 < m ∧ a < b + m ∧ b < a + n)

/-- Whether a slot of a stack is mapped, and onto which pseudo-channel (R307). -/
def State.pcValid (s : State) (t u : Nat) : Bool := s.b (hbcA t (0x080 + 4 * (u / 4))) (8 * (u % 4) + 7)
def State.pcPhys (s : State) (t u : Nat) : Nat := s.f (hbcA t (0x080 + 4 * (u / 4))) (8 * (u % 4) + 4) (8 * (u % 4))
def State.pcInService (s : State) (t pc : Nat) : Bool :=
  (List.range 32).any (fun u => s.pcValid t u && decide (s.pcPhys t u = pc))

/-- HBC_BANK_MASK[b] obeys R295. -/
def bankMaskOk (b : Nat) (w : Word) : Bool :=
  decide (fld w 13 8 = 2 ^ b) && decide (fld w 31 27 = 0)

/-- Whether any queue of front port `p` is enabled with no_pause (R324): descriptor byte 2 of R311 holds its flags. -/
def State.noPauseQueue (s : State) (p : Nat) : Bool :=
  (List.range 64).any (fun q =>
    let a := 0x2000000 + (p * 64 + q) * 64
    bitsOf (s.winLE a 1) 0 0 = 1 && bitsOf (s.winLE a 1) 2 2 = 1)

/-- Kind 0x5 conditions beyond a field's own range. `w` is the word the register would hold. -/
def State.regOk (s : State) (b : Blk) (i off : Nat) (r : RegReq) (w : Word) : Bool :=
  match b with
  | .clk =>
    if off = 0x048 then decide (fld w 9 0 ≤ fld w 25 16)
    else if off = 0x054 then decide (fld w 7 0 ≤ fld w 15 8 ∧ fld w 15 8 ≤ fld w 23 16)
    else if off = 0x07C then decide (fld w 9 0 ≤ s.f (clkA 0x044) 9 0)
    else true
  | .sds =>
    if 0x048 ≤ off ∧ off < 0x058 then
      let mode := s.f (sdsA i 0x040) 1 0
      let l := (off - 0x048) / 4
      (decide (fld w 6 4 = 0) || !(bit w 13 || bit w 14)) &&
      (!lowestLane mode l ||
        ((decide (mode = 0) || (decide (fld r.mask 6 4 = 0) || decide (fld w 6 4 = 3))) &&
          ((decide (fld r.mask 9 8 = 0) && decide (fld r.mask 6 4 = 0)) || fecAllowed mode (fld w 6 4) (fld w 9 8))))
    else true
  | .mac =>
    if off = 0x040 then s.carried i || decide (fld (r.val &&& r.mask) 1 0 = 0)
    else if off = 0x054 then !(bit w 0 && bit w 1) && !(bit w 2 && bit w 3)
    else if off = 0x06C then !(bit (r.val &&& r.mask) 1) || decide (s.portRate i = 0)
    else true
  | .tsu =>
    if 0x080 ≤ off ∧ off < 0x180 then
      let o := (off - 0x080) % 64
      if o = 0x04 then
        let z := toSigned 32 w.toNat
        decide (-17179869 ≤ z ∧ z ≤ 17179869)
      else if o = 0x18 then s.tbCmdOk ((off - 0x080) / 64) (fld w 1 0)
      else true
    else if 0x200 ≤ off ∧ off < 0x280 then
      let n := (off - 0x200) / 32
      let o := (off - 0x200) % 32
      if o = 0x04 then decide (1000000000 % fld w 29 0 = 0)
      else if o = 0x08 then decide (fld w 29 0 < s.f (tsuA (0x204 + 32 * n)) 29 0)
      else if o = 0x0C then decide (fld w 29 0 + 8 ≤ s.f (tsuA (0x204 + 32 * n)) 29 0)
      else true
    else if off = 0x280 then decide (fld w 5 0 ≠ 1)
    else true
  | .prs =>
    if off = 0x040 then decide (fld w 15 0 ≠ 0x8100 ∧ fld w 15 0 ≠ 0x8808) else true
  | .pip =>
    if off = 0x088 ∨ off = 0x08C then decide (fld w 5 0 + fld w 13 8 + fld w 21 16 + fld w 29 24 = 64)
    else if off = 0x080 then
      !(bit (r.val &&& r.mask) 0) || !(s.b (pipA 4 0x084) 0 || s.b (pipA 4 0x084) 3)
    else true
  | .glf =>
    if off = 0x050 then s.planeCmdOk (fld w 5 4) (fld w 2 0)
    else if off = 0x058 then decide (fld w 7 0 + fld w 22 16 ≤ 204)
    else if off = 0x044 then
      !(bit w 31) || s.b (glfA 0x044) 31 || (List.range 5).all (fun k => decide (s.f (glfA (0x068 + 4 * k)) 29 16 = 0))
    else true
  | .rsq => if off = 0x0A0 then !(bit (r.val &&& r.mask) 24 && s.b (rsqA i 0x0A0) 31) else true
  | .msc => if off = 0x048 then !(bit (r.val &&& r.mask) 24 && s.b (mscA i 0x048) 31) else true
  | .bpm =>
    if off = 0x044 then
      (!s.b (bpmA 0x044) 0 || bit w 0) &&
        (s.b (bpmA 0x044) 0 || !bit w 0 ||
          !overlap (s.f (bpmA 0x048) 13 0) (s.f (bpmA 0x04C) 13 0) (s.f (bpmA 0x050) 13 0) 512)
    else if off = 0x048 then decide (fld w 13 0 + s.f (bpmA 0x04C) 13 0 ≤ 16384)
    else if off = 0x04C then decide (s.f (bpmA 0x048) 13 0 + fld w 13 0 ≤ 16384)
    else if off = 0x050 then decide (fld w 13 0 % 512 = 0)
    else if 0x200 ≤ off ∧ off < 0x340 then
      decide (sumBy (fun j => if 0x200 + 4 * j = off then fld w 13 0 else s.f (bpmA (0x200 + 4 * j)) 13 0) (List.range 80)
        ≤ 16128)
    else true
  | .hbc =>
    if off = 0x044 then !s.b (hbcA i 0x044) 0 || bit w 0
    else if 0x048 ≤ off ∧ off < 0x060 then bankMaskOk ((off - 0x048) / 4) w
    else if off = 0x070 then s.b (hbcA i 0x06C) (fld w 4 0)
    else if off = 0x074 then !s.pcInService i (fld w 4 0) && !s.b (hbcA i 0x078) 31
    else true
  | .tgs =>
    if 0x100 ≤ off ∧ off < 0x300 ∧ (off - 0x100) % 32 = 0 then
      let p := (off - 0x100) / 32
      !(bit (r.val &&& r.mask) 8) || (bit w 0 && s.b (tgsA i (0x100 + 32 * p)) 0 && !s.b (tgsA i (0x118 + 32 * p)) 1)
    else true
  | .mir =>
    if off = 0x044 then !bit w 0 || decide (s.f (mirA 0x04C) 11 0 ≠ 0)
    else if off = 0x048 then decide (fld w 13 0 + s.f (mirA 0x04C) 11 0 ≤ 16384)
    else if off = 0x04C then decide (s.f (mirA 0x048) 13 0 + fld w 11 0 ≤ 16384)
    else true
  | .sta =>
    if off = 0x048 then !bit w 0 || (s.b (staA 0x044) 31 && s.b (staA 0x040) 2 && !s.b (staA 0x040) 0)
    else if off = 0x400 then !bit w 2 || decide (s.f (staA 0x40C) 6 0 ≠ 0)
    else if off = 0x408 then decide (fld w 13 0 + s.f (staA 0x40C) 6 0 ≤ 16384)
    else if off = 0x40C then decide (s.f (staA 0x408) 13 0 + fld w 6 0 ≤ 16384)
    else true
  | .tbl =>
    if 0x100 ≤ off ∧ off < 0x160 then
      decide (fld w 23 16 ≤ fld w 7 0 ∧ fld w 7 0 ≤ fld w 15 8 ∧ fld w 15 8 ≤ (if bit w 30 then 128 else 32))
    else true
  | .tmg =>
    if 0x400 ≤ off ∧ off < 0x600 then decide (fld w 15 0 ≤ fld w 31 16) else true
  | .sec =>
    if off = 0x044 then !s.b (secA 0x048) 31 && (decide (fld w 2 0 ≠ 2) || decide (1 ≤ fld w 13 12 ∧ fld w 13 12 ≤ 2))
    else if 0x0C4 ≤ off ∧ off < 0x100 then !bit w 1 || bit w 0
    else true
  | .spr =>
    if off = 0x04C then s.sprCmdOk (fld w 2 0) (fld w 14 8) else true
  | .pmu =>
    if off = 0x044 then
      let st := s.f (topA 0x048) 2 0
      match fld w 1 0 with
      | 1 => decide (st = 2) && s.pmu.wakeN
      | 2 => decide (st = 5)
      | 3 => decide (st = 4 ∨ st = 5)
      | _ => false
    else true
  | .top =>
    if off = 0x340 then decide (s.f (secA 0x040) 1 0 = 1) && s.b (secA 0x040) 8 && !s.b (topA 0x344) 31
    else true
  | .dbg =>
    if off = 0x04C then decide (s.f (dbgA 0x050) 9 0 < 828)
    else if off = 0x05C then s.b (dbgA 0x058) (fld w 2 0)
    else if 0x100 ≤ off ∧ off < 0x180 ∧ off % 16 = 0 then decide (fld w 30 24 ≤ 67 ∨ fld w 30 24 = 127)
    else if 0x180 ≤ off ∧ off < 0x1C0 ∧ off % 16 = 4 then decide (fld w 23 0 ≤ s.f (dbgA (off + 4)) 23 0)
    else if 0x180 ≤ off ∧ off < 0x1C0 ∧ off % 16 = 8 then decide (s.f (dbgA (off - 4)) 23 0 ≤ fld w 23 0)
    else true
  | _ => true

/-- Whether a write selects any bit of an RW-V field (R64, R202). -/
def writesRwv (d : RegD) (r : RegReq) : Bool := d.fields.any (fun f => decide (f.acc = .rwv) && touches r f)

/-- The domain that owns a register: a TGS port's owner, a requester's domain, an LPM bank's domain, else D0 (R180, R281, R363,
R426). -/
def State.regOwner (s : State) (b : Blk) (i off : Nat) : Nat :=
  match b with
  | .tgs => if 0x100 ≤ off ∧ off < 0x300 then s.f (tgsA i (0x300 + 4 * ((off - 0x100) / 32))) 3 0 else 0
  | .bpm => if 0x200 ≤ off ∧ off < 0x340 then (off - 0x200) / 4 % 16 else 0
  | .tbl => if 0x100 ≤ off ∧ off < 0x160 then s.f (tblA off) 27 24 else 0
  | _ => 0

/-- Kind 0x7: the fences on a register write for a principal. Tenants write nothing but the registers of R437 space 1;
an RW-V write needs the principal's own open set (R202); no host access reaches the device in Init or Load (R526) or
the DBG page at 0x040 and above (R550); on the wire, a locked port refuses a session while Sealed, a lockout an unlock, and
outside a session only DBG_SESS and DBG_RESP are written (R551, R553, R562). -/
def State.fenced (s : State) (p : Principal) (b : Blk) (i off : Nat) (d : RegD) (r : RegReq) : Bool :=
  let st := s.f (topA 0x048) 2 0
  let owner := s.regOwner b i off
  let rwv := writesRwv d r && !(s.b (topA 0x300) 12 && decide (s.f (topA 0x300) 19 16 = p.domain))
  let d0 := decide (owner ≠ 0) ||
    (decide (b = .tbl) && decide (0x100 ≤ off ∧ off < 0x160) && decide (fld (r.val &&& r.mask) 27 24 ≠ 0)) || (decide (b = .dbg) && decide (0x40 ≤ off)) ||
    (s.regionDown 59 && ((decide (b = .sec) && decide (off = 0x044)) || (decide (b = .top) && decide (off = 0x340)))) ||
    (decide (b = .mac) && decide (off = 0x054) && bit (r.val &&& r.mask) 0 && s.noPauseQueue i) ||
    (decide (b = .msc) && decide (0x060 ≤ off ∧ off < 0x070) && decide (fld r.mask 31 17 ≠ 0) &&
      decide (fld (s.rd (mscA i off)) 31 17 ≠ fld ((s.rd (mscA i off) &&& ~~~ r.mask) ||| (r.val &&& r.mask)) 31 17)) ||
    (decide (b = .msc) && decide (0x060 ≤ off ∧ off < 0x070) && s.b (mscA i off) 0 && bit r.mask 0 && !bit r.val 0 &&
      decide (fld (s.rd (mscA i off)) 31 17 ≠ 0)) ||
    (decide (b = .msc) && decide (0x100 ≤ off ∧ off < 0x200) && decide ((off - 0x100) / 4 % 16 ≠ 0))
  match p with
  | .host => decide (st = 0 ∨ st = 1) || d0 || rwv
  | .boot => d0 || rwv
  | .warden dm =>
    !((decide (b = .tgs) && decide (0x100 ≤ off ∧ off < 0x300) && decide (owner = dm)) ||
      (decide (b = .bpm) && decide (0x200 ≤ off ∧ off < 0x340) && decide (owner = dm)) ||
      (decide (b = .msc) && decide (0x100 ≤ off ∧ off < 0x200) && decide ((off - 0x100) / 4 % 16 = dm))) || rwv
  | .debug =>
    decide (b = .sec) || decide (b = .isl) || (decide (b = .top) && decide (off = 0x340)) ||
      (decide (b = .dbg) && decide (0x40 ≤ off)) || rwv
  | .wire =>
    let op := fld (r.val &&& r.mask) 1 0
    decide (b ≠ .dbg) || (decide (off ≠ 0x044 ∧ off ≠ 0x04C) && !s.b (dbgA 0x040) 1) ||
      (decide (off = 0x044 ∧ op = 1 ∧ s.f (secA 0x040) 1 0 = 2) && s.b (dbgA 0x040) 0) ||
      (decide (off = 0x044 ∧ op = 3) && s.b (dbgA 0x040) 2)

/-- The domain a refused host write counts against (R427): the tenant that owns the item or the bit; none otherwise. -/
def State.fenceDomain (s : State) (b : Blk) (i off : Nat) (r : RegReq) : Option Nat :=
  let owner := s.regOwner b i off
  if owner ≠ 0 then some owner
  else if b = .msc ∧ 0x060 ≤ off ∧ off < 0x070 then
    ((List.range 16).find? (fun d => decide (1 ≤ d) && bit r.mask (16 + d) &&
      decide (bit r.val (16 + d) ≠ s.b (mscA i off) (16 + d)))).orElse (fun _ =>
        if bit r.mask 0 && !bit r.val 0 then (List.range 16).find? (fun d => decide (1 ≤ d) && s.b (mscA i off) (16 + d)) else none)
  else if b = .msc ∧ 0x100 ≤ off ∧ off < 0x200 ∧ (off - 0x100) / 4 % 16 ≠ 0 then some ((off - 0x100) / 4 % 16)
  else none

/-- The kind of R60 that rejects a register write, 0 when it is accepted: the checks in kind order (R62). -/
def State.regCheck (s : State) (p : Principal) (full : Bool) (r : RegReq) : Nat :=
  match pageOf r.page with
  | none => 1
  | some (b, i) =>
    match regAt b i r.off with
    | none => 1
    | some d =>
      let old := s.rd r.addr
      let w := merged d old r
      if full = false then 2
      else if breaksReserved d w r then 3
      else if r.off ≥ 0x40 ∧ breaksStatic (s.blockOn b i r.off) d old w then 4
      else if breaksRange d w r ∨ (r.off ≥ 0x40 ∧ acts d r = true ∧ s.regOk b i r.off r w = false) then 5
      else if isPosted b r.off ∧ s.b (r.page * 0x1000 + 4) 31 ∧ p.isWarden = false then 6
      else if s.fenced p b i r.off d r then 7
      else 0

end Sys2Proof.Machine
end

