-- ==== Sys2Proof/Machine/Access.lean ====
section
/-! DEFINITION. Carrying out and refusing accesses: fields by class (R8), posted writes (R65), capture of rejected accesses
(R61), watchpoints (R557, R558). -/

namespace Sys2Proof.Machine

/-! ### Debug hits -/

/-- The mask of halted pipelines changes (R555); a frame in reception keeps that its port's pipeline was halted (R95). -/
def State.setHalt (s : State) (m : Nat) : State :=
  { s.setF (dbgA 0x058) 4 0 m with
    macs := s.macs.map (fun e =>
      if bitsOf m (s.pipeOf e.1) (s.pipeOf e.1) = 1 then (e.1, { e.2 with rx := e.2.rx.map (fun r => { r with halt := true }) }) else e) }

/-- Halt pipelines (R555): a mask of P0 to P4. -/
def State.haltPipes (s : State) (m : Nat) : State := s.setHalt (s.f (dbgA 0x058) 4 0 ||| m)

/-- A breakpoint, watchpoint or event hit (R558): `src` 0 to 7, 8 to 11, 12 to 15; the first since DBG_HIT was last zero is
captured. A hit whose pipelines are all halted already changes only DBG_HIT. -/
def State.dbgHit (s : State) (src pipe port halt : Nat) : State :=
  let first := decide (s.rd (dbgA 0x060) = 0)
  let already := decide (halt ≠ 0 ∧ s.f (dbgA 0x058) 4 0 &&& halt = halt)
  let s := s.setB (dbgA 0x060) src true
  if already then s
  else
    let s := if first then
        (s.wr (dbgA 0x064) (word (2 ^ 31 + pipe % 8 * 2 ^ 24 + port % 128 * 2 ^ 16 + src))).report 6 0 0x1803
      else s
    s.haltPipes halt

/-- A watchpoint or event hit names no pipeline and no port: those two fields of the capture are free values. -/
def State.dbgHitFree (s : State) (src halt : Nat) : State :=
  let (d, s) := s.draw
  s.dbgHit src (Config.freeValue d) (Config.freeValue d / 8) halt

/-- Watchpoints on a completed write (R557): `kind` 0 BAR0 offsets, 1 entry indices of DMA target `target`. -/
def State.watch (s : State) (kind target idx : Nat) : State :=
  forEach (List.range 4) s (fun s j =>
    let c := s.rd (dbgA (0x180 + 16 * j))
    if bit c 0 = true ∧ fld c 1 1 = kind ∧ (kind = 0 ∨ fld c 7 4 = target) ∧
        s.f (dbgA (0x184 + 16 * j)) 23 0 ≤ idx ∧ idx ≤ s.f (dbgA (0x188 + 16 * j)) 23 0
    then s.dbgHitFree (8 + j) (fld c 12 8) else s)

/-! ### Carrying a write out -/

/-- What a field's stored bits become under a write of its class (R8). -/
def fieldWrite (w : Word) (r : RegReq) (f : FieldD) : Word :=
  let m := maskOf f.hi f.lo &&& r.mask
  match f.acc with
  | .ro => w
  | .rh => w
  | .w1c => w &&& ~~~ (m &&& r.val)
  | .w1s => w ||| (m &&& r.val)
  | .wo => w
  | _ => (w &&& ~~~ m) ||| (m &&& r.val)

/-- The register word after an accepted write. -/
def writeWord (d : RegD) (old : Word) (r : RegReq) : Word := d.fields.foldl (fun w f => fieldWrite w r f) old

/-- The descriptor a request names; an unimplemented one has no fields. -/
def RegReq.desc (r : RegReq) : RegD :=
  match pageOf r.page with
  | none => ⟨"", 0, 0, 4, [], []⟩
  | some (b, i) => (regAt b i r.off).getD ⟨"", 0, 0, 4, [], []⟩

/-- Store an accepted write's fields; watchpoints see it after it has taken effect. -/
def State.storeReg (s : State) (r : RegReq) : State := s.wr r.addr (writeWord r.desc (s.rd r.addr) r)

/-! ### Rejected accesses -/

/-- Capture of a rejected access in its page (R59, R61): first only. -/
def State.pageErr (s : State) (page off : Nat) (write : Bool) (kind : Nat) : State :=
  match pageOf page with
  | none => s
  | some _ => s.capture (page * 0x1000 + 0x14) (b2n write * 2 ^ 30 + kind * 2 ^ 24 + off / 4 % 1024 * 4)

/-- A read completes with Completer Abort, and AER logs it (R61). -/
def State.completerAbort (s : State) : State :=
  { s with hif := { s.hif with fn := { s.hif.fn with abortLogged := true } } }.emit .completerAbort

/-- A host access is rejected under a kind (R61): HIF_ERR_CAP first only, HIF_ERR_CNT otherwise, the page's capture when
the access lies in an implemented page, and a refused fence counted against its domain (R427). -/
def State.reject (s : State) (bar2 : Bool) (addr : Nat) (data : Option Word) (kind : Nat) : State :=
  let cap := 2 ^ 31 + b2n data.isSome * 2 ^ 30 + b2n bar2 * 2 ^ 29 + kind * 2 ^ 24
  let d := (data.getD 0).toNat
  let s := if s.b (hifA 0x048) 31 then s.bumpF (hifA 0x054) 15 0
    else (((s.wr (hifA 0x048) (word cap)).wr (hifA 0x04C) (word (addr % 2 ^ 30))).wr (hifA 0x050) (word d)).report 1 0 0x0401
      cap (addr % 2 ^ 30) d
  let s := if bar2 then s else s.pageErr (addr / 0x1000) (addr % 0x1000) data.isSome kind
  if data.isNone then s.completerAbort else s

/-- Count a refused fence against a domain (R427). -/
def State.countFence (s : State) (d : Option Nat) : State :=
  match d with
  | none => s
  | some d => (s.bump (secA (0x100 + 4 * d))).bump (secA 0x07C)

/-- A host write to a register is rejected: capture, the overrun flag for kind 0x6 (R65), the fence count for kind 0x7. -/
def State.rejectReg (s : State) (addr : Nat) (data : Word) (r : RegReq) (kind : Nat) : State :=
  let s := s.reject false addr (some data) kind
  if kind = 6 then s.setB (r.page * 0x1000 + 4) 30 true
  else if kind = 7 then
    match pageOf r.page with
    | none => s
    | some (b, i) => s.countFence (s.fenceDomain b i r.off r)
  else s

/-- Whether a request from the host reaches the device: POR_N high, link up, not in the Lull state or D3hot (R52). -/
def State.hostOpen (s : State) : Bool := s.pmu.por && s.pmu.enCore && !s.pmu.lull && !s.hif.d3hot && s.hif.linkUp && !s.hif.perst

/-- Post a write to a far page (R65): it completes at FAR_WRITE_COMPLETE. -/
def State.postFar (s : State) (addr : Nat) (data : Word) (r : RegReq) : State :=
  let s := s.setB (r.page * 0x1000 + 4) 31 true
  { s with hif := { s.hif with far := s.hif.far.put {} r.page { off := r.off, mask := r.mask, data := r.val, addr, sent := data } } }

/-- A host register write of 32 bits with its effect: checked (R62), then rejected whole, posted (R65) or carried out. -/
def State.hostWriteWith (s : State) (addr : Nat) (data : Word) (full : Bool) (eff : RegReq → State → State) : State :=
  if s.hostOpen = false then s
  else
    let r := resolve addr data
    let k := s.regCheck .host full r
    if k ≠ 0 then s.rejectReg addr data r k
    else
      match pageOf r.page with
      | none => s
      | some (b, _) =>
        if isPosted b r.off then s.postFar addr data r
        else (eff r (s.storeReg r)).watch 0 0 r.addr

end Sys2Proof.Machine
end

