-- ==== Sys2Proof/Machine/Rings.lean ====
section
/-! DEFINITION. The host ring control array (R72, R73): its fields, the interrupt rule of R76 and R77, and the checks of a
write to an entry. -/

namespace Sys2Proof.Machine

/-- The BAR2 offset of ring control entry `i` (R72): receive rings 0 to 1,023, then transmit rings. -/
def ringA (i : Nat) : Nat := 0x1000000 + 32 * i

def State.ringBase (s : State) (i : Nat) : Nat := s.winLE (ringA i) 8
def State.ringLog2 (s : State) (i : Nat) : Nat := s.winLE (ringA i + 8) 1 % 32
def State.ringSize (s : State) (i : Nat) : Nat := 2 ^ s.ringLog2 i
def State.ringDomain (s : State) (i : Nat) : Nat := s.winLE (ringA i + 9) 1 % 16
def State.ringBuf (s : State) (i : Nat) : Nat := s.winLE (ringA i + 10) 2 % 512 * 64
def State.ringHead (s : State) (i : Nat) : Nat := s.winLE (ringA i + 12) 2
def State.ringTail (s : State) (i : Nat) : Nat := s.winLE (ringA i + 14) 2
def State.ringFlag (s : State) (i b : Nat) : Bool := decide (bitsOf (s.winLE (ringA i + 22) 1) b b = 1)
def State.setRingFlag (s : State) (i b : Nat) (v : Bool) : State :=
  s.winPut (ringA i + 22) 1 (setBit (word (s.winLE (ringA i + 22) 1)) b v).toNat

/-- A ring takes part in host DMA: its own en and HIF_DMA_CTL.en (R81, R83). -/
def State.ringOn (s : State) (i : Nat) : Bool := s.ringFlag i 0 && s.b (hifA 0x044) 0

/-- The ring holds no descriptor: head equals tail modulo its size (R73). -/
def State.ringEmpty (s : State) (i : Nat) : Bool :=
  decide (s.ringHead i % s.ringSize i = s.ringTail i % s.ringSize i)

/-- Descriptors handed over and not yet used. -/
def State.ringFree (s : State) (i : Nat) : Nat :=
  (s.ringTail i % s.ringSize i + s.ringSize i - s.ringHead i % s.ringSize i) % s.ringSize i

/-- The host address of the descriptor `n` past head. -/
def State.descAddr (s : State) (i n : Nat) : Nat := s.ringBase i + 32 * ((s.ringHead i + n) % s.ringSize i)

/-- Advance head past `n` descriptors. -/
def State.advHead (s : State) (i n : Nat) : State := s.winPut (ringA i + 12) 2 ((s.ringHead i + n) % s.ringSize i)

def State.ringX (s : State) (i : Nat) : RingX := s.hif.rings.at {} i
def State.setRingX (s : State) (i : Nat) (x : RingX) : State :=
  { s with hif := { s.hif with rings := s.hif.rings.put {} i x } }

/-- The condition of R76 on the unreported completions. DESIGN CHOICE: coal_cnt still 0, which no accepted write gives, counts
as 1; the spec gives it no meaning. -/
def State.ringDue (s : State) (i : Nat) : Bool :=
  let x := s.ringX i
  decide (0 < x.unrep) && (decide (max 1 (s.winLE (ringA i + 18) 2) ≤ x.unrep) || x.elapsed)

/-- irq_pend sets when irq_en is 1 and the condition of R76 is met; the completions so far become reported (R77). -/
def State.ringEval (s : State) (i : Nat) : State :=
  if s.ringFlag i 1 = true ∧ s.ringFlag i 5 = false ∧ s.ringDue i = true then
    (s.setRingFlag i 5 true).setRingX i {}
  else s

/-- `n` completions on a ring (R76, R77). -/
def State.ringComplete (s : State) (i n : Nat) : State :=
  let x := s.ringX i
  (s.setRingX i { x with unrep := x.unrep + n }).ringEval i

/-- Clear the enable of every ring: an FLR, D3hot or PERST_N (R52). A ring with en 1 has a listed byte 22. -/
def State.stopRings (s : State) : State :=
  forEach ((s.win.filter (fun e => decide (0x1000000 ≤ e.1 ∧ e.1 < 0x1010000 ∧ e.1 % 32 = 22))).map
    (fun e => (e.1 - 0x1000000) / 32)) s (fun s i => s.setRingFlag i 0 false)

/-! ### Writes to an entry (R72, R73) -/

/-- Reserved bits of an entry, as a number over its 32 bytes. -/
def ringReserved (bs : List Byte) : Bool :=
  decide (leAt bs 8 1 / 32 ≠ 0) || decide (leAt bs 9 1 / 16 ≠ 0) || decide (leAt bs 10 2 / 512 ≠ 0) ||
  decide (leAt bs 17 1 ≠ 0) || decide (leAt bs 22 1 / 64 ≠ 0) || decide (leAt bs 23 1 ≠ 0) || decide (leAt bs 28 4 ≠ 0)

/-- The kinds of R60 that refuse a write of an entry by a principal: `old` its bytes, `new` the bytes as written over
them, `[lo, hi)` the bytes the write touches. -/
def State.ringChecks (s : State) (p : Principal) (i : Nat) (new : List Byte) (lo hi : Nat) : List Nat :=
  let old := s.winRd (ringA i) 32
  let on := decide (leAt old 22 1 % 2 = 1)
  let hit := fun (a n : Nat) => decide (lo < a + n ∧ a < hi)
  let ch := fun (a n : Nat) => decide (leAt old a n ≠ leAt new a n)
  let fixed := ch 0 8 || ch 8 1 || ch 10 2
  let dom := leAt old 9 1 % 16
  let rsv := ringReserved new
  let stat := on && fixed
  let range :=
    (hit 0 8 && decide (leAt new 0 8 % 128 ≠ 0)) ||
    (hit 8 1 && !(decide (6 ≤ leAt new 8 1 % 32 ∧ leAt new 8 1 % 32 ≤ 16))) ||
    (decide (i < 1024) && hit 10 2 && !(decide (4 ≤ leAt new 10 2 % 512 ∧ leAt new 10 2 % 512 ≤ 256))) ||
    (hit 18 2 && !(decide (1 ≤ leAt new 18 2 ∧ leAt new 18 2 ≤ 1024))) ||
    (hit 20 2 && decide (1000 < leAt new 20 2))
  let fence :=
    match p with
    | .host => (decide (dom ≠ 0) && (hit 0 12)) || ch 9 1
    | .warden d => decide (dom ≠ d) || ch 9 1
    | .boot => (decide (dom ≠ 0) && (hit 0 12)) || ch 9 1
    | _ => false
  (if rsv then [3] else []) ++ (if stat then [4] else []) ++ (if range then [5] else []) ++ (if fence then [7] else [])

/-- The entry after an accepted write: head and drops keep their value, underrun and irq_pend are W1C. -/
def ringMerge (old new : List Byte) (lo hi : Nat) : List Byte :=
  let keep := putBytes (putBytes new 12 (slice old 12 2)) 24 (slice old 24 4)
  if lo ≤ 22 ∧ 22 < hi then
    let o := leAt old 22 1
    let n := leAt new 22 1
    let w1c := fun (b : Nat) => if bitsOf n b b = 1 then 0 else bitsOf o b b
    putBytes keep 22 [BitVec.ofNat 8 (n % 16 + 16 * w1c 4 + 32 * w1c 5)]
  else keep

end Sys2Proof.Machine
end

