-- ==== Sys2Proof/Machine/HostIf.lean ====
section
/-! DEFINITION. Commands of the host interface (chapter 3) beside register writes and frames: posted writes, stalls, the
aperture, interrupts, function and link resets, ring control. -/

namespace Sys2Proof.Machine

/-- The host reaches a BAR2 location with a row of its own: outside Init and Load (R526), else refused. -/
def State.hostWin (s : State) (off : Nat) (data : Word) (f : State → State) : State :=
  if s.hostOpen = false then s
  else if s.f (topA 0x048) 2 0 ≤ 1 then s.reject true off (some data) 7
  else f s

/-- R71: a write of a vector to HIF_IRQ_EOI resends its message when its level is 1 and it is unmasked. -/
def State.eoi (s : State) (v : Nat) : State :=
  if s.levels.contains v && !(s.msix v).masked then s.sendVector v else s

def execHifIrqEoi (v : Fin 256) (s : State) : Host.Outcome State Fault Refusal :=
  answer s (s.hostWriteWith (hifA 0x05C) (word v.val) true (fun _ s => s.eoi v.val))

/-- R70: a vector is unmasked in the MSI-X table; its message goes out when its level is 1. -/
def State.unmask (s : State) (v : Nat) : State :=
  let e := s.msix v
  if e.masked then
    let s := { s with hif := { s.hif with msix := s.hif.msix.put {} v { e with masked := false } } }
    if s.hif.levels.contains v then s.sendVector v else s
  else s

def execMsixVectorUnmask (v : Fin 256) (s : State) : Host.Outcome State Fault Refusal :=
  answer s (if s.hostOpen then s.unmask v.val else s)

/-- Host and table DMA stop and their enables clear (R52, R177, R524). -/
def State.stopHostDma (s : State) : State := s.stopRings.setB (tblA 0x04C) 0 false

/-- Put the words of a page from 0x000 to 0xFFF back to their reset values. -/
def State.resetPage (s : State) (page : Nat) : State :=
  { s with regs := s.regs.filter (fun e => decide (e.1 / 0x1000 ≠ page)),
           inForce := s.inForce.filter (fun e => decide (e.1 / 0x1000 ≠ page)) }

/-- R524: PERST_N low resets HIF and PCIe configuration space; at its release the link retrains (PCIE_LINK_UP). -/
def State.pcieReset (s : State) (low : Bool) : State :=
  if low then
    let s := (s.stopHostDma.resetPage 1).setB (topA 0x05C) 2 true
    let fn := { s.hif.fn with abortLogged := false }
    { s with hif := { s.hif with msix := [], levels := [], linkUp := false, d3hot := false, perst := true, fn } }
  else { s with hif := { s.hif with perst := false } }

def execPcieReset (low : Bool) (s : State) : Host.Outcome State Fault Refusal :=
  answer s (if s.pmu.por then s.pcieReset low else s)

/-- R83: a write of 1 to HIF_ERR_CAP.valid re-arms capture and clears HIF_ERR_CNT. -/
def execHifErrCapClear (s : State) : Host.Outcome State Fault Refusal :=
  answer s (s.hostWriteWith (hifA 0x048) (word (2 ^ 31)) true (fun _ s => s.wr (hifA 0x054) 0))

/-- R67: the posted write to a page is abandoned after 10 µs of busy, as if it never arrived. -/
def State.farTimeout (s : State) (page : Nat) : State :=
  if s.b (page * 0x1000 + 4) 31 then
    let w := s.hif.far.at {} page
    let s := { s with hif := { s.hif with far := s.hif.far.put {} page {} } }
    let s := s.setB (page * 0x1000 + 4) 31 false
    (s.reject false w.addr (some w.sent) 8).report 1 3 0x0403 page
  else s

def execFarWriteTimeout (page : Nat) (s : State) : Host.Outcome State Fault Refusal := answer s (s.farTimeout page)

/-- The BAR0 address of a stalling register (R68). -/
def stallAddr : StallReg → Nat
  | .topRstCmd => topA 0x058
  | .topSealCmd => topA 0x340
  | .tsuTbCmd b => tsuA (0x098 + 64 * b.val)
  | .secDoorbell => secA 0x044

/-- R68: the access has not crossed after 2 µs; it is rejected with kind 0x9. -/
def execStallLimitReached (reg : StallReg) (write : Bool) (data : Word) (s : State) : Host.Outcome State Fault Refusal :=
  answer s (if s.hostOpen then
    (s.reject false (stallAddr reg) (if write then some data else none) 9).report 1 4 0x0404 (stallAddr reg) else s)

/-! ### HBM requests (R294, R295, R297) -/

/-- Whether slot `u` of 64 is frozen. -/
def State.slotFrozen (s : State) (u : Nat) : Bool := s.b (hbcA (u / 32) 0x068) (u % 32)

/-- Bank-select of an address (R295): bit b is the parity of A[39:8] AND HBC_BANK_MASK[b]. -/
def State.hbmBank (s : State) (a : Nat) : Nat :=
  sumBy (fun b =>
    let x := a / 256 % 2 ^ 32 &&& (s.rd (hbcA (a / 8192 % 2) (0x048 + 4 * b))).toNat
    2 ^ b * ((List.range 32).foldl (fun p i => (p + bitsOf x i i) % 2) 0)) (List.range 6)
def hbmRow (a : Nat) : Nat := a / 2 ^ 22 % 8192
def hbmCol (a : Nat) : Nat := a / 32 % 8 + 8 * (a / 2 ^ 14 % 4)
def hbmSlot (a : Nat) : Nat := a / 256 % 64

def State.hbmQueue (s : State) (u : Nat) : List HbmReq := s.bpm.hbmQ.at [] u
def State.setHbmQueue (s : State) (u : Nat) (l : List HbmReq) : State :=
  { s with bpm := { s.bpm with hbmQ := s.bpm.hbmQ.put [] u l } }

/-- A command issued to slot `u`, newest first, the last four kept (R299): code, bank, row or column. -/
def State.hbmCmd (s : State) (u code bank x : Nat) : State :=
  let w := code * 2 ^ 28 + bank * 2 ^ 16 + x
  { s with bpm := { s.bpm with cmds := s.bpm.cmds.put [] u ((w :: s.bpm.cmds.at [] u).take 4) } }

/-- Issue a request: a bank whose open row is another is precharged, the row activated when it is not open, then the read or
write. -/
def State.hbmIssue (s : State) (u : Nat) (r : HbmReq) : State :=
  let b := s.hbmBank r.addr
  let k := u * 64 + b
  let row := hbmRow r.addr
  let now := s.bpm.openRow.at 0 k
  let s := if now ≠ 0 ∧ now ≠ row + 1 then s.hbmCmd u 4 b 0 else s
  let s := if now = row + 1 then s else s.hbmCmd u 1 b row
  let s := { s with bpm := { s.bpm with openRow := s.bpm.openRow.put 0 k (row + 1) } }
  s.hbmCmd u (if r.write then 3 else 2) b (hbmCol r.addr)

/-- A request to HBM joins the queue of its slot's pseudo-channel; past the 64 that the queue holds (R297) it waits for a
place. A frozen slot takes none (R299). -/
def State.hbmRequest (s : State) (a : Nat) (write : Bool) (old : List Byte) (by_ : HbmUser := .other) : State :=
  let u := hbmSlot a
  if s.slotFrozen u then s
  else s.setHbmQueue u (s.hbmQueue u ++ [{ addr := a, write, old, at_ := s.clk, by_ }])

/-- The requests for a run of HBM bytes, one to a granule. -/
def State.hbmRequests (s : State) (a n : Nat) (write : Bool) : State :=
  forEach (List.range (n / 256 + 2)) s (fun s g =>
    let lo := max a ((a / 256 + g) * 256)
    let hi := min (a + n) ((a / 256 + g + 1) * 256)
    if lo < hi then s.hbmRequest lo write (if write then s.hbmRd lo (hi - lo) else []) else s)

/-! ### The HBM aperture (R57) -/

/-- Whether an HBM byte lies in a slot that is frozen or unmapped (R57, R294, R299). -/
def State.hbmBad (s : State) (a : Nat) : Bool :=
  let u := a / 256 % 64
  s.b (hbcA (u / 32) 0x068) (u % 32) || !s.pcValid (u / 32) (u % 32)

/-- Whether any granule of a run of HBM bytes is frozen or unmapped. -/
def State.hbmBadRun (s : State) (a n : Nat) : Bool :=
  (List.range (n / 256 + 2)).any (fun g => decide ((a / 256 + g) * 256 < a + n) && s.hbmBad (a + 256 * g))

/-- Write HBM bytes, those of frozen or unmapped slots being lost (R299). -/
def State.hbmStore (s : State) (a : Nat) (bs : List Byte) : State :=
  if s.hbmBadRun a bs.length then
    forEach ((List.range bs.length).zip bs) s (fun s e => if s.hbmBad (a + e.1) then s else s.hbmWr (a + e.1) [e.2])
  else s.hbmWr a bs

/-- HBM bytes as an access from outside reads them: the layout of the free-store area is internal (R288), so what stands there
is a free value. -/
def State.hbmLook (s : State) (a n : Nat) : List Byte × State :=
  let base := s.f (bpmA 0x050) 13 0 * 0x200000
  if s.b (bpmA 0x044) 0 = false ∨ a + n ≤ base ∨ base + 2 ^ 30 ≤ a then (s.hbmRd a n, s)
  else
    let (d, t) := s.draw
    ((List.range n).map (fun i => if base ≤ a + i ∧ a + i < base + 2 ^ 30
      then BitVec.ofNat 8 (Config.freeValue d / 2 ^ (8 * i)) else (s.hbmRd (a + i) 1).headD 0), t)

/-- The kind that refuses an aperture access, 0 when none: size (R56), then R526, then R57. No allocation gives an HBM
region to a tenant, so R426 makes every region D0's and no fence applies. -/
def State.apertureKind (s : State) (off len : Nat) : Nat :=
  let a := s.f (hifA 0x058) 13 0 * 0x200000 + off
  if off % 4 ≠ 0 ∨ len % 4 ≠ 0 ∨ len < 4 ∨ 128 < len ∨ 0x20000000 < off + len then 2
  else if s.f (topA 0x048) 2 0 ≤ 1 then 7
  else if s.hbmBadRun a len then 0xB
  else 0

def State.aperture (s : State) (off len : Nat) (data : Option (List Byte)) : State :=
  if s.hostOpen = false then s
  else
    let a := s.f (hifA 0x058) 13 0 * 0x200000 + off
    let k := s.apertureKind off len
    if k ≠ 0 then s.reject true (0x20000000 + off) (data.map (fun bs => word (leAt bs 0 4))) k
    else
      match data with
      | none => ((s.hbmLook a len).2.hbmRequests a len false).emit (.completion (s.hbmLook a len).1)
      | some bs => (s.hbmRequests a len true).hbmWr a (slice bs 0 len)

def execApertureAccess (off len : Nat) (data : Option (List Byte)) (s : State) : Host.Outcome State Fault Refusal :=
  answer s (s.aperture off len data)

/-! ### Rings -/

/-- R73: a write of a ring's tail hands descriptors over to the device. -/
def execRingTailWrite (i : Fin 2048) (tail : BitVec 16) (s : State) : Host.Outcome State Fault Refusal :=
  answer s (s.hostWin (ringA i.val + 12) (word (tail.toNat * 0x10000)) (fun s => s.winPut (ringA i.val + 14) 2 tail.toNat))

/-- R81: a write that clears a ring's en. -/
def execRingDisable (i : Fin 2048) (s : State) : Host.Outcome State Fault Refusal :=
  answer s (s.hostWin (ringA i.val + 20) 0 (fun s => s.setRingFlag i.val 0 false))

/-- R77: a write of 1 to irq_pend; it sets again at once when the unreported completions already meet R76. -/
def execRingIrqPendClear (i : Fin 2048) (s : State) : Host.Outcome State Fault Refusal :=
  answer s (s.hostWin (ringA i.val + 20) (word 0x200000) (fun s => (s.setRingFlag i.val 5 false).ringEval i.val))

/-- R76: coal_us has passed since the first unreported completion. -/
def State.coalesced (s : State) (i : Nat) : State :=
  let x := s.ringX i
  if 0 < x.unrep ∧ s.winLE (ringA i + 20) 2 ≠ 0 then (s.setRingX i { x with elapsed := true }).ringEval i else s

def execRingCoalesceTimeout (i : Fin 2048) (s : State) : Host.Outcome State Fault Refusal := answer s (s.coalesced i.val)

/-- R83: clearing HIF_DMA_CTL.en acts as R81 on every ring. -/
def execHostDmaDisable (s : State) : Host.Outcome State Fault Refusal :=
  answer s (s.hostWriteWith (hifA 0x044) 0 true (fun _ s => s))

end Sys2Proof.Machine
end

