-- ==== Sys2Proof/Machine/Queues.lean ====
section
/-! DEFINITION. Queues and gate groups of a port (R309 to R316, R347 to R356): descriptors, the copies waiting, shaper buckets
and idle credit, gate lists and the gate states in force. -/

namespace Sys2Proof.Machine

/-! ### Queue descriptors (R310, R311) -/

def qA (q : Nat) : Nat := 0x2000000 + 64 * q
def State.qLE (s : State) (q off n : Nat) : Nat := s.winLE (qA q + off) n
def State.qOwner (s : State) (q : Nat) : Nat := s.qLE q 1 1 % 16
def State.qFlag (s : State) (q b : Nat) : Bool := decide (bitsOf (s.qLE q 0 1) b b = 1)
def State.qCells (s : State) (q : Nat) : Nat := s.qLE q 36 4
def State.setQCells (s : State) (q v : Nat) : State := s.winPut (qA q + 36) 4 v

/-- The copies on a queue, head first; key 8,192 + ring for copies toward a host ring (R309). -/
def State.onQueue (s : State) (q : Nat) : List Nat := s.tmg.queues.at [] q
def State.setQueue (s : State) (q : Nat) (l : List Nat) : State :=
  { s with tmg := { s.tmg with queues := s.tmg.queues.put [] q l } }

/-! ### Gate lists and gates in force -/

/-- A register of a front port's gate engine. -/
def tgsPortA (p o : Nat) : Nat := tgsA (p / 16) (0x100 + 32 * (p % 16) + o)
def State.gAct (s : State) (p : Nat) : GList := s.tgs.act.at {} p
def State.gPend (s : State) (p : Nat) : GList := s.tgs.pend.at {} p
def GList.live (g : GList) : Bool := decide (g.cycle ≠ 0)

/-- Now in a time base, in ns. -/
def State.nowNs (s : State) (b : Nat) : Nat := (s.tb b).sec * 1000000000 + (s.tb b).ns

/-- The entries in force in one cycle (R350): index, start and duration, states, op; entries of interval 0 are skipped, one
that begins at or past the cycle's end is not reached, the last reached holds to that end. -/
def segsFrom (cycle : Nat) : Nat → Nat → List (Nat × Nat × Nat) → List (Nat × Nat × Nat × Nat × Nat)
  | _, _, [] => []
  | i, at_, (n, st, op) :: rest =>
    if n = 0 then segsFrom cycle (i + 1) at_ rest
    else if cycle ≤ at_ then []
    else
      let more := segsFrom cycle (i + 1) (at_ + n) rest
      (i, at_, (if more.isEmpty then cycle - at_ else n), st, op) :: more

def GList.segs (g : GList) : List (Nat × Nat × Nat × Nat × Nat) := segsFrom g.cycle 0 0 g.entries

/-- The cycle a time lies in, and its offset there. -/
def GList.place (g : GList) (now : Nat) : Int × Nat :=
  let d : Int := (now : Int) - g.base
  (d / g.cycle, (d % g.cycle).toNat)

/-- The number of segments begun at an offset. -/
def GList.begun (g : GList) (x : Nat) : Nat := (g.segs.filter (fun e => decide (e.2.1 ≤ x))).length

/-- The hold state that the last op 1 or 2 of a run of segments sets. -/
def holdAfter (h : Bool) (es : List (Nat × Nat × Nat × Nat × Nat)) : Bool :=
  es.foldl (fun h e => if e.2.2.2.2 = 1 then true else if e.2.2.2.2 = 2 then false else h) h

/-- Where a list stands at a time: entry in force, its states, the hold state after every op passed since entry `old` of cycle
`seen`, and the cycle (R350, R356). -/
def GList.standing (l : GList) (now : Nat) (old : Int) (hold : Bool) : Option (Nat × Nat × Bool × Int) :=
  let (n, x) := l.place now
  let segs := l.segs
  let j := l.begun x
  let after := segs.filter (fun e => decide (old < (e.1 : Int)))
  let ops := if n = l.seen then after.filter (fun e => decide (e.2.1 ≤ x))
    else after ++ (if l.seen + 1 < n then segs else []) ++ segs.take j
  match (segs.take j).getLast? with
  | none => none
  | some (i, _, _, st, _) => some (i, st, holdAfter hold ops, n)

/-- Whether preemption is active on a port (R105). -/
def State.preemptActive (s : State) (p : Nat) : Bool := decide (p < 64) && s.b (macA p 0x068) 4
/-- Whether the frames of a gate group are express: MAC_PREEMPT_CTL.express in force since the last frame boundary (R111). -/
def State.expressGroup (s : State) (p g : Nat) : Bool :=
  decide (64 ≤ p) || !s.preemptActive p || bit (s.fw (macA p 0x064)) (16 + g)

/-- The pending list once its start time has come: it acts from that instant (R353). -/
def State.dueList (s : State) (p : Nat) : Option GList :=
  let g := s.gPend p
  if g.live ∧ g.start ≤ s.nowNs g.tb then some { g with seen := ((g.start : Int) - g.base) / g.cycle } else none

/-- The list that a port's gates follow; with the time base units lost they take TGS_ADMIN (R486). -/
def State.gateList (s : State) (p : Nat) : GList := if s.regionDown 61 then {} else (s.dueList p).getD (s.gAct p)

/-- Where that list stands now, by its time base; none when there is none. -/
def State.gateNow (s : State) (p : Nat) : Option (Nat × Nat × Bool × Int) :=
  let l := s.gateList p
  if l.live = false then none
  else
    let fresh := (s.dueList p).isSome
    l.standing (s.nowNs l.tb) (if fresh then -1 else (s.f (tgsPortA p 0x18) 26 16 : Int)) (!fresh && s.b (tgsPortA p 0x18) 2)

/-- Gate states in force at a front port, and its hold state. -/
def State.gateBits (s : State) (p : Nat) : Nat :=
  match s.gateNow p with
  | some (_, st, _, _) => st
  | none => s.f (tgsPortA p 0x14) 7 0
def State.gateHold (s : State) (p : Nat) : Bool :=
  match s.gateNow p with
  | some (_, _, h, _) => h
  | none => false

/-- Whether gate `g` of a port is open now. -/
def State.gateOpen (s : State) (p g : Nat) : Bool :=
  decide (64 ≤ p) || (decide (bitsOf (s.gateBits p) g g = 1) && !(s.gateHold p && !s.expressGroup p g))

/-! ### Gate groups and their shapers -/

def qid (p g i : Nat) : Nat := p * 64 + g * 8 + i
/-- The gate-group entry of group `g` of port `p` (R310, R312). -/
def gA (p g : Nat) : Nat := 0x2100000 + 32 * (8 * p + g)
/-- A signed 32-bit bucket of the queue window. -/
def State.bucket (s : State) (a : Nat) : Int := toSigned 32 (s.winLE a 4)
/-- A bucket takes a new value. The spec states none for a sum outside its 32 bits: it is then a free value. -/
def State.setBucket (s : State) (a : Nat) (z : Int) : State :=
  if -(2 ^ 31) ≤ z ∧ z < 2 ^ 31 then s.winPut a 4 (fromSigned 32 z)
  else { s.winPut a 4 (Config.freeValue s.fresh) with fresh := s.fresh + 1 }

/-- Shaper configurations in force: bytes 16 to 31 of a descriptor; bytes 0 to 19 of a group entry. -/
def State.qShape (s : State) (q : Nat) : List Byte := s.tmg.qShp.at [] q
def State.gShape (s : State) (k : Nat) : List Byte := s.tmg.gShp.at [] k

/-- The mode of a group's shaper in force. -/
def State.gMode (s : State) (p g : Nat) : Nat := leAt (s.gShape (8 * p + g)) 0 1 % 4

/-- Whether a copy of a group waits or is in transmission (R316). -/
def State.groupActive (s : State) (p g : Nat) : Bool :=
  (List.range 8).any (fun i => !(s.onQueue (qid p g i)).isEmpty) ||
  [s.tmg.tx, s.tmg.yielded].any (fun m => match m.find? (fun e => decide (e.1 = p)) with
    | some e => decide ((s.copy e.2.copy).queue.getD 0 / 8 % 8 = g)
    | none => false)

/-- R316: an open credit-based group of which nothing waits or is in transmission keeps no positive credit. -/
def State.idleCredit (s : State) (p g : Nat) : State :=
  if s.gMode p g = 2 ∧ s.gateOpen p g = true ∧ s.groupActive p g = false ∧ 0 < s.bucket (gA p g + 20) then s.setBucket (gA p g + 20) 0
  else s

end Sys2Proof.Machine
end

