-- ==== Sys2Proof/Machine/Repairs.lean ====
section
/-! DEFINITION. The repair queue of the spares manager (R491, R492) and the states of regions (R503). -/

namespace Sys2Proof.Machine

def sprPage : Nat := 8

/-- Set the state of region `r`. -/
def State.setRegion (s : State) (r v : Nat) : State := s.setF (sprA (0x080 + 4 * (r / 8))) (4 * (r % 8) + 3) (4 * (r % 8)) v

/-! ### The repair queue -/

/-- Show the head of the queue (R503): its state is 1 while it waits for approval. `st` is its state otherwise. -/
def State.showHead (s : State) (st : Nat) : State :=
  let s := s.setF (sprA 0x040) 4 0 s.spr.queue.length
  match s.spr.queue with
  | [] => (((s.wr (sprA 0x050) 0).wr (sprA 0x054) 0).setB (sprA 0x040) 8 false)
  | r :: _ =>
    let s := (s.wr (sprA 0x050) (word (2 ^ 31 + st * 2 ^ 28 + r.kind * 2 ^ 24 + r.region * 2 ^ 8))).wr (sprA 0x054) (word r.arg)
    s.setB (sprA 0x040) 8 (decide (st = 3))

/-- A request has come to the head: one under policy 1 waits for the host (R492). -/
def State.newHead (s : State) : State :=
  match s.spr.queue with
  | r :: _ =>
    if r.pol = 1 ∧ r.ok = false then
      ({ s with spr := { s.spr with askedAt := s.clk } }.showHead 1).report sprPage 2 0x2003
    else s.showHead 0
  | [] => s.showHead 0

/-- A request is denied, refused or has failed, with its reason (R492). -/
def State.refuseRepair (s : State) (reason : Nat) : State :=
  (s.bump (sprA 0x068)).report sprPage 4 0x2005 reason

/-- The head leaves the queue. -/
def State.popRepair (s : State) : State := { s with spr := { s.spr with queue := s.spr.queue.drop 1 } }.newHead

/-- Ask for a repair (R491, R492): a kind whose policy is 2 is only isolated; one already queued is not asked twice; one
that finds the queue full is refused. -/
def State.request (s : State) (kind region arg : Nat) : State :=
  let pol := s.f (sprA 0x048) (2 * kind + 1) (2 * kind)
  if pol = 2 then s
  else if s.spr.queue.any (fun r => decide (r.kind = kind ∧ r.region = region ∧ r.arg = arg)) then s
  else if 16 ≤ s.spr.queue.length then s.refuseRepair 6
  else
    let r : RepReq := { kind, region, arg, pol, limit := s.f (sprA 0x044) 31 16 }
    let s := { s with spr := { s.spr with queue := s.spr.queue ++ [r] } }
    if s.spr.queue.length = 1 then s.newHead else s.setF (sprA 0x040) 4 0 s.spr.queue.length

/-- A completed repair is counted and reported (R492). -/
def State.repaired (s : State) : State := (s.bump (sprA 0x064)).report sprPage 3 0x2004

end Sys2Proof.Machine
end

