-- ==== Sys2Proof/Machine/Capture.lean ====
section
/-! DEFINITION. Mirroring and the capture ring (chapter 16): candidates, staging, the ring, triggers and freezing. -/

namespace Sys2Proof.Machine

/-- Whether bit `i` is set in consecutive mask words from `a`. -/
def State.maskBit (s : State) (a i : Nat) : Bool := s.b (a + 4 * (i / 32)) (i % 32)

/-- A record is lost under reason 0x23 (R371): session and MIR counters, device word 0x23, and cause bit 2 with its
event unless the bit is still set (R380). -/
def State.capLost (s : State) (sess : Nat) : State :=
  let s := (s.bump (mirA (0x11C + 32 * sess))).bumpRise (mirA 0x084) mirPage 2 0x6003
  (s.cntAdd mirPage (0x9000 + 8 * 0x23) 1).pmc mirPage 7

/-- Whether the session's sampling passes its next candidate (R368), and the state after the draw. -/
def State.capSample (s : State) (sess : Nat) : Bool × State :=
  let n := s.f (mirA (0x118 + 32 * sess)) 23 0 + 1
  let seen := s.mir.seen.at 0 sess + 1
  let s := { s with mir := { s.mir with seen := s.mir.seen.put 0 sess seen } }
  if n = 1 then (true, s)
  else if s.b (mirA (0x100 + 32 * sess)) 3 then
    let (d, s) := s.draw
    (decide (Config.freeValue d % n = 0), s)
  else (decide (seen % n = 0), s)

/-- Bytes 0 to 23 and 28 to 191 of a record (R370); seq and crc are filled in when it is written. -/
def State.capBytes (s : State) (sess kind : Nat) (c : CapInfo) : List Byte :=
  let t := s.tb 0
  let data := c.bytes.take 160
  leBytes 4 t.ns ++ leBytes 6 t.sec ++
  leBytes 1 (t.epoch + 16 * sess) ++ leBytes 1 c.inPort ++ leBytes 1 (c.outPort.getD 127) ++ leBytes 1 c.reason ++
  leBytes 2 (c.queue.getD 0x1FFF) ++ leBytes 1 (c.domain + 16 * c.version) ++
  leBytes 1 (kind + 4 * b2n (decide (c.bytes.length < 160))) ++
  leBytes 2 (c.len.getD 0x3FFF) ++ leBytes 4 (crc32c (c.bytes.take 256)) ++ leBytes 8 0 ++
  data ++ List.replicate (160 - data.length) 0

/-- A candidate that a session's filters have passed: the domain fence (R369), sampling (R368), and its staging in a
capture queue of 16 records, or its loss while the ring is frozen or full or the queue is full (R371, R374, R377). A record that
would be a rule trigger is one that is ignored while the ring is frozen (R377). -/
def State.capCandidate (s : State) (sess kind j : Nat) (c : CapInfo) : State :=
  if s.regionDown 33 then s.capLost sess
  else if s.b (mirA 0x070) c.domain = false then s.bump (mirA 0x08C)
  else
    let (ok, s) := s.capSample sess
    if ok = false then s
    else
      let q := 96 * sess + j
      let held := s.mir.queues.at [] q
      let s := if s.b (mirA 0x040) 0 = true ∧ s.b (mirA (0x100 + 32 * sess)) 4 = true ∧ s.b (mirA 0x058) 5 = true then
          s.bump (mirA 0x090) else s
      if s.b (mirA 0x040) 0 = true ∨ s.b (mirA 0x040) 1 = true ∨ 16 ≤ held.length then s.capLost sess
      else
        let r : CapRec := { bytes := s.capBytes sess kind c, trig := s.b (mirA (0x100 + 32 * sess)) 4 }
        { s with mir := { s.mir with queues := s.mir.queues.put [] q (held ++ [r]) } }

/-- Offer a frame or copy to the sessions of a kind (R367): `m` is the port the port mask goes by, `j` the one that names the
capture queue (R371), `extra` is the kind's own filter. -/
def State.capOffer (s : State) (kind m j : Nat) (extra : Nat → Bool) (c : CapInfo) : State :=
  if s.b (mirA 0x044) 0 = false then s
  else
    forEach (List.range 8) s (fun s sess =>
      let ctl := s.rd (mirA (0x100 + 32 * sess))
      if bit ctl 0 = true ∧ fld ctl 2 1 = kind ∧ extra sess = true ∧
          s.maskBit (mirA (0x104 + 32 * sess)) m = true ∧ bit ctl (16 + c.domain) = true
      then s.capCandidate sess kind j c else s)

/-- A frame or copy dropped under reason `r`, counting at port `p`, offered to the drop-reason sessions. -/
def State.capDrop (s : State) (p : Nat) (c : CapInfo) : State :=
  s.capOffer 3 p p (fun sess => s.maskBit (mirA (0x110 + 32 * sess)) c.reason) c

/-- The ring freezes (R376). -/
def State.capFreeze (s : State) : State :=
  let s := { s with mir := { s.mir with post := none } }
  ((s.setB (mirA 0x040) 0 true).setB (mirA 0x040) 2 false).report mirPage 1 0x6002

/-- A trigger whose source is enabled (R376, R377): it fires while armed, and is counted as ignored while post-trigger
records are being written or the ring is frozen. -/
def State.capTrigger (s : State) : State :=
  if s.mir.post.isSome ∨ s.b (mirA 0x040) 0 = true then s.bump (mirA 0x090)
  else if s.b (mirA 0x058) 0 = false then s
  else
    let t := s.tb 0
    let s := ((s.wr (mirA 0x064) (s.rd (mirA 0x050))).wr (mirA 0x068) (word t.ns)).wr (mirA 0x06C) (word t.sec)
    let s := (s.setB (mirA 0x058) 0 false).report mirPage 0 0x6001
    let post := s.f (mirA 0x05C) 23 0
    if post = 0 then s.capFreeze
    else { s.setB (mirA 0x040) 2 true with mir := { s.mir with post := some post } }

/-- The HBM byte address of ring index `i` (R372): each 16 KB line holds 80 records in the granules of slots 0 to 29 and
32 to 61, which are 256 bytes each (R294). -/
def State.capAddr (s : State) (i : Nat) : Nat :=
  let line := i / 80
  let b := i % 80 * 192
  let g := b / 256
  s.f (mirA 0x048) 13 0 * 0x200000 + line * 0x4000 + (if g < 30 then g else g + 2) * 256 + b % 256

/-- The bytes of a record placed granule by granule from ring index `i` (a record may cross a granule edge). -/
def State.capPlace (s : State) (i : Nat) : List (Nat × Nat) :=
  let b := i % 80 * 192
  let base := s.f (mirA 0x048) 13 0 * 0x200000 + i / 80 * 0x4000
  (List.range 192).map (fun n =>
    let g := (b + n) / 256
    (n, base + (if g < 30 then g else g + 2) * 256 + (b + n) % 256))

end Sys2Proof.Machine
end

