-- ==== Sys2Proof/Machine/Staging.lean ====
section
/-! DEFINITION. Ingress staging (R231, R239 to R241): a frame's cells, their release, and how a frame is dropped before the
fabric has taken it or after some of its cells have left. -/

namespace Sys2Proof.Machine

/-- Cells of a frame of `n` bytes (R231). -/
def cellsOf (n : Nat) : Nat := (n + 255) / 256

/-- Domains flagged protected (R28). -/
def State.protectedDom (s : State) (d : Nat) : Bool := s.b (secA (0x0C0 + 4 * d)) 1

/-- Cells held by staging k (GLF_STAGE_OCC[k].held). -/
def State.stageHeld (s : State) (k : Nat) : Nat := s.f (glfA (0x068 + 4 * k)) 13 0
def State.stageAdd (s : State) (k n : Nat) : State :=
  (s.setF (glfA (0x068 + 4 * k)) 13 0 (s.stageHeld k + n)).led 15 4 k 0 n
/-- Cells leave staging k: `term` 1 by acknowledgement, 2 by release under R240 or a region fault. -/
def State.stageSub (s : State) (k n term : Nat) : State :=
  (s.setF (glfA (0x068 + 4 * k)) 13 0 (s.stageHeld k - n)).led 15 4 k term n

/-- Append received bytes to a staged frame: new cells are counted as they begin. -/
def State.stageBytes (s : State) (fid : Nat) (bs : List Byte) : State :=
  let f := s.frame fid
  let n := cellsOf (f.bytes.length + bs.length) - cellsOf f.bytes.length
  (s.setFrame { f with bytes := f.bytes ++ bs, stg := f.stg + n }).stageAdd f.grp n

/-- Whether `n` more bytes of a frame fit in staging k (8,192 cells, R239). -/
def State.stageFits (s : State) (k have_ n : Nat) : Bool :=
  decide (s.stageHeld k + (cellsOf (have_ + n) - cellsOf have_) ≤ 8192)

/-- Whether anything still refers to a frame's bytes. -/
def State.frameUsed (s : State) (fid : Nat) : Bool :=
  s.glf.unacked.any (fun c => decide (c.fid = fid)) || s.glf.flights.any (fun c => !c.front && decide (c.fid = fid)) ||
  s.rsq.held.any (fun c => decide (c.fid = fid)) || s.eframes.any (fun c => decide (c.fid = fid)) ||
  s.copies.any (fun c => decide (c.2.fid = fid)) || !(s.frame fid).late.isEmpty ||
  s.macs.any (fun m => match m.2.rx with | some r => decide (r.fid = some fid) | none => false)

/-- Forget a frame that has left the device and to which nothing refers. -/
def State.gcFrame (s : State) (fid : Nat) : State :=
  if ((s.frame fid).place = .gone ∨ (s.frame fid).place = .sent) ∧ s.frameUsed fid = false then s.dropFrameRec fid else s

/-- Take a frame out of every send queue. -/
def State.unqueue (s : State) (fid : Nat) : State :=
  { s with glf := { s.glf with queues :=
      (s.glf.queues.map (fun e => (e.1, e.2.filter (fun i => decide (i ≠ fid))))).filter (fun e => !e.2.isEmpty) } }

/-- Release every cell a frame still holds in staging without having been sent (R240). -/
def State.releaseStage (s : State) (fid : Nat) : State :=
  let f := s.frame fid
  ((s.setFrame { f with stg := 0 }).stageSub f.grp f.stg 2)

/-- Whether R143 has resolved where a frame goes. -/
def Frame.settled (f : Frame) : Bool :=
  match f.place with
  | .police => true
  | .queued _ => true
  | .sending _ => true
  | .sent => true
  | _ => false

/-- What a capture record says of a frame on the ingress side; port and queue are known once R143 has resolved a unicast
destination, the port of a punt once it is one. -/
def Frame.info (f : Frame) (r : Nat) : CapInfo :=
  let one := f.settled && decide (f.mdGet 8 = 1)
  { inPort := f.src, reason := r, domain := f.domain, version := f.version,
    outPort := if one then some (f.mdGet 9) else if f.settled && decide (f.mdGet 8 = 3) then some 64 else none,
    queue := if one && decide (f.mdGet 9 ≠ 64) then some f.queueId else none,
    len := if f.complete then some f.wireLen else none, bytes := f.bytes }

/-- A frame or copy past admission leaves without delivery: accounts 2 and 3, drain counter. -/
def State.leave (s : State) (page v r : Nat) : State := (s.ledFrame page v (if r = 0x10 then 3 else 2)).drainSub v

/-- A frame fails after some of its cells have left staging (R240): what is unsent is released but for one cell, which will
carry the verdict; with no data left, a header-only cell is made for it. -/
def State.setVerdict (s : State) (fid r : Nat) : State :=
  let f := s.frame fid
  let left := cellsOf f.bytes.length - f.sentN
  let s := if left = 0 then s.stageAdd f.grp 1 else s.stageSub f.grp (left - 1) 2
  let f := if left = 0 then { f with stg := f.stg + 1 }
    else { f with stg := f.stg - (left - 1), bytes := f.bytes.take (256 * (f.sentN + 1)) }
  s.setFrame { f with verdict := r }

/-- The frame fails under reason `r`, decided by the block of a page (R12): it counts once at a port (R26: its ingress port) and is
offered to the drop sessions. While none of its cells has left staging, all are released and it ends (R240); otherwise
its last cell will carry the verdict, and its shares end at egress (R97). -/
def State.dropFrameAt (s : State) (page port fid r : Nat) : State :=
  let f := s.frame fid
  let s := (s.countDrop page port r).capDrop port (f.info r)
  if 0 < f.sentN then s.setVerdict fid r
  else
    let s := if f.admitted then s.leave page f.version r else s.led page 1 f.inPort 2
    let s := (s.releaseStage fid).unqueue fid
    (s.setFrame { s.frame fid with place := .gone }).gcFrame fid

/-- A frame is dropped at its ingress port. -/
def State.dropFrame (s : State) (page fid r : Nat) : State := s.dropFrameAt page (s.frame fid).src fid r

end Sys2Proof.Machine
end

