-- ==== Sys2Proof/Machine/Cells.lean ====
section
/-! DEFINITION. Buffer cells (R278 to R292): handles, descriptors, allocation, freeing, release of copies and orphan sweeps. -/

namespace Sys2Proof.Machine

/-! ### Handles and pools (R278, R279) -/

/-- A handle as a number: pool in [31:29], index in [25:0]. -/
def handle (pool i : Nat) : Nat := pool * 2 ^ 29 + i
def handlePool (h : Nat) : Nat := h / 2 ^ 29
def handleIdx (h : Nat) : Nat := h % 2 ^ 26
/-- The null handle (R279). -/
def nullHandle : Nat := 0xE0000000

/-- The logical slot, 0 to 63, of an HBM cell (R296). -/
def cellSlot (h : Nat) : Nat := (handlePool h - 5) * 32 + handleIdx h % 30

/-- Whether a handle's cell lies in a frozen slot. -/
def State.cellFrozen (s : State) (h : Nat) : Bool := decide (5 ≤ handlePool h) && s.slotFrozen (cellSlot h)

/-- Whether a handle's cell lies in a slot that is frozen, or that a kind 7 repair is emptying (R497). -/
def State.cellOut (s : State) (h : Nat) : Bool :=
  decide (5 ≤ handlePool h) && (s.slotFrozen (cellSlot h) || s.bpm.retiring.contains (cellSlot h))

/-- The byte address of an HBM cell's data and of its descriptor (R296). -/
def State.cellAddr (s : State) (h : Nat) : Nat :=
  let j := handleIdx h / 30
  s.f (bpmA 0x048) 13 0 * 0x200000 + (17 * (j / 16) + 1 + j % 16) * 0x4000 + cellSlot h * 256
def State.descAddrHbm (s : State) (h : Nat) : Nat :=
  let j := handleIdx h / 30
  s.f (bpmA 0x048) 13 0 * 0x200000 + 17 * (j / 16) * 0x4000 + cellSlot h * 256 + 16 * (j % 16)

/-- The on-chip address of a cell's data. -/
def sramAddr (h : Nat) : Nat := (handlePool h * 16384 + handleIdx h) * 256

def State.poolSize (s : State) (p : Nat) : Nat := s.f (bpmA (0x080 + 4 * p)) 25 0
def State.poolFree (s : State) (p : Nat) : Nat := s.f (bpmA (0x0A0 + 4 * p)) 25 0
def State.poolAlloc (s : State) (p : Nat) : Nat := s.f (bpmA (0x0C0 + 4 * p)) 25 0
def State.setPoolSize (s : State) (p v : Nat) : State := s.setF (bpmA (0x080 + 4 * p)) 25 0 v
def State.setPoolFree (s : State) (p v : Nat) : State := s.setF (bpmA (0x0A0 + 4 * p)) 25 0 v
def State.setPoolAlloc (s : State) (p v : Nat) : State := s.setF (bpmA (0x0C0 + 4 * p)) 25 0 v
def State.pool (s : State) (p : Nat) : Pool := s.bpm.pools.at {} p
def State.setPool (s : State) (p : Nat) (x : Pool) : State :=
  { s with bpm := { s.bpm with pools := s.bpm.pools.put {} p x } }

/-- The invariant of R289, checked after every change: a failure is captured first-only, reported, and told to the next
ledger audit. -/
def State.checkPool (s : State) (p : Nat) : State :=
  let have_ := s.poolFree p + s.poolAlloc p
  let size := s.poolSize p
  if have_ = size then s
  else
    let s := { s with sta := { s.sta with bpmFail := s.sta.bpmFail.put 0 p ((have_ : Int) - size) } }
    if s.b (bpmA 0x100) 31 then s
    else
      let w := 2 ^ 31 + p * 2 ^ 28 + b2n (decide (have_ < size)) * 2 ^ 27 + min (have_ - size + (size - have_)) (2 ^ 26 - 1)
      (s.wr (bpmA 0x100) (word w)).report 14 0 0x3801

/-! ### Descriptors (R280) -/

def State.cell (s : State) (h : Nat) : CellD := s.bpm.cells.at {} h

/-- The 16 bytes of a descriptor. -/
def descBytes (d : CellD) : List Byte :=
  let b := leBytes 4 (d.next.getD nullHandle) ++ leBytes 4 (d.twinNext.getD nullHandle) ++
    leBytes 2 (d.gen + 4096 * b2n d.head + 8192 * b2n d.tail1 + 16384 * b2n d.last + 32768 * b2n d.dual) ++
    leBytes 2 d.share ++ leBytes 1 (d.len - 1) ++ leBytes 1 (d.domain + 16 * b2n d.alloc)
  b ++ leBytes 2 (crc16 b)

/-- Put a descriptor: an HBM cell's also stands in HBM, in the same slot as its data (R280). -/
def State.setCell (s : State) (h : Nat) (d : CellD) : State :=
  let s := { s with bpm := { s.bpm with cells := s.bpm.cells.put {} h d } }
  if 5 ≤ handlePool h ∧ s.cellFrozen h = false then
    let a := s.descAddrHbm h
    (s.hbmRequest a true (s.hbmRd a 16)).hbmWr a (descBytes d)
  else s

/-- Put a descriptor, and its twin's with the links exchanged (R280). -/
def State.setPair (s : State) (h : Nat) (d : CellD) : State :=
  let s := s.setCell h d
  match d.twin with
  | some t => s.setCell t { d with next := d.twinNext, twinNext := d.next, twin := none }
  | none => s

/-- Whether a descriptor reads whole: an on-chip one always, an HBM one when its slot is not frozen and its bytes stand
(R292). -/
def State.descOk (s : State) (h : Nat) : Bool :=
  decide (handlePool h < 5) || (!s.cellFrozen h && decide (s.hbmRd (s.descAddrHbm h) 16 = descBytes (s.cell h)))

/-- Store a cell's data. -/
def State.storeCell (s : State) (h : Nat) (bs : List Byte) : State :=
  if handlePool h < 5 then { s with sram := writeBytes s.sram (sramAddr h) bs }
  else
    let a := s.cellAddr h
    (s.hbmRequest a true (s.hbmRd a bs.length)).hbmStore a bs

/-- A cell's data as it stands in memory. -/
def State.cellBytes (s : State) (h : Nat) : List Byte :=
  let n := (s.cell h).len
  if handlePool h < 5 then readBytes s.sram (sramAddr h) n else s.hbmRd (s.cellAddr h) n

/-- Whether the check word of an HBM cell is lost with a frozen slot (R382). -/
def State.checkLost (s : State) (h : Nat) : Bool :=
  decide (5 ≤ handlePool h) && (s.rd (hbcA 0 0x068) != 0 || s.rd (hbcA 1 0x068) != 0) &&
    s.slotFrozen (32 * (Config.checkSlot h).1.val + (Config.checkSlot h).2.val)

/-- The readable image of a cell: its own, or its twin's; none when both are lost (R300). A cell whose check word is lost is
treated alike (R382). -/
def State.readable (s : State) (h : Nat) : Option Nat :=
  let lost := fun (x : Nat) => s.cellFrozen x || s.checkLost x
  if lost h = false then some h
  else match (s.cell h).twin with
    | some t => if lost t then none else some t
    | none => none

/-- A cell is read for a copy from its twin, its descriptor or its data: counted once for the copy (R292, R300). -/
def State.countTwin (s : State) (cid h : Nat) : State :=
  let c := s.copy cid
  if c.twins.contains h then s else (s.bump (bpmA 0x11C)).setCopy { c with twins := c.twins ++ [h] }

/-- The read of a cell's data for a copy is asked of HBM. -/
def State.readImage (s : State) (cid h : Nat) : State :=
  if handlePool h < 5 then s
  else match s.readable h with
    | none => s
    | some g => (if g = h then s else s.countTwin cid h).hbmRequest (s.cellAddr g) false [] (.copy cid h)

/-- Whether a read for a copy is still waiting for its pseudo-channel. -/
def State.reading (s : State) (cid : Nat) : Bool :=
  s.bpm.hbmQ.any (fun q => q.2.any (fun r => match r.by_ with | .copy c _ => decide (c = cid) | _ => false))

/-! ### Requester use (R281, R282) -/

def State.inResv (s : State) (i e : Nat) : Nat := s.bpm.inResv.at 0 (i * 5 + e)
def State.inShr (s : State) (i e : Nat) : Nat := s.bpm.inShr.at 0 (i * 5 + e)
def State.addResv (s : State) (i e : Nat) (z : Int) : State :=
  { s with bpm := { s.bpm with inResv := s.bpm.inResv.upd 0 (i * 5 + e) (fun x => ((x : Int) + z).toNat) } }
def State.addShr (s : State) (i e : Nat) (z : Int) : State :=
  { s with bpm := { s.bpm with inShr := s.bpm.inShr.upd 0 (i * 5 + e) (fun x => ((x : Int) + z).toNat) } }

/-! ### Allocation -/

/-- Retire a free handle of a frozen slot (R299). -/
def State.retireFree (s : State) (p : Nat) : State :=
  (((s.setPoolSize p (s.poolSize p - 1)).setPoolFree p (s.poolFree p - 1)).bump (bpmA 0x12C)).checkPool p

/-- Keep a retired handle, to be restored when its slot comes back (R301). -/
def State.keepRetired (s : State) (h : Nat) : State := { s with bpm := { s.bpm with retired := s.bpm.retired ++ [h] } }

/-- Whether a ring entry reads from neither of its two addresses, which lie in different stacks (R288); where they lie is
internal. -/
def State.ringLost (s : State) (h : Nat) : Bool :=
  s.rd (hbcA 0 0x068) != 0 && s.rd (hbcA 1 0x068) != 0 &&
    s.slotFrozen (Config.ringSlots h).1.val && s.slotFrozen (32 + (Config.ringSlots h).2.val)

/-- `n` handles at positions from `at_` of a pool's hand-out order are moved, out of the ring into the cache or back; those of
slots that are frozen or being emptied are retired as they leave (R299), and those whose ring entries do not read stay out
until a sweep rebuilds them (R293). -/
def State.moveHandles (s : State) (p at_ n : Nat) (toCache : Bool) : State :=
  let x := s.pool p
  let more := at_ + n - x.back.length
  let back := x.back ++ (List.range more).map (fun i => x.fresh + i)
  let seg := (back.drop at_).take n
  let bad := if toCache then seg.filter (fun i => s.ringLost (handle p i)) else []
  let out := seg.filter (fun i => s.cellOut (handle p i) && !bad.contains i)
  let back := back.filter (fun i => !out.contains i && !bad.contains i)
  let cache := if toCache then x.cache + (n - out.length - bad.length) else x.cache - n
  let s := s.setPool p { x with back, fresh := x.fresh + more, cache, bad := x.bad ++ bad }
  forEach out s (fun s i => (s.retireFree p).keepRetired (handle p i))

/-- R288: below 1,024 handles the cache takes up to 1,024 from the ring; above 3,072 it gives 1,024 back. -/
def State.moveFree (s : State) (p : Nat) : State :=
  let x := s.pool p
  if x.cache < 1024 then s.moveHandles p x.cache (min 1024 (s.poolFree p - x.cache - x.bad.length)) true
  else if 3072 < x.cache then s.moveHandles p (x.cache - 1024) 1024 false
  else s

/-- The fault reserve a pool is given (R278). -/
def State.resOf (s : State) (p : Nat) : Nat := if p < 5 then 256 else s.spr.cfgPool.at 0 p / 64

/-- The reserve below which an allocation does not take a pool (R290); one that SPR has released counts as released for
protected domains alone (R500). -/
def State.heldBack (s : State) (p : Nat) (prot : Bool) : Nat :=
  if s.b (sprA 0x0C8) (16 + p) && !prot then s.resOf p else s.f (bpmA (0x0E0 + 4 * p)) 25 0

/-- Take the next handle of a pool's cache, which is filled from the ring when it is empty (R288): returned handles oldest
first, then indexes never handed out; handles of frozen slots are retired on the way. None while the pool's free cells are
down to `floor`. -/
def State.takeHandle (p floor : Nat) : Nat → State → Option Nat × State
  | 0, s => (none, s)
  | n + 1, s =>
    let s := if (s.pool p).cache = 0 then s.moveFree p else s
    let x := s.pool p
    if s.poolFree p ≤ floor ∨ x.cache = 0 then (none, s)
    else
      let i := x.back.headD x.fresh
      let s := s.setPool p { x with back := x.back.drop 1, fresh := if x.back.isEmpty then x.fresh + 1 else x.fresh,
                                    cache := x.cache - 1 }
      if s.cellOut (handle p i) then takeHandle p floor n ((s.retireFree p).keepRetired (handle p i)) else (some (handle p i), s)

/-- Allocate a cell of a pool with a descriptor; its generation is the one its last freeing left. -/
def State.allocCell (s : State) (p : Nat) (d : CellD) : Option Nat × State :=
  match State.takeHandle p (s.heldBack p (s.protectedDom d.domain)) ((s.pool p).back.length + 64) s with
  | (none, s) => (none, s)
  | (some h, s) =>
    let s := s.setCell h { d with alloc := true, gen := (s.cell h).gen, since := s.clk }
    let s := (s.setPoolFree p (s.poolFree p - 1)).setPoolAlloc p (s.poolAlloc p + 1)
    let s := (s.led 14 7 p 0).pmc 14 4
    (some h, (if 5 ≤ p then s.pmc 14 7 else s).checkPool p)

/-- Whether slot `u` holds an allocated cell. -/
def State.slotBusy (s : State) (u : Nat) : Bool :=
  s.bpm.cells.any (fun e => e.2.alloc && decide (5 ≤ handlePool e.1) && decide (cellSlot e.1 = u))

/-- A frozen slot none of whose cells is allocated is drained (R301) and asks for a spare (R497). -/
def State.slotDrained (s : State) (u : Nat) : State :=
  let a := hbcA (u / 32) 0x06C
  if s.slotFrozen u = true ∧ s.slotBusy u = false ∧ s.b a (u % 32) = false then
    ((s.setB a (u % 32) true).report (hbcPage (u / 32)) 2 0x6403).request 2 (64 + u) u
  else s

/-- Free one handle: back to its pool, or retired when its slot is frozen (R286, R299). -/
def State.freeHandle (s : State) (h : Nat) : State :=
  let d := s.cell h
  let p := handlePool h
  let s := s.setCell h { gen := (d.gen + 1) % 4096 }
  let s := s.setPoolAlloc p (s.poolAlloc p - 1)
  if s.cellOut h then
    ((((s.keepRetired h).setPoolSize p (s.poolSize p - 1)).bump (bpmA 0x12C)).led 14 7 p 2).checkPool p |>.slotDrained (cellSlot h)
  else
    let x := s.pool p
    (((s.setPool p { x with back := x.back ++ [handleIdx h], cache := x.cache + 1 }).setPoolFree p (s.poolFree p + 1)).led 14 7 p 1).checkPool p

/-! ### Flow-control counts (R325) -/

/-- The pause or PFC request of a port: quanta per priority (R104, R325). `prios` are the asserted priorities. -/
def State.fcRequest (s : State) (p : Nat) (prios quanta : Nat) : State :=
  let e := p / 16
  let i := p % 16
  let mode := s.f (tmgA e (0x200 + 4 * i)) 1 0
  let s := s.bump (tmgA e 0x058)
  let ctl := s.rd (macA p 0x054)
  if (mode = 1 ∧ bit ctl 2 = true) ∨ (mode = 2 ∧ bit ctl 3 = true) then
    let sa := beBytes 2 (s.f (macA p 0x05C) 15 0) ++ beBytes 4 (s.rd (macA p 0x058)).toNat
    let hdr := beBytes 6 0x0180C2000001 ++ sa ++ beBytes 2 0x8808
    let body := if mode = 1 then beBytes 2 1 ++ beBytes 2 quanta
      else beBytes 2 0x0101 ++ beBytes 2 prios ++
        (List.range 8).flatMap (fun pr => beBytes 2 (if bitsOf prios pr pr = 1 then quanta else 0))
    let f := slice (hdr ++ body) 0 60
    let m := s.mac p
    s.setMac p { m with ctlOut := m.ctlOut ++ [f ++ leBytes 4 (crc32 f)] }
  else s

/-- Re-evaluate a port's pause or PFC state after its counts have changed (R325). -/
def State.fcEval (s : State) (p : Nat) : State :=
  if 64 ≤ p then s
  else
    let e := p / 16
    let i := p % 16
    let mode := s.f (tmgA e (0x200 + 4 * i)) 1 0
    let quanta := s.f (tmgA e (0x200 + 4 * i)) 31 16
    let thr := fun (r : Nat) => s.rd (tmgA e (0x400 + 32 * i + 4 * r))
    let cnt := fun (pr : Nat) => s.bpm.fcCells.at 0 (8 * p + pr)
    let old := s.f (tmgA e (0x240 + 4 * i)) 7 0
    let decideP := fun (was : Bool) (c : Nat) (w : Word) =>
      if was then decide (16 * fld w 15 0 < c) else decide (fld w 31 16 ≠ 0) && decide (16 * fld w 31 16 ≤ c)
    let new :=
      if mode = 1 then b2n (decideP (decide (old ≠ 0)) (sumBy cnt (List.range 8)) (thr 0))
      else if mode = 2 then sumBy (fun pr => 2 ^ pr * b2n (decideP (decide (bitsOf old pr pr = 1)) (cnt pr) (thr pr))) (List.range 8)
      else 0
    if new = old then s
    else
      let s := s.setF (tmgA e (0x240 + 4 * i)) 7 0 new
      if mode = 0 then s
      else if new = 0 then s.fcRequest p old 0
      else if (new ||| old) = old then s
      else
        let s := s.fcRequest p new quanta
        if s.b (tmgA e 8) 3 then s else s.report (tmgPage e) 3 0x5804

/-- Add cells charged to frames of an ingress port and PCP (R325). -/
def State.fcAdd (s : State) (key : Nat) (z : Int) : State :=
  ({ s with bpm := { s.bpm with fcCells := s.bpm.fcCells.upd 0 key (fun x => ((x : Int) + z).toNat) } }).fcEval (key / 8)

/-! ### Freeing and release (R286, R287) -/

/-- Free a cell with its charge, its twin with it. -/
def State.freeCell (s : State) (h : Nat) : State :=
  let d := s.cell h
  let s := if d.resv then s.addResv d.req d.grp (-1) else s.addShr d.req d.grp (-1)
  let s := match d.fcKey with | some k => s.fcAdd k (-1) | none => s
  let s := s.freeHandle h
  match d.twin with
  | some t => s.freeHandle t
  | none => s

/-- Request an orphan sweep (R293): merged into the next one while one runs. -/
def State.requestSweep (s : State) : State :=
  if s.b (bpmA 0x040) 1 then s.setB (bpmA 0x040) 2 true
  else { (s.setB (bpmA 0x040) 1 true).setB (bpmA 0x044) 8 false with bpm := { s.bpm with sweepAt := s.clk } }

/-- Free the cells of a chain in order, one whose own descriptor does not read by its twin's (counted), stopping at a break, which requests a sweep (R286, R292); a broken cell of a frozen
slot is itself retired (R299). -/
def State.freeChain : Nat → Option Nat → State → State
  | 0, _, s => s
  | _, none, s => s
  | n + 1, some h, s =>
    let d := s.cell h
    if d.alloc = false then s
    else if s.descOk h then freeChain n d.next (s.freeCell h)
    else if (match d.twin with | some t => s.descOk t | none => false) then freeChain n d.next ((s.bump (bpmA 0x11C)).freeCell h)
    else (if s.cellFrozen h then s.freeCell h else s).requestSweep

/-- Why a named cell refuses a release (R287): none when it is allocated under the generation named. -/
def State.staleCell (s : State) (h : Option Nat) (gen : Nat) : Option Nat :=
  match h with
  | none => none
  | some x => if (s.cell x).alloc = false ∨ (s.cell x).gen ≠ gen then some x else none

/-- A refused release is counted and captured first-only (R287). -/
def State.refuseRelease (s : State) (h gen : Nat) : State :=
  let s := s.bump (bpmA 0x118)
  if s.b (bpmA 0x104) 31 then s
  else
    let w := 2 ^ 31 + b2n (!(s.cell h).alloc) * 2 ^ 28 + gen * 2 ^ 16 + (s.cell h).gen
    ((s.wr (bpmA 0x104) (word w)).wr (bpmA 0x108) (word h)).report 14 1 0x3802 w h

/-- Release a copy's cells: head freed, tail share lowered, the tail freed at 0; a stale name changes nothing. -/
def State.releaseCells (s : State) (c : Copy) : State :=
  match s.staleCell c.headH c.headGen, s.staleCell c.tailH c.tailGen with
  | some h, _ => s.refuseRelease h c.headGen
  | none, some h => s.refuseRelease h c.tailGen
  | none, none =>
    let s := match c.headH with | some h => s.freeCell h | none => s
    let s := match c.tailH with
      | none => s
      | some t =>
        let d := s.cell t
        if d.share ≤ 1 then State.freeChain 64 (some t) s else s.setPair t { d with share := d.share - 1 }
    match c.queue with
    | some q => s.setQCells q (s.qCells q - c.cells)
    | none => s

/-- The arriving frame of a group that has frame `fid`. -/
def State.eframe (s : State) (e fid : Nat) : Option EFrame := s.eframes.find? (fun x => decide (x.e = e ∧ x.fid = fid))
def State.putEFrame (s : State) (x : EFrame) : State :=
  { s with eframes := replFirst (fun (y : EFrame) => decide (y.e = x.e ∧ y.fid = x.fid)) (fun _ => x) s.eframes }

/-- The flow-control key of a frame: the front port it entered at and its PCP there, kept through recirculation (R325). -/
def Frame.fcKey (f : Frame) : Option Nat := if f.src < 64 then some (8 * f.src + f.entryPcp.getD f.parse.pcp) else none

/-- The charge of an arriving frame falls to the cells actually used, those unused being taken off from its end (R283). -/
def State.settleCharge (s : State) (x : EFrame) : State :=
  if x.admitted = false then s
  else
    let f := s.frame x.fid
    let req := 16 * x.k + f.domain
    let unusedR := x.resv - x.alloc
    let unusedS := (x.need - x.alloc) - unusedR
    let s := (s.addResv req x.e (-(unusedR : Int))).addShr req x.e (-(unusedS : Int))
    let s := match f.fcKey with | some key => s.fcAdd key (-((x.need - x.alloc : Nat) : Int)) | none => s
    forEach x.ready s (fun s cid =>
      let c := s.copy cid
      match c.queue with
      | none => s
      | some q => (s.setQCells q (s.qCells q - (c.cells - x.got))).setCopy { c with cells := min c.cells x.got })

/-- An arriving frame with no copy left is forgotten; its further cells are discarded as they are passed out. -/
def State.closeEFrame (s : State) (x : EFrame) : State :=
  let s := s.settleCharge x
  let s := { s with eframes := s.eframes.filter (fun y => !decide (y.e = x.e ∧ y.fid = x.fid)) }
  if x.last then s else { s with rsq := { s.rsq with dead := s.rsq.dead ++ [(x.e, x.fid)] } }

/-- A copy ends: its cells are released and its record goes; the arriving frame it belongs to loses it. -/
def State.endCopy (s : State) (cid : Nat) : State :=
  let c := s.copy cid
  let s := s.releaseCells c
  let s := match s.eframe c.e c.fid with
    | none => s
    | some x =>
      let x' := { x with ready := x.ready.filter (fun i => decide (i ≠ cid)) }
      if x'.ready.isEmpty && x'.todo.isEmpty then s.closeEFrame x' else s.putEFrame x'
  (s.dropCopyRec cid).gcFrame c.fid

/-- What a capture record says of a copy. -/
def State.copyInfo (s : State) (c : Copy) (r : Nat) : CapInfo :=
  let f := s.frame c.fid
  { inPort := f.src, outPort := some c.port, reason := r, queue := c.queue, domain := c.domain, version := c.version,
    len := if f.complete then some ((f.wireLen : Int) + c.delta).toNat else none, bytes := c.head }

/-- A queue has become empty: a selection that holds a deficit for it no longer does (R319). -/
def State.forgetDeficit (s : State) (q : Nat) : State :=
  { s with tmg := { s.tmg with sel := s.tmg.sel.map (fun e => (e.1, { e.2 with defs := e.2.defs.filter (fun d => decide (d.1 ≠ q)) })) } }

/-- Take a queued copy off its queue; with `drop` it counts as a drop of queue account 8. -/
def State.takeOff (s : State) (c : Copy) (drop : Bool) : State :=
  if c.queued = false then s
  else
    let key := match c.queue with | some q => q | none => 8192 + c.ring
    let l := (s.onQueue key).filter (fun i => decide (i ≠ c.id))
    let s := (s.setQueue key l).setCopy { c with queued := false }
    match c.queue with
    | none => s
    | some q =>
      let s := s.winPut (qA q + 40) 4 l.length
      let s := if l.isEmpty then s.winPut (qA q + 52) 4 0 else s
      let e := if c.port < 64 then c.port / 16 else 4
      let s := if l.isEmpty then (s.setF (tmgA e 0x040) 28 16 (s.f (tmgA e 0x040) 28 16 - 1)).forgetDeficit q else s
      let s := if drop then s.idleCredit c.port (q / 8 % 8) else s
      s.led (tmgPage e) 8 q (if drop then 2 else 1)

/-- A copy is dropped under reason `r` by the block of a page: it counts once at a port, leaves the drain counter, is offered
to the drop sessions, and its cells are released. -/
def State.dropCopyAt (s : State) (page port cid r : Nat) : State :=
  let c := s.copy cid
  let s := (s.countDrop page port r).capDrop port (s.copyInfo c r)
  ((s.takeOff c true).leave page c.version r).endCopy cid

/-- A copy is dropped at its egress port (R26). -/
def State.dropCopy (s : State) (page cid r : Nat) : State := s.dropCopyAt page (s.copy cid).port cid r

end Sys2Proof.Machine
end

