-- ==== Sys2Proof/Machine/Faults.lean ====
section
/-! DEFINITION. Fault containment (chapter 21) beneath the families: region states (R486, R503), the record of a declaration
(R487), degraded mode and the fault reserve (R500, R501), and the start of a takeover (R155). -/

namespace Sys2Proof.Machine

/-- Whether a device-critical region has been lost (R490). -/
def State.critical (s : State) : Bool := s.b (sprA 0x0C8) 1

/-! ### Degraded mode -/

/-- The spare pseudo-channels left in stack `t`. -/
def State.sparesLeft (s : State) (t : Nat) : Nat := s.f (sprA 0x0C0) (2 * t + 1) (2 * t)

/-- Whether pool `p` runs below its configured size with no spare that can restore it (R500, R501). -/
def State.poolShort (s : State) (p : Nat) : Bool :=
  decide (s.poolSize p < s.spr.cfgPool.at 0 p) && (decide (p < 5) || decide (s.sparesLeft (p - 5) = 0))

/-- The state a newly faulty region takes: 1 while something covers or spares it, 2 when it is lost (R486, R503). -/
def State.faultState (s : State) (r : Nat) : Nat :=
  if r < 4 then (if s.b (pipA 4 0x084) 0 = true ∧ s.f (pipA 4 0x084) 2 1 = r then 1 else 2)
  else if 15 ≤ r ∧ r < 20 then
    (if (List.range 5).any (fun p => decide (p ≠ r - 15 ∧ s.planeState p = 1)) then 1 else 2)
  else if 64 ≤ r then (if 0 < s.sparesLeft ((r - 64) / 32) then 1 else 2)
  else 2

/-- Whether a region is lost: also while it is tested, until the test has passed (R488). -/
def State.regionLost (s : State) (r : Nat) : Bool := decide (s.region r = 2) || (decide (s.region r = 3) && decide (s.faultState r = 2))

/-- Regions lost. -/
def State.lostRegions (s : State) : Nat := ((List.range 128).filter s.regionLost).length

/-- Whether degraded mode is in force (R501). -/
def State.degradedNow (s : State) : Bool := decide (0 < s.lostRegions) || (List.range 7).any s.poolShort

/-- Release the reserve of a pool, or restore it (R290, R500). -/
def State.setReserve (s : State) (p : Nat) (release : Bool) : State :=
  (s.setB (sprA 0x0C8) (16 + p) release).setF (bpmA (0x0E0 + 4 * p)) 25 0 (if release then 0 else s.resOf p)

/-- Release the fault reserves that R500 allows under an automatic policy of kind 6 (each a completed repair), queue them
under policy 1, and restore those that no case holds any longer. -/
def State.refreshReserve (s : State) : State :=
  forEach (List.range 7) s (fun s p =>
    let due := s.degradedNow || s.poolShort p
    let on := s.b (sprA 0x0C8) (16 + p)
    if due = true ∧ on = false ∧ s.f (bpmA (0x0E0 + 4 * p)) 25 0 ≠ 0 then
      match s.f (sprA 0x048) 13 12 with
      | 0 => if s.b (sprA 0x044) 0 then (s.setReserve p true).repaired else s
      | 1 => s.request 6 30 p
      | _ => s
    else if due = false ∧ on = true then s.setReserve p false
    else s)

/-- Bring SPR_DEGRADE up to date: every change of the lost regions or of the mode is reported (R501). -/
def State.refreshDegrade (s : State) : State :=
  let lost := s.lostRegions % 256
  let deg := s.degradedNow
  let s :=
    if s.f (sprA 0x0C8) 11 4 = lost ∧ s.b (sprA 0x0C8) 0 = deg then s
    else ((s.setF (sprA 0x0C8) 11 4 lost).setB (sprA 0x0C8) 0 deg).report sprPage 1 0x2002 lost
  s.refreshReserve

/-! ### Takeover (R155, R156) -/

def State.covering (s : State) : Bool := s.b (pipA 4 0x084) 0
def State.coveredGroup (s : State) : Nat := s.f (pipA 4 0x084) 2 1

/-- P4 starts covering group `k`: status, count, cause bit 4 of page 4, event 0x4C05. -/
def State.startTakeover (s : State) (k : Nat) (forced : Bool) : State :=
  let n := satAdd 16 (s.f (pipA 4 0x084) 31 16) 1
  let s := s.wr (pipA 4 0x084) (word (1 + k * 2 + b2n forced * 8 + 16 + n * 65536))
  let s := (s.setB (pipA k 0x040) 2 true).setB (pipA 4 0x080) 0 false
  s.report (pipPage 4) 4 0x4C05

/-- Whether an automatic takeover of group `k` can start: enabled, P4 covers no group and is good, and staging k and
POL k are good (R155, R156). -/
def State.canCover (s : State) (k : Nat) : Bool :=
  s.b (pipA 4 0x080) 8 && !s.covering && !s.b (pipA 4 0x084) 4 && !s.regionDown 4 && !s.regionDown (5 + k) && !s.regionDown (10 + k)

/-! ### Declarations -/

/-- The repair a declared region asks for (R491, R496, R497): region tests, plane tests; an HBM slot's mapping is asked
for when it is drained, and a device-critical region is not tested. -/
def State.requestFor (s : State) (r : Nat) : State :=
  if r = 30 ∨ r = 35 ∨ r = 36 then s
  else if 15 ≤ r ∧ r < 20 then s.request 1 r 0
  else if r < 62 then s.request 0 r 0
  else s

/-- Record a declaration (R487): the first is captured, each is counted and reported; the region takes its state, its
repair is asked for, and a repair of it that is running stops (R494). -/
def State.declareRec (s : State) (r cause where_ row : Nat) : State :=
  let s := if s.b (sprA 0x058) 31 then s.bumpF (sprA 0x058) 15 0
    else (s.wr (sprA 0x058) (word (2 ^ 31 + cause * 2 ^ 24 + r * 2 ^ 16))).wr (sprA 0x05C) (word (row % 2 ^ 24 * 256 + where_ % 256))
  let s := (s.bump (sprA 0x060)).report sprPage 0 0x2001 r cause
  let running := s.b (sprA 0x040) 8 && (match s.spr.queue with | q :: _ => decide (q.region = r) | [] => false)
  let s := if running then (s.refuseRepair 3).popRepair else s
  let s := s.setRegion r (s.faultState r)
  let s := if r = 30 ∨ r = 35 ∨ r = 36 then
      if s.critical then s else (s.setB (sprA 0x0C8) 1 true).report sprPage 6 0x2007
    else s
  (s.requestFor r).refreshDegrade

/-- Whether a declaration under a cause is acted on (R503, SPR_CTL.en). -/
def State.declareOk (s : State) (r cause : Nat) : Bool :=
  s.regionExists r && (decide (4 ≤ cause) || s.b (sprA 0x044) 0)

/-- A region becomes good again. -/
def State.regionGood (s : State) (r : Nat) : State := (s.setRegion r 0).refreshDegrade

/-- Spares of a kind are exhausted (R494). -/
def State.sparesOut (s : State) : State := s.report sprPage 5 0x2006

end Sys2Proof.Machine
end

