-- ==== Sys2Proof/Machine/TableStore.lean ====
section
/-! DEFINITION. The tables (R163 to R173): where an entry stands in the banks of each copy, the fields, reserved bits and owners
of every format, liveness (R190), lookups by key, and inserting into hashed tables. -/

namespace Sys2Proof.Machine

/-- R190: an entry with this birth and death is live for version `v`. -/
def liveFor (birth death v : Nat) : Bool :=
  decide (death = birth) || decide ((v + 8 - birth) % 8 < (death + 8 - birth) % 8)

/-- The versions an entry covers. -/
def covers (birth death : Nat) : List Nat := (List.range 8).filter (liveFor birth death)

/-! ### Places (R164). The order of entries in a bank and of the tables in bank 95 is the model's. -/

/-- Entry size of a DMA target. -/
def entSize (t : Nat) : Nat :=
  [16, 8, 8, 32, 16, 16, 32, 8, 8, 32, 64, 64, 64, 32, 8].getD t 8

/-- Entries of a DMA target. -/
def entCount (t : Nat) : Nat :=
  [262144, 4096, 393216, 98304, 65536, 65536, 32768, 65536, 81920, 16384, 4096, 256, 64, 256, 1088].getD t 0

/-- The first byte of a target's table over logical banks 0 to 95 laid end to end. -/
def entBase (t : Nat) : Nat :=
  [0, 95 * 131072, 32 * 131072, 32 * 131072, 56 * 131072, 64 * 131072, 72 * 131072, 80 * 131072, 84 * 131072,
   89 * 131072, 93 * 131072, 95 * 131072 + 0x8000, 95 * 131072 + 0xC000, 95 * 131072 + 0xD000,
   95 * 131072 + 0xF000].getD t 0

/-- The physical bank of a logical bank in a copy (R164). -/
def State.physBank (s : State) (c j : Nat) : Nat := s.f (tblA (0x400 + 96 * c + 4 * (j / 4))) (8 * (j % 4) + 6) (8 * (j % 4))

/-- The key in `Tbl.banks` of a byte of copy `c` at a logical offset. -/
def State.bankKey (s : State) (c o : Nat) : Nat := c * 2 ^ 28 + s.physBank c (o / 131072) * 131072 + o % 131072

/-- Bytes of a copy from a logical offset (within one bank). -/
def State.bankRd (s : State) (c o n : Nat) : List Byte := readBytes s.tbl.banks (s.bankKey c o) n
def State.bankWr (s : State) (c o : Nat) (bs : List Byte) : State :=
  { s with tbl := { s.tbl with banks := writeBytes s.tbl.banks (s.bankKey c o) bs } }

/-- The number of the 128-byte word of copy `c` at a logical offset, in its physical bank. -/
def State.wordKey (s : State) (c o : Nat) : Nat := (c * 128 + s.physBank c (o / 131072)) * 1024 + o % 131072 / 128

/-- Whether the word at a logical offset of a copy reads uncorrectable. -/
def State.unreadable (s : State) (c o : Nat) : Bool := decide (s.tbl.unread.at 0 (s.wordKey c o) ≠ 0)

/-- The first read of an uncorrectable word: SPR is asked to remap its bank (R498, kind 3) and its row (R499, kind 4). -/
def State.wordBad (s : State) (c o : Nat) : State :=
  let k := s.wordKey c o
  if s.tbl.unread.at 0 k ≠ 1 then s
  else
    (({ s with tbl := { s.tbl with unread := s.tbl.unread.put 0 k 2 } }.request 3 31 (c * 65536 + o / 131072)).request 4 31
      (Config.sramRow 31 k).toNat)

/-- Where entry `i` of target `t` stands. -/
def entAt (t i : Nat) : Nat := entBase t + i * entSize t

/-- Entry `i` of target `t` in copy `c`. -/
def State.ent (s : State) (c t i : Nat) : List Byte := s.bankRd c (entBase t + i * entSize t) (entSize t)

/-- Write an entry in all five copies (R163). -/
def State.setEnt (s : State) (t i : Nat) (bs : List Byte) : State :=
  forEach (List.range 5) s (fun s c => s.bankWr c (entBase t + i * entSize t) bs)

/-- The entries of target `t` that hold any byte other than 0 in copy `c` (every other entry is invalid, R164), in no order. -/
def State.listed (s : State) (c t : Nat) : List Nat :=
  ((s.tbl.banks.filter (fun e => decide (e.1 / 2 ^ 28 = c))).filterMap (fun e =>
    let ph := e.1 % 2 ^ 28 / 131072
    match (List.range 96).find? (fun j => decide (s.physBank c j = ph)) with
    | none => none
    | some j =>
      let o := j * 131072 + e.1 % 131072
      if entBase t ≤ o ∧ o < entBase t + entCount t * entSize t then some ((o - entBase t) / entSize t) else none)).eraseDups

/-! ### Formats -/

/-- The version fields of the valid parts of an entry: (birth, death, owner); the owner of targets without an owner field
is 0. Learned MAC entries have none (R168); LPM entries belong to their bank's domain `bd`. -/
def entVers (t bd : Nat) (bs : List Byte) : List (Nat × Nat × Nat) :=
  let at_ := fun (b : Nat) => leAt bs b 1
  let one := fun (b o : Nat) => if bitsOf (at_ b) 6 6 = 1 then [(at_ b % 8, at_ b / 8 % 8, o)] else []
  match t with
  | 0 => if bitsOf (at_ 8) 7 7 = 1 then [] else one 8 (leAt bs 6 2 / 4096)
  | 1 => one 0 (at_ 1 % 16) ++ one 4 (at_ 5 % 16)
  | 2 => if decide (sfld bs 37 32 = 63) || bs.all (fun b => decide (b = 0)) then [] else [(sfld bs 40 38, sfld bs 43 41, bd)]
  | 3 => if decide (at_ 16 = 255) || bs.all (fun b => decide (b = 0)) then [] else [(at_ 17 % 8, at_ 17 / 8 % 8, bd)]
  | 4 => one 8 (at_ 7 / 16)
  | 5 => one 13 (at_ 12 / 16)
  | 6 => one 28 (sfld bs 234 231)
  | 7 => one 0 (at_ 1 % 16)
  | 9 => one 0 (at_ 1 % 16)
  | 10 => one 0 (at_ 1 % 16)
  | 11 => one 1 0
  | 12 => one 1 0
  | _ => []

/-- Whether an entry is in use. -/
def entValid (t : Nat) (bs : List Byte) : Bool :=
  match t with
  | 0 => decide (bitsOf (leAt bs 8 1) 6 6 = 1)
  | 8 => decide (bitsOf (leAt bs 0 1) 7 7 = 1)
  | 13 => (List.range 8).any (fun c => decide (128 ≤ leAt bs (4 * c) 1))
  | 14 => decide (leAt bs 0 1 % 4 ≠ 0)
  | _ => !(entVers t 0 bs).isEmpty

/-- The defined bits of each format (R116, R135 to R139, R144, R152, R167 to R172), as (hi, lo) over the entry. -/
def entBits (t : Nat) : List (Nat × Nat) :=
  match t with
  | 0 => [(74, 0), (95, 76), (126, 96)]
  | 1 => [(11, 0), (31, 16), (43, 32), (63, 48)]
  | 2 => [(63, 0)]
  | 3 => [(141, 0), (179, 160)]
  | 4 => [(70, 0), (73, 72), (76, 76), (85, 80), (127, 96)]
  | 5 => [(110, 0), (127, 112)]
  | 6 => [(254, 0)]
  | 7 => [(6, 0), (11, 8), (20, 16), (58, 32)]
  | 8 => [(7, 0), (27, 16), (43, 32), (54, 48), (59, 56)]
  | 9 => [(6, 0), (14, 8), (29, 16), (31, 31), (255, 32)]
  | 10 => [(6, 0), (23, 8), (47, 32)] ++ (List.range 8).flatMap (fun i =>
      let b := (8 + 7 * i) * 8
      [(b + 3, b), (b + 23, b + 8), (b + 28, b + 24), (b + 33, b + 32), (b + 55, b + 40)])
  | 11 => [(14, 0), (21, 16), (29, 24), (31, 31), (40, 32), (55, 48), (59, 56), (79, 64), (84, 80), (89, 88), (104, 96),
      (116, 112), (127, 120)] ++ (List.range 8).flatMap (fun i => let b := (16 + 6 * i) * 8; [(b + 41, b)])
  | 12 => [(3, 0), (14, 8)] ++ (List.range 4).flatMap (fun i =>
      let b := (8 + 8 * i) * 8
      [(b + 2, b), (b + 11, b + 8), (b + 23, b + 16), (b + 45, b + 32), (b + 47, b + 47), (b + 61, b + 48), (b + 63, b + 63)])
  | 13 => (List.range 8).flatMap (fun c => let b := 32 * c; [(b + 9, b), (b + 30, b + 16)])
  | 14 => [(1, 0), (27, 16), (41, 32), (51, 48)]
  | _ => []

/-- Whether an entry sets a reserved bit. -/
def entRsv (t : Nat) (bs : List Byte) : Bool :=
  let v := leVal bs
  decide ((entBits t).foldl (fun v e => v - bitsOf v e.1 e.2 * 2 ^ e.2) v ≠ 0)

/-- The low `n` bits of a prefix of width `w` that lie beyond its length. -/
def prefixTail (w len v : Nat) : Nat := v % 2 ^ (w - len)

/-- Whether an entry uses a reserved encoding of its format. Encodings whose meaning at run time the spec gives (a reserved
lookup table, opcode or metadata field) are not among them. -/
def entEnc (t : Nat) (bs : List Byte) : Bool :=
  let at_ := fun (b : Nat) => leAt bs b 1
  match t with
  | 0 => decide (bitsOf (at_ 9) 0 0 = 0) && decide (64 < leAt bs 10 2)
  | 2 =>
    let len := sfld bs 37 32
    (decide (32 < len) && decide (len ≠ 63)) || (decide (len ≤ 32) && decide (prefixTail 32 len (leAt bs 0 4) ≠ 0))
  | 3 =>
    let len := at_ 16
    (decide (128 < len) && decide (len ≠ 255)) || (decide (len ≤ 128) && decide (prefixTail 128 len (leAt bs 0 16) ≠ 0))
  | 5 => decide (leAt bs 14 2 = 0xFFFF)
  | 6 => decide (sfld bs 251 249 = 5 ∨ sfld bs 251 249 = 6 ∨ sfld bs 254 252 = 5 ∨ sfld bs 254 252 = 6)
  | 7 => decide (512 < sfld bs 58 49)
  | 8 => decide (64 < at_ 0 % 128)
  | 10 => decide (8 < at_ 1 / 16) || (List.range 8).any (fun i => decide (3 < at_ (8 + 7 * i) % 16))
  | 11 => decide (1 < at_ 3 % 4) || decide (at_ 3 / 16 % 4 = 3) || decide (1 < at_ 11 % 4) ||
      (List.range 8).any (fun i => decide (at_ (21 + 6 * i) % 4 = 3))
  | 14 => decide (at_ 0 % 4 = 3)
  | _ => false

/-! ### Keys and hashes (R165) -/

/-- Owner and key of an entry of a hashed table. -/
def entKey (t : Nat) (bs : List Byte) : Nat × Nat :=
  match t with
  | 0 => (leAt bs 6 2 / 4096, leAt bs 6 2 % 4096 * 2 ^ 48 + beAt bs 0 6)
  | 4 => (leAt bs 0 8 / 2 ^ 60, leAt bs 0 8 % 2 ^ 60)
  | _ => (leAt bs 0 13 / 2 ^ 100, leAt bs 0 13 % 2 ^ 100)

/-- Slots of a way of a hashed table. -/
def waySize (t : Nat) : Nat := if t = 0 then 65536 else 16384

/-- Key width in bits of a lookup table (R171). -/
def keyBits (t : Nat) : Nat := [60, 12, 32, 128, 60, 100, 80].getD t 0

/-- The slot of way `w` for an owner and key. -/
def hashSlot (t w owner key : Nat) : Nat :=
  let bs := if t = 5 then beBytes 13 (owner * 2 ^ 100 + key) else beBytes 8 (owner * 2 ^ 60 + key)
  crc32c (BitVec.ofNat 8 (0x10 * t + w) :: bs) % waySize t

/-- The four candidate indices of a key. -/
def candidates (t owner key : Nat) : List Nat := (List.range 4).map (fun w => w * waySize t + hashSlot t w owner key)

/-- Whether an entry covers a version: learned MAC entries match every one (R168). -/
def entLive (t : Nat) (bs : List Byte) (v : Nat) : Bool :=
  (decide (t = 0) && decide (leAt bs 8 1 / 64 = 3)) || (entVers t 0 bs).any (fun e => liveFor e.1 e.2.1 v)

/-- The entry an exact lookup finds: valid, the owner's, with the key, live for the version. -/
def State.exact (s : State) (c t owner key v : Nat) : Option Nat :=
  (candidates t owner key).find? (fun i =>
    let e := s.ent c t i
    entValid t e && decide (entKey t e = (owner, key)) && entLive t e v)

/-- The entry with an owner and key whatever its versions. -/
def State.keyIn (s : State) (c t owner key : Nat) : Option Nat :=
  (candidates t owner key).find? (fun i => let e := s.ent c t i; entValid t e && decide (entKey t e = (owner, key)))
/-- The same in the table as its write port sees it. -/
def State.anyKey (s : State) (t owner key : Nat) : Option Nat := s.keyIn 0 t owner key

/-- The half of map entry `v` that is live (R167): none when neither or both are; domain, learn flag, attribute. -/
def State.vlanHalf (s : State) (c vid ver : Nat) : Option (Nat × Bool × Nat) :=
  let e := s.ent c 1 vid
  let ok := fun (b : Nat) => decide (bitsOf (leAt e b 1) 6 6 = 1) && liveFor (leAt e b 1 % 8) (leAt e b 1 / 8 % 8) ver
  let h := fun (b : Nat) => (leAt e (b + 1) 1 % 16, decide (128 ≤ leAt e b 1), leAt e (b + 2) 2)
  match ok 0, ok 4 with
  | true, false => some (h 0)
  | false, true => some (h 4)
  | _, _ => none

/-! ### Longest prefix (R169, R170) -/

def State.lpmCtl (s : State) (b : Nat) : Word := s.rd (tblA (0x100 + 4 * b))
def State.lpmDomain (s : State) (b : Nat) : Nat := fld (s.lpmCtl b) 27 24

/-- The bank of an LPM entry index. -/
def lpmBank (t i : Nat) : Nat := if t = 2 then i / 16384 else i / 4096

/-- An LPM entry: prefix, length, nexthop; none when empty. -/
def lpmEnt (t : Nat) (bs : List Byte) : Option (Nat × Nat × Nat) :=
  if (entVers t 0 bs).isEmpty then none
  else if t = 2 then some (leAt bs 0 4, sfld bs 37 32, sfld bs 63 44) else some (leAt bs 0 16, leAt bs 16 1, leAt bs 20 4 % 2 ^ 20)

/-- Width of an LPM table's addresses. -/
def lpmWidth (t : Nat) : Nat := if t = 2 then 32 else 128

/-- The entry indices of the bucket of bank `b` that an address selects. -/
def lpmBucket (t b pivot addr : Nat) : List Nat :=
  let w := lpmWidth t
  let a := addr / 2 ^ (w - pivot) * 2 ^ (w - pivot)
  let k := crc32c (BitVec.ofNat 8 (0x80 + b) :: beBytes (w / 8) a) % 2048
  let n := if t = 2 then 8 else 2
  (List.range n).map (fun i => b * (if t = 2 then 16384 else 4096) + k * n + i)

/-- Banks that serve a family for a domain. -/
def State.lpmBanks (s : State) (t d : Nat) : List Nat :=
  (List.range 24).filter (fun b =>
    let c := s.lpmCtl b
    bit c 31 && decide (bit c 30 = decide (t = 3)) && decide (fld c 27 24 = d))

/-- The longest match of R170: nexthop. -/
def State.lpm (s : State) (c t d addr v : Nat) : Option Nat :=
  let w := lpmWidth t
  let ms := (s.lpmBanks t d).flatMap (fun b =>
    let ctl := s.lpmCtl b
    (lpmBucket t b (fld ctl 23 16) addr).filterMap (fun i =>
      let e := s.ent c t i
      match lpmEnt t e with
      | none => none
      | some (p, len, nh) =>
        if (entVers t 0 e).any (fun x => liveFor x.1 x.2.1 v) = true ∧ fld ctl 7 0 ≤ len ∧ len ≤ fld ctl 15 8 ∧
            addr / 2 ^ (w - len) = p / 2 ^ (w - len)
        then some (len, nh) else none))
  (ms.foldl (fun (best : Option (Nat × Nat)) m =>
    match best with
    | none => some m
    | some b => if b.1 < m.1 then some m else some b) none).map (fun m => m.2)

/-! ### Ternary (R171) -/

/-- Whether a ternary entry matches a key. -/
def ternMatch (bs : List Byte) (key : Nat) : Bool :=
  let mask := leAt bs 10 10
  let range := fun (lo sel : Nat) =>
    let s := sfld bs (lo + 2) lo
    decide (s = 7) || (let v := bitsOf key (16 * s + 15) (16 * s); let w := leAt bs sel 4; decide (w % 65536 ≤ v ∧ v ≤ w / 65536))
  decide (key &&& mask = leAt bs 0 10 &&& mask) && range 249 20 && range 252 24

/-- The live match with the lowest index. -/
def State.ternary (s : State) (c d key v : Nat) : Option Nat :=
  ((s.listed c 6).filter (fun i =>
      let e := s.ent c 6 i
      decide (sfld e 234 231 = d) && entLive 6 e v && ternMatch e key)).foldl
    (fun (best : Option Nat) i => match best with | none => some i | some b => some (min b i)) none

/-! ### Uncorrectable words (R489) -/

/-- The logical offsets of the entries that a lookup in table `t` of copy `c` reads. A ternary lookup reads every entry of the
copy: of those the ones in words known to be uncorrectable count. -/
def State.lookupReads (s : State) (c t d key : Nat) : List Nat :=
  match t with
  | 1 => [entAt 1 (key % 4096)]
  | 2 | 3 => (s.lpmBanks t d).flatMap (fun b => (lpmBucket t b (fld (s.lpmCtl b) 23 16) key).map (entAt t))
  | 6 => s.tbl.unread.flatMap (fun e =>
      ((List.range 8).filter (fun j => decide (e.1 / 1024 = c * 128 + s.physBank c (72 + j)))).map (fun j => (72 + j) * 131072 + e.1 % 1024 * 128))
  | _ => (candidates t d key).map (entAt t)

/-- The first uncorrectable word that a lookup reads. -/
def State.badLookup (s : State) (c t d key : Nat) : Option Nat := (s.lookupReads c t d key).find? (fun o => s.unreadable c o)

/-! ### Locks and hit bits -/

/-- Whether slot `i` of target `t` is under a lock (R181). -/
def State.slotLocked (s : State) (t i : Nat) : Bool :=
  (List.range 8).any (fun l =>
    let w := s.rd (tblA (0x0C0 + 4 * l))
    let first := s.f (tblA (0x0E0 + 4 * l)) 15 0
    let slot := i % waySize t
    bit w 31 && decide (fld w 27 24 = t) && decide (first ≤ slot ∧ slot < first + fld w 12 0))

/-- The hit bit of MAC slot `i` in pipeline `k` (R176). -/
def State.hit (s : State) (k i : Nat) : Bool := decide (s.tbl.hits.at 0 (k * 262144 + i) = 1)
def State.setHit (s : State) (k i : Nat) (v : Bool) : State :=
  { s with tbl := { s.tbl with hits := s.tbl.hits.put 0 (k * 262144 + i) (b2n v) } }
def State.setHits (s : State) (i : Nat) (v : Bool) : State := forEach (List.range 5) s (fun s k => s.setHit k i v)

/-! ### Inserting (R173) -/

/-- A relocation path of at most `n` displacements from slot `i` to an empty slot, through no locked or repeated slot: the
slots in order, the empty one last. -/
def State.cuckoo (s : State) (t : Nat) : Nat → List Nat → Nat → Option (List Nat)
  | 0, _, _ => none
  | n + 1, seen, i =>
    if s.slotLocked t i then none
    else
      let (o, k) := entKey t (s.ent 0 t i)
      let next := (candidates t o k).filter (fun j => decide (j ≠ i) && !seen.contains j && !s.slotLocked t j)
      match next.find? (fun j => !entValid t (s.ent 0 t j)) with
      | some j => some [i, j]
      | none =>
        (next.foldl (fun (r : Option (List Nat)) j =>
          match r with
          | some p => some p
          | none => State.cuckoo s t n (i :: seen) j) none).map (fun p => i :: p)

/-- The shortest path from any candidate slot, lowest way first. -/
def State.cuckooPath (s : State) (t owner key depth : Nat) : Option (List Nat) :=
  (List.range depth).foldl (fun (r : Option (List Nat)) n =>
    match r with
    | some p => some p
    | none =>
      (candidates t owner key).foldl (fun (r : Option (List Nat)) i =>
        match r with | some p => some p | none => s.cuckoo t (n + 1) [] i) none) none

/-- Carry a path out from its empty end: each entry moves one slot on; a relocated MAC entry's hit bits are set. -/
def State.relocate (s : State) (t : Nat) : List Nat → State
  | [] => s
  | [_] => s
  | i :: j :: rest =>
    let s := State.relocate s t (j :: rest)
    let s := s.setEnt t j (s.ent 0 t i)
    if t = 0 then s.setHits j true else s

/-- Insert an entry into a hashed table: its index, none when there is no slot and no path. -/
def State.insertHashed (s : State) (t : Nat) (e : List Byte) : Option Nat × State :=
  let (o, k) := entKey t e
  match (candidates t o k).find? (fun i => !entValid t (s.ent 0 t i)) with
  | some i => (some i, s.setEnt t i e)
  | none =>
    match s.cuckooPath t o k (s.f (lrnA 0x050) 4 0) with
    | some (i :: p) => (some i, ((s.relocate t (i :: p)).setEnt t i e).pmc 12 7 p.length)
    | _ => (none, s)

/-- Remove an entry: all bytes 0 (R164), its hit bits too. -/
def State.clearEnt (s : State) (t i : Nat) : State :=
  let s := s.setEnt t i (List.replicate (entSize t) 0)
  if t = 0 then s.setHits i false else s

end Sys2Proof.Machine
end

