-- ==== Sys2Proof/Machine/TableDma.lean ====
section
/-! DEFINITION. Table access (R145, R177 to R181, R202): the operations on an entry for a principal, their fences and statuses, the
host command ring, and locks. -/

namespace Sys2Proof.Machine

/-! ### Who owns what (R180, R428, R437) -/

/-- The seal state (R430): 0 Open, 1 Allocated, 2 Sealed. -/
def State.sealState (s : State) : Nat := s.f (secA 0x040) 1 0

/-- The domain to which an allocation gives item `i` of a kind and unit; 0 when none does (R428). -/
def State.allocOwner (s : State) (kind unit_ i : Nat) : Nat :=
  match s.sec.allocs.find? (fun a => decide (a.kind = kind ∧ a.unit_ = unit_ ∧ a.first ≤ i ∧ i < a.first + a.count)) with
  | some a => a.dom
  | none => 0

/-- Whether a change set is open for a domain (R201). -/
def State.setOpenFor (s : State) (d : Nat) : Bool := s.b (topA 0x300) 12 && decide (s.f (topA 0x300) 19 16 = d)

/-- Targets whose entries a tenant holds by quota (R428 kind 0x0F). -/
def quotaTarget (t : Nat) : Bool := decide (t = 0 ∨ t = 4 ∨ t = 5 ∨ t = 6 ∨ t = 7 ∨ t = 8)

/-- Shared tables (R431). -/
def sharedTarget (t : Nat) : Bool := decide (t = 11 ∨ t = 12 ∨ t = 13)

/-- The owners an entry names: its owner field; the domains of a map entry's halves and the VID's owner; an LPM bank's
domain; the domain of an unmatched default. Shared tables name none. -/
def State.entOwners (s : State) (t i : Nat) (bs : List Byte) : List Nat :=
  match t with
  | 0 => [leAt bs 6 2 / 4096]
  | 1 =>
    let half := fun (b : Nat) =>
      let d := leAt bs (b + 1) 1 % 16
      if bitsOf (leAt bs b 1) 6 6 = 1 ∨ d ≠ 0 then [d] else []
    half 0 ++ half 4 ++ [s.allocOwner 0x13 0 i]
  | 2 => [s.lpmDomain (lpmBank t i)]
  | 3 => [s.lpmDomain (lpmBank t i)]
  | 4 => [leAt bs 7 1 / 16]
  | 5 => [leAt bs 12 1 / 16]
  | 6 => [sfld bs 234 231]
  | 7 => [leAt bs 1 1 % 16]
  | 8 => [leAt bs 7 1 % 16]
  | 9 => [leAt bs 1 1 % 16]
  | 10 => [leAt bs 1 1 % 16]
  | 14 => [i % 16]
  | _ => []

/-- Whether an entry belongs to another domain than `d`; an empty slot of a quota target is open to a tenant. -/
def State.foreign (s : State) (t i : Nat) (bs : List Byte) (d : Nat) (old : Bool) : Bool :=
  let os := s.entOwners t i bs
  if sharedTarget t then decide (d ≠ 0)
  else if old = true ∧ quotaTarget t = true ∧ entValid t bs = false ∧ os.all (fun o => decide (o = 0)) = true then false
  else os.any (fun o => decide (o ≠ d))

/-- The domain that owns an entry, for a fence's count. -/
def State.foreignOwner (s : State) (t i : Nat) (bs : List Byte) (d : Nat) : Option Nat :=
  (s.entOwners t i bs).find? (fun o => decide (o ≠ d))

/-- Valid entries of a target that a domain owns (R428 kind 0x0F). -/
def State.ownedCount (s : State) (t d : Nat) : Nat :=
  ((s.listed 0 t).filter (fun i => let e := s.ent 0 t i; entValid t e && (s.entOwners t i e).contains d)).length

/-- A tenant's quota of entries of a target. -/
def State.quota (s : State) (t d : Nat) : Nat :=
  sumBy (fun (a : Alloc) => if a.kind = 0x0F ∧ a.unit_ = t ∧ a.dom = d then a.count else 0) s.sec.allocs

/-! ### Writes (status 0x2: `fence` R180 and R427; 0x12 the refusals of R145, R202 and R431; 0x22 the quota) -/

/-- The version rule of R202 on the entry as it stands and as it will be. -/
def State.versRefused (s : State) (t bd : Nat) (bs : List Byte) : Bool :=
  (entVers t bd bs).any (fun e => decide (e.1 = s.verN ∨ e.2.1 = s.verN) && !s.setOpenFor e.2.2)

/-- What refuses a write of `new` over `old` at index `i` for the principal of domain `d`: 0 when nothing does. -/
def State.entGuard (s : State) (t i d : Nat) (old new : List Byte) : Nat :=
  let bd := if t = 2 ∨ t = 3 then s.lpmDomain (lpmBank t i) else 0
  if s.foreign t i old d true ∨ s.foreign t i new d false then 2
  else if sharedTarget t ∧ s.sealState = 2 ∧ s.setOpenFor 0 = false then 0x12
  else if t = 14 ∧ ((i % 16 ≠ 0 ∧ leAt new 0 1 % 4 = 2) ∨ (s.protectedDom (i % 16) ∧ leAt new 0 1 % 4 ≠ 0)) then 0x12
  else if s.versRefused t bd old ∨ s.versRefused t bd new then 0x12
  else if d ≠ 0 ∧ quotaTarget t ∧ entValid t old = false ∧ entValid t new = true ∧ s.quota t d ≤ s.ownedCount t d then 0x22
  else 0

/-- The versions a valid entry covers. -/
def entCovers (t : Nat) (bs : List Byte) : List Nat := (List.range 8).filter (fun v => entLive t bs v)

/-- Status 0x7: another slot holds the owner and key for a version the entry covers too. -/
def State.clash (s : State) (t i : Nat) (new : List Byte) : Bool :=
  if t = 0 ∨ t = 4 ∨ t = 5 then
    let (o, k) := entKey t new
    entValid t new && (candidates t o k).any (fun j =>
      let e := s.ent 0 t j
      decide (j ≠ i) && entValid t e && decide (entKey t e = (o, k)) && (entCovers t new).any (fun v => entLive t e v))
  else if t = 2 ∨ t = 3 then
    match lpmEnt t new with
    | none => false
    | some (p, len, _) =>
      let d := s.lpmDomain (lpmBank t i)
      (s.lpmBanks t d).any (fun b => (lpmBucket t b (fld (s.lpmCtl b) 23 16) p).any (fun j =>
        let e := s.ent 0 t j
        decide (j ≠ i) && (match lpmEnt t e with | some (p', len', _) => decide (p' = p ∧ len' = len) | none => false) &&
          (entCovers t new).any (fun v => entLive t e v)))
  else false

/-- Store an entry written by a principal; a shared one is remembered for the next commit (R432), and watchpoints see it. -/
def State.putEnt (s : State) (t i : Nat) (bs : List Byte) : State :=
  let s := s.setEnt t i bs
  let s := if sharedTarget t then { s with tbl := { s.tbl with dirty := true } } else s
  s.watch 1 t i

/-- Write at an index. -/
def State.entWrite (s : State) (t i d : Nat) (new : List Byte) : Nat × State :=
  let old := s.ent 0 t i
  let g := s.entGuard t i d old new
  if g ≠ 0 then (g, s) else if s.clash t i new then (7, s) else (0, s.putEnt t i new)

/-- The entries that hold the owner and key of `bs`: for an LPM target, its prefix and length in the domain's banks. -/
def State.entHeld (s : State) (t d : Nat) (bs : List Byte) : List Nat :=
  if t = 2 ∨ t = 3 then
    match lpmEnt t bs with
    | none => []
    | some (p, len, _) =>
      ((s.lpmBanks t d).flatMap (fun b => lpmBucket t b (fld (s.lpmCtl b) 23 16) p)).filter (fun j =>
        match lpmEnt t (s.ent 0 t j) with | some (p', len', _) => decide (p' = p ∧ len' = len) | none => false)
  else
    let (o, k) := entKey t bs
    (candidates t o k).filter (fun j => let e := s.ent 0 t j; entValid t e && decide (entKey t e = (o, k)))

/-- Whether an entry has the birth and death of another, or is a learned one (R179). -/
def entSame (t : Nat) (e bs : List Byte) : Bool :=
  if t = 2 ∨ t = 3 then
    decide ((entVers t 0 e).map (fun x => (x.1, x.2.1)) = (entVers t 0 bs).map (fun x => (x.1, x.2.1)))
  else
    let vb := if t = 5 then leAt bs 13 1 % 64 else leAt bs 8 1 % 64
    decide ((if t = 5 then leAt e 13 1 % 64 else leAt e 8 1 % 64) = vb) || (decide (t = 0) && decide (leAt e 8 1 / 64 = 3))

/-- The entry a delete names: the one with its owner, key, birth and death, or the learned entry with that owner and key. -/
def State.entFind (s : State) (t d : Nat) (bs : List Byte) : Option Nat :=
  (s.entHeld t d bs).find? (fun j => entSame t (s.ent 0 t j) bs)

/-- Search by key: the entry with its owner and key. Of several, the one a delete would name; where there is none, the entry
is a free value among them. -/
def State.entSearch (s : State) (t d : Nat) (bs : List Byte) : Option Nat × State :=
  match s.entFind t d bs, s.entHeld t d bs with
  | some j, _ => (some j, s)
  | none, [] => (none, s)
  | none, [j] => (some j, s)
  | none, js => (js[Config.freeValue s.draw.1 % js.length]?, s.draw.2)

/-- Insert by key: into the lowest candidate slot or by a path (R173), into the lowest LPM bank that fits (R179). -/
def State.entInsert (s : State) (t d : Nat) (new : List Byte) : Nat × Nat × State :=
  if t = 2 ∨ t = 3 then
    match lpmEnt t new with
    | none => (6, 0, s)
    | some (p, len, _) =>
      let fits := (s.lpmBanks t d).filter (fun b => decide (fld (s.lpmCtl b) 7 0 ≤ len ∧ len ≤ fld (s.lpmCtl b) 15 8))
      match (fits.flatMap (fun b => lpmBucket t b (fld (s.lpmCtl b) 23 16) p)).find? (fun j => (lpmEnt t (s.ent 0 t j)).isNone) with
      | none => (3, 0, s)
      | some j =>
        let g := s.entGuard t j d (s.ent 0 t j) new
        if g ≠ 0 then (g, 0, s) else if s.clash t j new then (7, 0, s) else (0, j, s.putEnt t j new)
  else
    let (o, k) := entKey t new
    if o ≠ d then (2, 0, s)
    else
      let held := if t = 0 then (candidates t o k).find? (fun j =>
          let e := s.ent 0 t j
          entValid t e && decide (entKey t e = (o, k)) && decide (leAt e 8 1 / 64 = 3)) else none
      match held with
      | some j =>
        if leAt new 8 1 / 64 = 3 then (7, 0, s)
        else
          let g := s.entGuard t j d (s.ent 0 t j) new
          if g ≠ 0 then (g, 0, s) else (0, j, s.putEnt t j new)
      | none =>
        let g := s.entGuard t (2 ^ 20) d (List.replicate (entSize t) 0) new
        if g ≠ 0 then (g, 0, s)
        else if s.clash t (2 ^ 20) new then (7, 0, s)
        else
          match s.insertHashed t new with
          | (none, _) => (3, 0, s)
          | (some j, s') => (0, j, s'.watch 1 t j)

/-- Delete by key. -/
def State.entDelete (s : State) (t d : Nat) (bs : List Byte) : Nat × State :=
  match s.entFind t d bs with
  | none => (4, s)
  | some j =>
    let z := List.replicate (entSize t) 0
    let g := s.entGuard t j d (s.ent 0 t j) (if t = 2 ∨ t = 3 then z else s.ent 0 t j)
    if g ≠ 0 then (g, s) else (0, (s.clearEnt t j).watch 1 t j)

/-- Read an entry of a copy: zeros of an owner with a sealed view for any other principal (R180); a tenant reads its own
alone (R437). -/
def State.entRead (s : State) (t i d c : Nat) : Nat × List Byte :=
  let e := s.ent c t i
  if d ≠ 0 ∧ s.foreign t i e d false then (2, [])
  else if (s.entOwners t i e).any (fun o => decide (o ≠ d) && s.sec.views.contains o) then (0, List.replicate (entSize t) 0)
  else (0, e)

/-- One entry of a command: status, found index, data read, state. -/
def State.entOp (s : State) (op t i d c : Nat) (raw : List Byte) : Nat × Nat × List Byte × State :=
  if op = 2 then let (st, bs) := s.entRead t i d c; (st, 0, bs, s)
  else if entRsv t raw ∨ entEnc t raw then (6, 0, [], s)
  else
    match op with
    | 1 => let (st, s) := s.entWrite t i d raw; (st, 0, [], s)
    | 3 => let (st, j, s) := s.entInsert t d raw; (st, j, [], s)
    | 4 => let (st, s) := s.entDelete t d raw; (st, 0, [], s)
    | _ =>
      match s.entSearch t d raw with
      | (some j, s) => (0, j, [], s)
      | (none, s) => (4, 0, [], s)

/-- What the head of a command breaks before any entry (R179): 6 a reserved op, target or copy, or an op the target does
not take; 1 its range. -/
def State.cmdHead (s : State) (op t copy index count : Nat) : Nat :=
  let hashed := decide (t = 0 ∨ t = 4 ∨ t = 5)
  let keyed := hashed || decide (t = 2 ∨ t = 3)
  if op = 0 ∨ 7 < op ∨ t = 15 ∨ 4 < copy ∨ (3 ≤ op ∧ op ≤ 5 ∧ keyed = false) ∨ (6 ≤ op ∧ hashed = false) then 6
  else if count = 0 ∨ 4096 < count then 1
  else if 6 ≤ op ∧ waySize t < index + count then 1
  else if op ≤ 2 ∧ entCount t < index + count then 1
  else if op ≤ 2 ∧ (t = 2 ∨ t = 3) ∧ (List.range 24).any (fun b =>
      decide (lpmBank t index ≤ b ∧ b ≤ lpmBank t (index + count - 1)) && decide (bit (s.lpmCtl b) 30 ≠ decide (t = 3))) then 1
  else 0

/-- Run a command's entries in order, stopping at the first that fails: (status, done, found, data, state). `src n` are the
bytes for entry `n`. -/
def State.runEntries (s : State) (op t index count d c : Nat) (src : State → Nat → List Byte) :
    Nat × Nat × Nat × List Byte × State :=
  (List.range count).foldl (fun (a : Nat × Nat × Nat × List Byte × State) n =>
    let (st, k, fnd, out, s) := a
    if st ≠ 0 then a
    else
      let (st', f', bs, s') := s.entOp op t (index + n) d c (src s n)
      if st' ≠ 0 then (st', k, fnd, out, s') else (0, k + 1, f', out ++ bs, s')) (0, 0, 0, [], s)

/-- A command that ended with a status other than 0 (R179): cause bit 1, first-only capture, event 0x3401. -/
def State.dmaError (s : State) (st t done : Nat) (warden : Bool) (cmd : Nat) : State :=
  let w := st % 16 * 2 ^ 24 + t % 16 * 2 ^ 20 + b2n warden * 4096 + (if warden then 0 else cmd % 4096)
  let s := if s.b (tblA 0x058) 31 then s else s.wr (tblA 0x058) (word (2 ^ 31 + w))
  s.report 13 1 0x3401 w done

/-! ### Locks (R181) -/

def State.setLocks (s : State) : State :=
  s.setF (tblA 0x040) 19 16 ((List.range 8).filter (fun i => s.b (tblA (0x0C0 + 4 * i)) 31)).length

/-- Whether two slot ranges of a way overlap. -/
def rangesMeet (a n b m : Nat) : Bool := decide (a < b + m ∧ b < a + n)

/-- Take a lock: status 0x5 without a free lock slot or over a held lock. -/
def State.takeLock (s : State) (t first n : Nat) : Nat × State :=
  let held := (List.range 8).any (fun i =>
    let w := s.rd (tblA (0x0C0 + 4 * i))
    bit w 31 && decide (fld w 27 24 = t) && rangesMeet first n (s.f (tblA (0x0E0 + 4 * i)) 15 0) (fld w 12 0))
  match (List.range 8).find? (fun i => !s.b (tblA (0x0C0 + 4 * i)) 31) with
  | none => (5, s)
  | some i =>
    if held then (5, s)
    else
      let s := (s.wr (tblA (0x0C0 + 4 * i)) (word (2 ^ 31 + t * 2 ^ 24 + n))).wr (tblA (0x0E0 + 4 * i)) (word first)
      (0, ({ s with tbl := { s.tbl with lockAt := s.tbl.lockAt.put 0 i s.clk } }).setLocks)

/-- Release lock `i`. -/
def State.dropLock (s : State) (i : Nat) : State :=
  ((s.wr (tblA (0x0C0 + 4 * i)) 0).wr (tblA (0x0E0 + 4 * i)) 0).setLocks

/-- Unlock by the same target, index and count; 0x4 when no such lock is held. -/
def State.unlock (s : State) (t first n : Nat) : Nat × State :=
  match (List.range 8).find? (fun i =>
    s.b (tblA (0x0C0 + 4 * i)) 31 && decide (s.f (tblA (0x0C0 + 4 * i)) 27 24 = t) &&
      decide (s.f (tblA (0x0E0 + 4 * i)) 15 0 = first) && decide (s.f (tblA (0x0C0 + 4 * i)) 12 0 = n)) with
  | some i => (0, s.dropLock i)
  | none => (4, s)

/-- Whether a range overlaps one that was auto-released less than 10 ms ago. -/
def State.lockWaits (s : State) (t first n : Nat) : Bool :=
  s.tbl.freed.any (fun f => decide (f.1 = t) && rangesMeet first n f.2.1 f.2.2.1 && decide (s.clk < f.2.2.2 + msec 10))

def execLockAutoRelease (lock : Fin 8) (s : State) : Host.Outcome State Fault Refusal :=
  let w := s.rd (tblA (0x0C0 + 4 * lock.val))
  answer s (if bit w 31 then
    let first := s.f (tblA (0x0E0 + 4 * lock.val)) 15 0
    let s := { s with tbl := { s.tbl with freed := s.tbl.freed ++ [(fld w 27 24, first, fld w 12 0, s.clk)] } }
    ((s.dropLock lock.val).bump (tblA 0x088)).report 13 2 0x3402
  else s)

/-! ### The host command ring (R177 to R179) -/

def State.dmaSize (s : State) : Nat := 2 ^ s.f (tblA 0x04C) 11 8
def State.dmaHead (s : State) : Nat := s.f (tblA 0x050) 11 0
/-- The host address of the command at head. -/
def State.dmaCmdAddr (s : State) : Nat :=
  (s.rd (tblA 0x048)).toNat * 2 ^ 32 + (s.rd (tblA 0x044)).toNat + 32 * s.dmaHead

/-- Whether the ring holds a command and TBL is good. -/
def State.dmaHolds (s : State) : Bool := !s.regionDown 31 && decide (s.dmaHead ≠ s.f (tblA 0x054) 11 0 % s.dmaSize)

/-- Whether a command is running: enabled, TBL good, head not at tail. -/
def State.dmaReady (s : State) : Bool := s.b (tblA 0x04C) 0 && s.dmaHolds

/-- Write a command's result back and advance head (R177); one not cut short is counted and gives its interrupt. The index an
insert or search reports when it did not end well is a free value. -/
def State.dmaFinish (s : State) (cmd : List Byte) (st done found : Nat) (cut : Bool := false) : State :=
  let a := s.dmaCmdAddr
  let op := leAt cmd 0 1 % 16
  let (found, s) :=
    if (op = 3 ∨ op = 5) ∧ (st ≠ 0 ∨ done = 0) then (Config.freeValue s.draw.1 % 2 ^ 20, s.draw.2) else (found, s)
  let s := s.hostWr (a + 24) (leBytes 1 (1 + st % 16 * 16) ++ [0] ++ leBytes 2 done ++ leBytes 4 found)
  let s := if st ≠ 0 then s.dmaError st (leAt cmd 1 1 % 16) done false s.dmaHead else s
  let s := if cut then s else (if 128 ≤ leAt cmd 0 1 then s.irq 13 0 else s).bump (tblA 0x05C)
  s.setF (tblA 0x050) 11 0 ((s.dmaHead + 1) % s.dmaSize)

/-- Reserved bits of a command (R178). -/
def cmdRsv (c : List Byte) : Bool :=
  decide (leAt c 0 1 / 16 % 8 ≠ 0) || decide (16 ≤ leAt c 1 1) || decide (8 ≤ leAt c 2 1) || decide (leAt c 3 1 ≠ 0) ||
  decide (2 ^ 20 ≤ leAt c 4 4) || decide (2 ^ 13 ≤ leAt c 8 2) || decide (leAt c 10 6 ≠ 0) || decide (leAt c 16 1 % 8 ≠ 0)

/-- Whether a running bank remap holds a command that touches its logical bank (R498). -/
def State.bankHeld (s : State) (t index count : Nat) : Bool :=
  match s.spr.queue with
  | r :: _ =>
    decide (r.kind = 3) && s.b (sprA 0x040) 8 &&
      (let j := r.arg % 128
       let lo := entBase t + (if t = 0 ∨ t = 4 ∨ t = 5 ∨ t = 2 ∨ t = 3 then 0 else index * entSize t)
       let hi := entBase t + (if t = 0 ∨ t = 4 ∨ t = 5 ∨ t = 2 ∨ t = 3 then entCount t * entSize t else (index + count) * entSize t)
       decide (lo < (j + 1) * 131072 ∧ j * 131072 < hi))
  | [] => false

/-- Run the command at head. `stop`: the entries after which a clear of the enable stops it (R177); a command that still
waits then has run none. -/
def State.dmaExec (s : State) (stop : Option Nat) : State :=
  let c := s.hostRd s.dmaCmdAddr 32
  let op := leAt c 0 1 % 16
  let t := leAt c 1 1 % 16
  let index := leAt c 4 4 % 2 ^ 20
  let count := leAt c 8 2 % 2 ^ 13
  let buf := leAt c 16 8
  if cmdRsv c then s.dmaFinish c 6 0 0
  else
    let h := s.cmdHead op t (leAt c 2 1 % 8) index count
    if h ≠ 0 then s.dmaFinish c h 0 0
    else if (op = 6 ∧ s.lockWaits t index count = true) ∨ (op ≠ 2 ∧ op < 6 ∧ s.bankHeld t index count = true) then
      if stop.isSome then State.dmaFinish { s with tbl := { s.tbl with waiting := false } } c 0 0 0 true
      else { s with tbl := { s.tbl with waiting := s.tbl.waiting || decide (op = 6) } }
    else if op = 6 then let (st, s) := s.takeLock t index count; s.dmaFinish c st (if st = 0 then count else 0) 0
    else if op = 7 then let (st, s) := s.unlock t index count; s.dmaFinish c st (if st = 0 then count else 0) 0
    else
      let (st, done, found, out, s) := s.runEntries op t index (min count (stop.getD count)) 0 (leAt c 2 1 % 8)
        (fun s n => s.hostRd (buf + n * entSize t) (entSize t))
      let s := if op = 2 then s.hostWr buf out else if op = 5 then s else s.pmc 13 4 done
      s.dmaFinish c st done found (decide (st = 0 ∧ done < count))

/-- Run the command at head when its op is the row's (a reserved op is rejected by any row). -/
def State.dmaRun (s : State) (row : Nat) : State :=
  let op := leAt (s.hostRd s.dmaCmdAddr 32) 0 1 % 16
  if s.dmaReady = false ∨ (1 ≤ op ∧ op ≤ 7 ∧ op ≠ row) then s else s.dmaExec none

/-- R177: the enable clears, and the command in progress stops at an entry boundary, its result written back. How many
entries it has run by then is a free value. -/
def State.dmaStop (s : State) : State :=
  if s.dmaHolds then
    s.draw.2.dmaExec (some (Config.freeValue s.draw.1 % (leAt (s.hostRd s.dmaCmdAddr 32) 8 2 % 2 ^ 13 + 1)))
  else s

def execTblCmdWrite (s : State) : Host.Outcome State Fault Refusal := answer s (s.dmaRun 1)
def execTblCmdRead (s : State) : Host.Outcome State Fault Refusal := answer s (s.dmaRun 2)
def execTblCmdInsert (s : State) : Host.Outcome State Fault Refusal := answer s (s.dmaRun 3)
def execTblCmdDelete (s : State) : Host.Outcome State Fault Refusal := answer s (s.dmaRun 4)
def execTblCmdSearch (s : State) : Host.Outcome State Fault Refusal := answer s (s.dmaRun 5)
def execTblCmdLock (s : State) : Host.Outcome State Fault Refusal := answer s (s.dmaRun 6)
def execTblCmdUnlock (s : State) : Host.Outcome State Fault Refusal := answer s (s.dmaRun 7)

/-- The 10 ms after the auto-releases that a lock command waits for have passed, so it runs; ranges it does not overlap keep
theirs. -/
def State.lockWaitEnd (s : State) : State :=
  if s.tbl.waiting then
    let c := s.hostRd s.dmaCmdAddr 32
    let t := leAt c 1 1 % 16
    let freed := s.tbl.freed.filter (fun f =>
      !(decide (f.1 = t) && rangesMeet (leAt c 4 4 % 2 ^ 20) (leAt c 8 2 % 2 ^ 13) f.2.1 f.2.2.1))
    { s with tbl := { s.tbl with waiting := false, freed } }.dmaRun 6
  else s

/-- R181: the wait of a lock command at the ring's head ends. -/
def execLockOverlapWaitEnd (s : State) : Host.Outcome State Fault Refusal := answer s s.lockWaitEnd

/-- R177, R188: clearing TBL_DMA_CTL.en stops the ring at an entry boundary; log2size keeps its value. -/
def execTblDmaDisable (s : State) : Host.Outcome State Fault Refusal :=
  let was := s.b (tblA 0x04C) 0
  answer s (s.hostWriteWith (tblA 0x04C) (word (s.f (tblA 0x04C) 11 8 * 256)) true (fun _ s => if was then s.dmaStop else s))

/-! ### Function resets (R52) -/

/-- A Function Level Reset or D3hot clears the enables of host and table DMA; a table command in progress stops (R177). -/
def State.functionStop (s : State) (d3hot : Bool) : State :=
  let was := s.b (tblA 0x04C) 0
  let s := s.stopHostDma
  let s := if was then s.dmaStop else s
  { s with hif := { s.hif with d3hot } }

/-- R52: a Function Level Reset; event 0x0406. It also leaves D3hot. -/
def execFunctionLevelReset (s : State) : Host.Outcome State Fault Refusal :=
  answer s (if s.pmu.por ∧ s.hif.linkUp then (s.functionStop false).raise 1 0x0406 else s)

/-- R52: entry to D3hot. -/
def execD3hotEntry (s : State) : Host.Outcome State Fault Refusal :=
  answer s (if s.pmu.por ∧ s.hif.linkUp then s.functionStop true else s)

end Sys2Proof.Machine
end

