-- ==== Sys2Proof/Machine/Learn.lean ====
section
/-! DEFINITION. Learning (R174 to R176): requests, what the engine does with one, moves and freezes, aging and the sweep of
pending moves. -/

namespace Sys2Proof.Machine

/-- LRN_TIME: 10 ms units since reset, 16 bits. -/
def State.lrnTime (s : State) : Nat := (s.clk - s.tbl.origin) / msec 10 % 65536

/-- LRN_TIME / 10, low 10 bits: the clock of win_stamp. -/
def State.winTime (s : State) : Nat := s.lrnTime / 10 % 1024

/-- Put the queue occupancies where LRN_STATUS shows them. -/
def State.lrnStatus (s : State) : State :=
  (s.setF (lrnA 0x044) 12 0 s.tbl.fifo.length).setF (lrnA 0x044) 22 16 s.tbl.park.length

/-- A learn request enters the FIFO of 4,096, or is lost when it is full or LRN is isolated (R174, R486). -/
def State.learnRequest (s : State) (r : LearnReq) : State :=
  if 4096 ≤ s.tbl.fifo.length ∨ s.regionDown 32 then s.bumpRise (lrnA 0x06C) 12 2 0x3003
  else { s with tbl := { s.tbl with fifo := s.tbl.fifo ++ [r] } }.lrnStatus

/-- The key of a request. -/
def LearnReq.key (r : LearnReq) : Nat := r.vid * 2 ^ 48 + r.mac

/-- Whether one of a request's candidate slots is locked. -/
def State.reqLocked (s : State) (r : LearnReq) : Bool := (candidates 0 r.owner r.key).any (fun i => s.slotLocked 0 i)

/-- A MAC entry's bytes with byte 9 and the dynamic word replaced. -/
def macDyn (e : List Byte) (b9 dyn : Nat) : List Byte := putBytes (putBytes e 9 (leBytes 1 b9)) 12 (leBytes 4 dyn)

/-- The bytes of a new learned entry. -/
def learnedEnt (r : LearnReq) : List Byte :=
  beBytes 6 r.mac ++ leBytes 2 (r.vid + r.owner * 4096) ++ leBytes 1 0xC0 ++ leBytes 1 0 ++ leBytes 2 r.port ++ leBytes 4 0

/-- The entry freezes at its dest (R175): counted, captured first-only with its event. -/
def State.freezeEnt (s : State) (j : Nat) (e : List Byte) (q : Nat) : State :=
  let s := (s.setEnt 0 j (macDyn e ((leAt e 9 1 &&& 0xF0) ||| 2) (leAt e 12 4))).bump (lrnA 0x064)
  if s.b (lrnA 0x080) 31 then s
  else
    let c0 := 2 ^ 31 + q * 65536 + leAt e 10 2 % 128 * 256 + leAt e 6 2 / 4096
    let c1 := beAt e 0 2 * 65536 + leAt e 6 2 % 4096
    (((s.wr (lrnA 0x080) (word c0)).wr (lrnA 0x084) (word c1)).wr (lrnA 0x088) (word (beAt e 2 4))).report 12 0 0x3001 c0 c1 (beAt e 2 4)

/-- R175: a move of entry `j` to port q. -/
def State.moveEnt (s : State) (j : Nat) (e : List Byte) (q : Nat) : State :=
  let moves := leAt e 9 1 / 16
  let win := sfld e 126 117
  let open_ := decide (moves ≠ 0) && decide ((s.winTime + 1024 - win) % 1024 < s.f (lrnA 0x048) 15 8)
  if open_ ∧ s.f (lrnA 0x048) 19 16 < moves + 1 then s.freezeEnt j e q
  else
    let m := if open_ then moves + 1 else 1
    let w := if open_ then win else s.winTime
    let dyn := leAt e 12 4 % 2 ^ 21 + w * 2 ^ 21
    (s.setEnt 0 j (putBytes (macDyn e (m * 16) dyn) 10 (leBytes 2 q))).bump (lrnA 0x05C)

/-- What the engine does with a request at the write port (R174). -/
def State.learnAct (s : State) (r : LearnReq) : State :=
  let s := s.pmc 12 4
  match s.anyKey 0 r.owner r.key with
  | none =>
    match s.insertHashed 0 (learnedEnt r) with
    | (none, s) => s.bumpRise (lrnA 0x068) 12 1 0x3002
    | (some j, s) => (s.setHits j true).bump (lrnA 0x058)
  | some j =>
    let e := s.ent 0 0 j
    let b9 := leAt e 9 1
    if bitsOf b9 1 1 = 1 then s.bump (lrnA 0x060)
    else if leAt e 8 1 < 128 then s
    else if leAt e 10 2 % 128 = r.port then s
    else if bitsOf b9 2 2 = 0 then
      s.setEnt 0 j (macDyn e (b9 ||| 4) (leAt e 12 4 % 16 + r.port * 16 + s.lrnTime % 1024 * 2 ^ 11 + leAt e 12 4 / 2 ^ 21 * 2 ^ 21))
    else if sfld e 106 100 = r.port then
      if (s.lrnTime % 1024 + 1024 - sfld e 116 107) % 1024 < s.f (lrnA 0x048) 7 0 then s.bump (lrnA 0x060)
      else s.moveEnt j e r.port
    else s.bump (lrnA 0x060)

/-- One request of the engine: a parked one whose slots are free again, else the head of the FIFO, which is parked or
dropped when its slots are locked. -/
def State.learnStep (s : State) : State :=
  if s.regionDown 32 then s
  else
    match takeFirst (fun r => !s.reqLocked r) s.tbl.park with
    | some (r, rest) => ({ s with tbl := { s.tbl with park := rest } }.lrnStatus).learnAct r
    | none =>
      match s.tbl.fifo with
      | [] => s
      | r :: rest =>
        let s := { s with tbl := { s.tbl with fifo := rest } }.lrnStatus
        if s.reqLocked r then
          if 64 ≤ s.tbl.park.length then s.bumpRise (lrnA 0x070) 12 3 0x3004
          else { s with tbl := { s.tbl with park := s.tbl.park ++ [r] } }.lrnStatus
        else s.learnAct r

def execLearnProcess (s : State) : Host.Outcome State Fault Refusal := answer s s.learnStep

/-- Whether a MAC entry is valid and learned. -/
def isLearned (e : List Byte) : Bool := decide (leAt e 8 1 / 64 = 3)

/-- R176: one entry of an aging scan. -/
def State.ageEnt (s : State) (j : Nat) : State :=
  let e := s.ent 0 0 j
  if isLearned e = false ∨ bitsOf (leAt e 9 1) 1 1 = 1 then s
  else if (List.range 5).any (fun k => s.hit k j) then
    (s.setHits j false).setEnt 0 j (macDyn e (leAt e 9 1) (leAt e 12 4 / 16 * 16))
  else
    let a := leAt e 12 4 % 16 + 1
    if s.f (lrnA 0x04C) 19 16 ≤ a then (s.clearEnt 0 j).bump (lrnA 0x074)
    else s.setEnt 0 j (macDyn e (leAt e 9 1) (leAt e 12 4 / 16 * 16 + a))

def State.ageScan (s : State) : State :=
  if s.b (lrnA 0x04C) 31 = false ∨ s.regionDown 32 = true then s else forEach (s.listed 0 0) s (fun s j => s.ageEnt j)

def execAgingScan (s : State) : Host.Outcome State Fault Refusal := answer s s.ageScan

/-- R176: one entry of the sweep made once a second. -/
def State.sweepEnt (s : State) (j : Nat) : State :=
  let e := s.ent 0 0 j
  let b9 := leAt e 9 1
  if entValid 0 e = false then s
  else
    let b9 := if bitsOf b9 2 2 = 1 ∧ 2 * s.f (lrnA 0x048) 7 0 ≤ (s.lrnTime % 1024 + 1024 - sfld e 116 107) % 1024 then b9 - 4 else b9
    let b9 := if 16 ≤ b9 ∧ s.f (lrnA 0x048) 15 8 ≤ (s.winTime + 1024 - sfld e 126 117) % 1024 then b9 % 16 else b9
    if b9 = leAt e 9 1 then s else s.setEnt 0 j (macDyn e b9 (leAt e 12 4))

def State.pendingSweep (s : State) : State :=
  if s.regionDown 32 then s else forEach (s.listed 0 0) s (fun s j => s.sweepEnt j)

def execPendingSweep (s : State) : Host.Outcome State Fault Refusal := answer s s.pendingSweep

end Sys2Proof.Machine
end

