-- ==== Sys2Proof/Machine/Scrub.lean ====
section
/-! DEFINITION. The scrubber (R182, R183), and the commit point that applies its queued repairs. -/

namespace Sys2Proof.Machine

/-- A word of a logical bank in a copy: 128 bytes. -/
def State.scrubWord (s : State) (c bank w : Nat) : List Byte := s.bankRd c (bank * 131072 + w * 128) 128

/-- Whether a word holds learned MAC entries: its banks are those of the MAC table. -/
def learnedIn (bank : Nat) (bs : List Byte) : List Nat :=
  if bank < 32 then (List.range 8).filter (fun i => isLearned (slice bs (16 * i) 16)) else []

/-- A word with what the shadow compare skips put to 0 (R183): learned MAC entries and the dynamic fields of others. -/
def shadowView (bank : Nat) (bs : List Byte) : List Byte :=
  if bank < 32 then
    (List.range 8).flatMap (fun i =>
      let e := slice bs (16 * i) 16
      if isLearned e then List.replicate 16 0
      else slice e 0 9 ++ [0] ++ slice e 10 2 ++ List.replicate 4 0)
  else bs

/-- Whether a word equals the shadow's, learned entries of either side left out of the compare. -/
def agrees (bank : Nat) (w sh : List Byte) : Bool :=
  decide (shadowView bank ((List.range 8).flatMap (fun i =>
      if bank < 32 ∧ isLearned (slice w (16 * i) 16) then List.replicate 16 0 else slice w (16 * i) 16)) =
    shadowView bank ((List.range 8).flatMap (fun i =>
      if bank < 32 ∧ isLearned (slice w (16 * i) 16) then List.replicate 16 0 else slice sh (16 * i) 16)))

/-- Copies whose word equals `w`; a word that reads uncorrectable, empty here, equals none. -/
def sameAs (ws : List (List Byte)) (w : List Byte) : List Nat :=
  (List.range 5).filter (fun c => decide (ws.getD c [] = w) && !w.isEmpty)

/-- Repair a word in a set of copies: with a value of 128 bytes, or by invalidating the MAC entries a shorter list names. -/
def State.repairWord (s : State) (bank w : Nat) (cs : List Nat) (v : List Byte) : State :=
  (forEach cs s (fun s c =>
    if v.length = 128 then
      let s := { s with tbl := { s.tbl with unread := s.tbl.unread.put 0 (s.wordKey c (bank * 131072 + w * 128)) 0 } }
      s.bankWr c (bank * 131072 + w * 128) v
    else forEach v s (fun s i => s.bankWr c (bank * 131072 + w * 128 + 16 * i.toNat) (List.replicate 16 0)))).bump (tblA 0x080)

/-- Act on a repair by mode (R182): 0 report, 1 in place, 2 queued for the commit point, lost when 256 are queued. -/
def State.scrubFix (s : State) (bank w : Nat) (cs : List Nat) (v : List Byte) : State :=
  match s.f (tblA 0x060) 2 1 with
  | 1 => s.repairWord bank w cs v
  | 2 =>
    if 256 ≤ s.tbl.repairs.length then (s.bump (tblA 0x084)).report 13 5 0x3405
    else
      let m := sumBy (fun c => 2 ^ c) cs
      { s with tbl := { s.tbl with repairs := s.tbl.repairs ++ [(bank, w, m, v)] } }.setF (tblA 0x090) 8 0 (s.tbl.repairs.length + 1)
  | _ => s

/-- A finding of a kind (R182): counted, first-only captured with its events. -/
def State.finding (s : State) (kind bank w : Nat) (cs : List Nat) : State :=
  let s := s.bump (tblA (0x074 + 4 * (kind - 1)))
  if s.b (tblA 0x06C) 31 then s
  else
    let s := (s.wr (tblA 0x06C) (word (2 ^ 31 + kind * 2 ^ 24 + sumBy (fun c => 2 ^ c) cs * 2 ^ 16 + bank))).wr (tblA 0x070) (word w)
    if kind = 2 then (s.irq 13 3).report 13 4 0x3404 else s.report 13 3 0x3403

/-- R498: word `w` of copy `c` is in the minority: when the words of its physical bank found so within the last hour reach
SPR_CTL.bank_thr, SPR is asked to remap the bank. DESIGN CHOICE: words that have been reported count anew. -/
def State.bankFinding (s : State) (c bank w : Nat) : State :=
  let key := c * 128 + s.physBank c bank
  let at_ := (s.tbl.findings.at [] key).filter (fun x => decide (s.clk < x.1 + seconds 3600 ∧ x.2 ≠ w)) ++ [(s.clk, w)]
  let full := decide (4 ^ (s.f (sprA 0x044) 3 2 + 1) ≤ at_.length)
  let s := { s with tbl := { s.tbl with findings := s.tbl.findings.put [] key (if full then [] else at_) } }
  if full then s.request 3 31 (c * 65536 + bank) else s

/-- The scrubber compares one word in the five copies as `ws` reads, with the shadow's word when it is compared. -/
def State.scrubCompare (s : State) (bank w : Nat) (ws : List (List Byte)) (sh : Option (List Byte)) : State :=
  let all := List.range 5
  let s := s.pmc 13 7
  let major := all.find? (fun c => decide (3 ≤ (sameAs ws (ws.getD c [])).length))
  match major with
  | some c =>
    let v := ws.getD c []
    let minor := all.filter (fun c => decide (ws.getD c [] ≠ v))
    let s := if minor.isEmpty then s
      else forEach minor ((s.finding 1 bank w minor).scrubFix bank w minor v) (fun s c => s.bankFinding c bank w)
    match sh with
    | none => s
    | some x => if agrees bank v x then s else s.finding 3 bank w ((sameAs ws v))
  | none =>
    let good := match sh with
      | none => []
      | some x => (all.filter (fun c => !(ws.getD c []).isEmpty && agrees bank (ws.getD c []) x))
    let vals := (good.map (fun c => ws.getD c [])).eraseDups
    match vals with
    | [v] =>
      let bad := all.filter (fun c => decide (ws.getD c [] ≠ v))
      (s.finding 2 bank w bad).scrubFix bank w bad v
    | _ =>
      let s := s.finding 2 bank w all
      let ls := (all.flatMap (fun c => learnedIn bank (ws.getD c []))).eraseDups
      if ls.isEmpty then s else s.scrubFix bank w all (ls.map (fun i => BitVec.ofNat 8 i))

/-- The shadow's word, when it is compared (R183): shadow_en, its slot readable and no uncorrectable burst. -/
def State.shadowWord (s : State) (bank w : Nat) : List Byte :=
  s.hbmRd (s.tbl.shadowBase * 0x200000 + bank * 131072 + w * 128) 128

/-- The scrubber visits the next word of its pass. `upsets` are the (copy, byte, mask) changes that have befallen the copies'
words since they were last read; `dead`: the copies whose word has become uncorrectable; `shadowBad`: the shadow's read is. -/
def State.scrubStep (s : State) (upsets : List (Nat × Nat × Byte)) (dead : List (Fin 5)) (shadowBad : Bool) : State :=
  let pos := s.tbl.scrubWord
  let bank := pos / 1024
  let w := pos % 1024
  let s := forEach upsets s (fun s u =>
    if u.1 < 5 ∧ u.2.1 < 128 then
      let k := s.bankKey u.1 (bank * 131072 + w * 128 + u.2.1)
      { s with tbl := { s.tbl with banks := xorByte s.tbl.banks k u.2.2 } }
    else s)
  let o := bank * 131072 + w * 128
  let s := forEach dead s (fun s c =>
    if s.unreadable c.val o then s
    else { s with tbl := { s.tbl with unread := s.tbl.unread.put 0 (s.wordKey c.val o) 1 } })
  if s.b (tblA 0x060) 0 = false ∨ s.regionDown 31 = true then s
  else
    let s := if pos = 0 then
        let s := s.setB (tblA 0x040) 1 true
        let s := if s.tbl.shadowBad then s else s.setB (tblA 0x064) 8 false
        { s with tbl := { s.tbl with shadowBase := s.f (tblA 0x068) 13 0, shadowBad := false, saidLost := false } }
      else s
    let on := s.b (tblA 0x060) 3
    let lost := shadowBad || s.hbmBadRun (s.tbl.shadowBase * 0x200000 + bank * 131072 + w * 128) 128
    let s := if on = true ∧ lost = true then
        let said := s.tbl.saidLost
        let s := { (s.setB (tblA 0x064) 8 true) with tbl := { s.tbl with shadowBad := true, saidLost := true } }
        if said then s else s.report 13 6 0x3406
      else s
    let ws := (List.range 5).map (fun c => if s.unreadable c o then [] else s.scrubWord c bank w)
    let s := forEach (List.range 5) s (fun s c => s.wordBad c o)
    let s := s.scrubCompare bank w ws (if on = true ∧ lost = false then some (s.shadowWord bank w) else none)
    let next := pos + 1
    if next = 96 * 1024 then
      let s := (s.bumpF (tblA 0x064) 31 16).setB (tblA 0x040) 1 false
      ({ s with tbl := { s.tbl with scrubWord := 0 } }).setF (tblA 0x064) 6 0 0
    else ({ s with tbl := { s.tbl with scrubWord := next } }).setF (tblA 0x064) 6 0 (next / 1024)

/-- `bad`: the copies' upset bits the readout corrects, and the copies whose word reads uncorrectable. -/
def execScrubWord (bad : List (Nat × Nat × Byte) × List (Fin 5)) (shadowBad : Bool) (s : State) :
    Host.Outcome State Fault Refusal := answer s (s.scrubStep bad.1 bad.2 shadowBad)

/-- Apply the queued repairs (R182, R193). -/
def State.applyRepairs (s : State) : State :=
  let rs := s.tbl.repairs
  let s := { s with tbl := { s.tbl with repairs := [] } }.setF (tblA 0x090) 8 0 0
  forEach rs s (fun s r => s.repairWord r.1 r.2.1 ((List.range 5).filter (fun c => decide (bitsOf r.2.2.1 c c = 1))) r.2.2.2)

end Sys2Proof.Machine
end

