-- ==== Sys2Proof/Machine/Versions.lean ====
section
/-! DEFINITION. Rule versions (chapter 8): change sets (R201), the commit point (R193), the open limit (R204). -/

namespace Sys2Proof.Machine

/-- Set TOP_VER_STATUS.result. -/
def State.verResult (s : State) (r : Nat) : State := s.setF (topA 0x300) 30 28 r

/-- R201: open a set for domain `d`. -/
def State.verOpen (s : State) (d : Nat) : State :=
  if s.b (topA 0x300) 12 then s.verResult 4
  else
    let s := ((s.setB (topA 0x300) 12 true).setF (topA 0x300) 19 16 d).verResult 1
    { s with ver := { s.ver with openAt := s.clk, limit := s.f (topA 0x308) 15 0, late := false, staged := [] } }

/-- R200, R201: ask for the commit point of the requester's set; with four versions live it is refused. -/
def State.verCommit (s : State) (d : Nat) : State :=
  if s.setOpenFor d = false then s.verResult 3
  else if 4 ≤ s.f (topA 0x300) 10 8 then
    ((s.verResult 2).bumpF (topA 0x30C) 31 16).report 0 17 0x0011 s.verO (s.f (topA 0x300) 10 8)
  else { s.setB (topA 0x300) 24 true with ver := { s.ver with pendingCommit := some d } }

/-- R201: close the requester's set: staged values are discarded, so each register reads back the value C has. -/
def State.verClose (s : State) (d : Nat) : State :=
  if s.setOpenFor d = false then s.verResult 3
  else
    let s := forEach s.ver.staged s (fun s a => s.wr a (s.rwv a s.verC))
    let s := { s with ver := { s.ver with staged := [] } }
    ((s.setB (topA 0x300) 12 false).setF (topA 0x300) 19 16 0).verResult 5

/-- An operation of TOP_VER_COMMIT by a domain (R201, R207): one while busy is dropped and sets result 3. -/
def State.verOp (s : State) (d op : Nat) : State :=
  if s.b (topA 0x300) 24 then s.verResult 3
  else match op with
    | 1 => s.verOpen d
    | 2 => s.verCommit d
    | _ => s.verClose d

/-- The versions' values of RW-V registers with N added: C's values, those written since the last commit replaced (R193). -/
def State.stageRwv (s : State) (n : Nat) : State :=
  let c := s.verC
  let dflt := fun (k : Nat) => resetWord (k % 2 ^ 24)
  let m := s.ver.inForce.filter (fun e => decide (e.1 / 2 ^ 24 ≠ n))
  let m := (s.ver.inForce.filter (fun e => decide (e.1 / 2 ^ 24 = c))).foldl
    (fun m e => SMap.putF dflt m (n * 2 ^ 24 + e.1 % 2 ^ 24) e.2) m
  let m := s.ver.staged.foldl (fun m a => SMap.putF dflt m (n * 2 ^ 24 + a) (s.rd a)) m
  { s with ver := { s.ver with inForce := m, staged := [] } }

/-- Whether a front in flight has passed some admission points and not others: a commit falls before or after it at every
one of them (R194). -/
def State.frontSplits (s : State) : Bool :=
  s.b (staA 0x040) 0 && (List.range 5).any (fun k => s.sta.passed.contains (prsPage k)) &&
    !(List.range 5).all (fun k => s.sta.passed.contains (prsPage k))

/-- R193: the commit point; one that would split a front waits for it to have passed every admission point (R194). -/
def State.commitPoint (s : State) : State :=
  match s.ver.pendingCommit with
  | none => s
  | some d =>
    if s.frontSplits then s
    else
    let n := s.verN
    let s := (s.stageRwv n).setF (topA 0x300) 2 0 n
    let s := s.setF (topA 0x300) 10 8 ((n + 8 - s.verO) % 8 + 1)
    let s := { s with ver := { s.ver with pendingCommit := none } }.applyRepairs
    let s := (((s.setB (topA 0x300) 12 false).setF (topA 0x300) 19 16 0).setB (topA 0x300) 24 false).verResult 1
    let s := (s.bumpF (topA 0x30C) 15 0).report 0 16 0x0010 n d
    let s := if s.tbl.dirty then
        ({ s with tbl := { s.tbl with dirty := false } }.wr (secA 0x060) (s.rd (secA 0x060) + 1)).report 11 4 0x2C05
      else s
    s.advanceO

def execCommitPoint (s : State) : Host.Outcome State Fault Refusal := answer s s.commitPoint

/-- R204: the set has been open longer than the limit in force, in ms. -/
def State.openLimit (s : State) : State :=
  if s.b (topA 0x300) 12 = true ∧ s.ver.late = false ∧ msec s.ver.limit < s.clk - s.ver.openAt then
    { s with ver := { s.ver with late := true } }.report 0 18 0x0012 (s.f (topA 0x300) 19 16) ((s.clk - s.ver.openAt) / msec 1)
  else s

def execOpenSetLimit (s : State) : Host.Outcome State Fault Refusal := answer s s.openLimit

/-- A host write of an op to TOP_VER_COMMIT, for D0. -/
def State.hostVer (s : State) (op : Nat) : State := s.hostWriteWith (topA 0x304) (word op) true (fun _ s => s.verOp 0 op)

def execVerSetOpen (s : State) : Host.Outcome State Fault Refusal := answer s (s.hostVer 1)
def execVerSetCommit (s : State) : Host.Outcome State Fault Refusal := answer s (s.hostVer 2)
def execVerSetClose (s : State) : Host.Outcome State Fault Refusal := answer s (s.hostVer 3)

end Sys2Proof.Machine
end

