-- ==== Sys2Proof/Machine/Parser.lean ====
section
/-! DEFINITION. The programmable parser (chapter 5): the fixed front end, the parse graph, what becomes of a frame it cannot finish,
admission to a pipeline, packet breakpoints, punt meters. -/

namespace Sys2Proof.Machine

/-! ### Bit fields of a frame -/

/-- The unsigned big-endian value of `w` bits from bit `b` after byte `start` (bit 0 the most significant). -/
def frameBits (bs : List Byte) (start b w : Nat) : Nat :=
  let lo := start + b / 8
  let hi := start + (b + w + 7) / 8
  beAt bs lo (hi - lo) / 2 ^ ((hi - start) * 8 - (b + w)) % 2 ^ w

/-! ### The parse graph (R116 to R122) -/

/-- The one valid entry of a node live for a version in copy `k`; none when there is none or more than one (R117). -/
def State.nodeEnt (s : State) (k node v : Nat) : Option (List Byte) :=
  match (List.range 256).filter (fun i =>
      let e := s.ent k 11 i
      decide (leAt e 0 1 = node) && (entVers 11 0 e).any (fun x => liveFor x.1 x.2.1 v)) with
  | [i] => some (s.ent k 11 i)
  | _ => none

/-- What of an entry's encodings R117 makes a graph fault, for a non-dispatch entry. -/
def nodeBad (e : List Byte) : Bool :=
  let at_ := fun (b : Nat) => leAt e b 1
  let lm := at_ 3 % 4
  let tm := at_ 3 / 16 % 4
  let lw := at_ 7 % 16
  let tw := at_ 10 % 32
  let sw := at_ 14 % 32
  (if lm = 1 then !decide (1 ≤ lw ∧ lw ≤ 8) else decide (lw ≠ 0)) ||
  (if tm = 0 then decide (tw ≠ 0) else !decide (1 ≤ tw ∧ tw ≤ 16)) || decide (16 < sw) || decide (512 < leAt e 12 2 % 512 + sw)

/-- A fetched node; none is a graph fault. `start`: the node begins a pass and shall be a dispatch node. -/
def State.fetchNode (s : State) (k node v : Nat) (start : Bool) : Option (List Byte) :=
  match s.nodeEnt k node v with
  | none => none
  | some e =>
    let disp := decide (128 ≤ leAt e 3 1)
    if entRsv 11 e ∨ entEnc 11 e ∨ leAt e 2 1 % 64 ≤ 1 ∨ disp ≠ start then none
    else if disp = false ∧ nodeBad e then none
    else some e

/-- The transition a select value takes (R118): some next node, or none for the end. -/
def transition (e : List Byte) (sel : Option Nat) : Option Nat :=
  let dflt := if leAt e 11 1 % 4 = 1 then some (leAt e 15 1) else none
  match sel with
  | none => dflt
  | some v =>
    match (List.range 8).find? (fun t =>
        let b := 16 + 6 * t
        decide (leAt e (b + 5) 1 % 4 ≠ 0) && decide (v &&& leAt e (b + 2) 2 = leAt e b 2 &&& leAt e (b + 2) 2)) with
    | some t => if leAt e (21 + 6 * t) 1 % 4 = 1 then some (leAt e (20 + 6 * t) 1) else none
    | none => dflt

/-- What a graph run has found so far. -/
structure Run where
  p    : Parse
  late : List Late := []
  off  : Nat := 0
  claim : Nat := 0
  deriving DecidableEq, Repr

/-- A run stops: kinds 1, 3, 8, 9 incomplete, the others malformed (R122). -/
def Run.stop (r : Run) (kind node off claim : Nat) : Run :=
  let mal := decide (kind = 2 ∨ kind = 4 ∨ kind = 5 ∨ kind = 6 ∨ kind = 7)
  { r with off, claim,
           p := { r.p with incomplete := !mal, malformed := mal, graphFault := decide (kind = 1), malNode := node, malKind := kind,
                           reason := if mal then 7 else 6 } }

/-- Hold a claim as late (R121). -/
def Run.hold (r : Run) (claim kind node start : Nat) : Run :=
  { r with late := r.late ++ [⟨claim, kind, node, start⟩], p := { r.p with latePend := true } }

/-- Run the graph from a node at a header start. `known`: the bytes present were known at parse start. DESIGN CHOICE: where
several fields of a node fail checks 2 or 3, the one captured is the first of length, total and select that does (R131). -/
def State.runGraph (s : State) (k v : Nat) (bs : List Byte) (known : Bool) : Nat → Nat → Nat → Run → Run
  | 0, node, start, r => r.stop 8 node start 0
  | n + 1, node, start, r =>
    match s.fetchNode k node v false with
    | none => r.stop 1 node start 0
    | some e =>
      let lf := if leAt e 3 1 % 4 = 1 then [(leAt e 6 1, leAt e 7 1 % 16)] else []
      let tf := if leAt e 3 1 / 16 % 4 ≠ 0 then [(leAt e 9 1, leAt e 10 1 % 32)] else []
      let sw := leAt e 14 1 % 32
      let sf := if sw ≠ 0 then [(leAt e 12 2 % 512, sw)] else []
      let ends := (lf ++ tf ++ sf).map (fun x => start + (x.1 + x.2 + 7) / 8)
      let past := match r.p.dataEnd with
        | some d => ends.find? (fun x => decide (d < x))
        | none => none
      match past, ends.find? (fun x => decide (256 < x)) with
      | some x, _ => r.stop 2 node start x
      | none, some x => r.stop 3 node start x
      | none, none =>
        let get := fun (l : List (Nat × Nat)) => match l with | x :: _ => frameBits bs start x.1 x.2 | [] => 0
        let len := leAt e 4 2 % 512 + (if lf.isEmpty then 0 else get lf * 2 ^ (leAt e 3 1 / 4 % 4))
        let hEnd := start + len
        if len < leAt e 8 1 then r.stop 4 node start hEnd
        else if (match r.p.dataEnd with | some d => decide (d < hEnd) | none => false) then r.stop 5 node start hEnd
        else
          let r := if r.p.dataEnd = none ∧ 256 < hEnd then r.hold hEnd 5 node start else r
          let tot := get tf
          let tm := leAt e 3 1 / 16 % 4
          let cEnd := if tm = 1 then start + tot else hEnd + tot
          if tm = 1 ∧ tot < len then r.stop 6 node start cEnd
          else if decide (tm ≠ 0) && (match r.p.dataEnd with | some d => decide (d < cEnd) | none => false) then r.stop 7 node start cEnd
          else
            let r :=
              if tm = 0 then r
              else match r.p.dataEnd with
                | some d => if cEnd < d then { r with p := { r.p with dataEnd := some cEnd, padded := r.p.padded || known } } else r
                | none =>
                  let r := r.hold cEnd 7 node start
                  if cEnd ≤ 256 then { r with p := { r.p with dataEnd := some cEnd } } else r
            let r := { r with p := { r.p with recs := r.p.recs ++ [(start, leAt e 2 1 % 64)] } }
            match transition e (if sw = 0 then none else some (get sf)) with
            | none => r
            | some next =>
              if 16 ≤ r.p.recs.length then r.stop 8 node start 0
              else if 256 ≤ hEnd then r.stop 9 node start 0
              else State.runGraph s k v bs known n next hEnd r

/-! ### The whole parse -/

/-- PRS_TPID and PRS_PORT_CFG_A in force for a version (R130). -/
def State.tpid (s : State) (k v : Nat) : Word := s.rwv (prsA k 0x040) v
def State.prsCfg (s : State) (k p v : Nat) : Word := s.rwv (prsA k (0x100 + 8 * p)) v

/-- Tags at the frame's start, at most two (R114). -/
def tagCount (tp : Word) (bs : List Byte) : Nat :=
  let isTag := fun (o : Nat) =>
    let e := beAt bs o 2
    decide (e = 0x8100) || (bit tp 16 && decide (e = fld tp 15 0))
  if isTag 12 then (if isTag 16 then 2 else 1) else 0

/-- R114, R115, R119, R122: the parse of a frame by pipeline k, and where it stopped. DESIGN CHOICE: a start node that fails
its fetch has no header, and the offset captured is that of the byte after the final EtherType. -/
def State.parseFrame (s : State) (k : Nat) (f : Frame) : Run :=
  let bs := f.bytes.take 256
  let v := f.version
  let cfg := s.prsCfg k f.inPort v
  let tags := tagCount (s.tpid k v) bs
  let tci := beAt bs 14 2
  let tagged := decide (0 < tags)
  let vid := if tagged = true ∧ tci % 4096 ≠ 0 then tci % 4096 else fld cfg 11 0
  let eoff := 12 + 4 * tags
  let p : Parse :=
    { recs := (0, 0) :: (List.range tags).map (fun i => (12 + 4 * i, 1)), tags,
      dataEnd := if f.complete then some (f.bytes.length - 4) else none,
      vid, pcp := if tagged then tci / 2 ^ 13 else 0, dei := if tagged then tci / 4096 % 2 else 0 }
  let r : Run := { p }
  let start := match f.startNode with
    | some n => some n
    | none => if bit cfg 31 then some (fld cfg 23 16) else none
  match start with
  | none => r
  | some node =>
    match s.fetchNode k node v true with
    | none => r.stop 1 node (eoff + 2) 0
    | some e =>
      match transition e (some (beAt bs eoff 2)) with
      | none => r
      | some next => s.runGraph k v bs f.complete 17 next (eoff + 2) r

/-- The 48 bytes of a parse result (R123). -/
def Frame.parseBytes (f : Frame) : List Byte :=
  let p := f.parse
  let de := match p.dataEnd with | some d => d | none => 0x3FFF
  leBytes 1 p.recs.length ++
  leBytes 1 (b2n p.incomplete + 2 * b2n p.malformed + 4 * b2n p.latePend + 8 * b2n p.l2Only + 16 * b2n p.padded +
    32 * b2n p.graphFault + 64 * b2n p.punt) ++
  leBytes 1 (f.domain + 16 * f.version) ++ leBytes 1 f.inPort ++ leBytes 1 (f.pass + 16 * p.tags) ++ leBytes 1 p.reason ++
  leBytes 2 de ++ leBytes 2 (p.vid + p.pcp * 4096 + p.dei * 32768) ++ leBytes 1 p.malNode ++ leBytes 1 p.malKind ++
  leBytes 4 0 ++ (List.range 16).flatMap (fun r =>
    match p.recs.drop r with | x :: _ => leBytes 1 x.1 ++ leBytes 1 x.2 | [] => [0, 0])

/-! ### Records of failures (R127) -/

/-- Capture of a parse failure, first-only, with event 0x4801. DESIGN CHOICE: of a claim end above 16,383, which the field
cannot hold, it shows the low 14 bits (R131). -/
def State.malCapture (s : State) (k : Nat) (f : Frame) (late : Bool) (kind reason node off claim : Nat) : State :=
  if s.b (prsA k 0x044) 31 then s
  else
    let c0 := 2 ^ 31 + b2n late * 2 ^ 30 + kind * 2 ^ 24 + reason * 65536 + f.inPort * 256 + f.version * 16 + f.domain
    let c1 := node * 2 ^ 24 + off % 256 * 65536 + claim % 16384
    ((s.wr (prsA k 0x044) (word c0)).wr (prsA k 0x048) (word c1)).report (prsPage k) 0 0x4801 c0 c1

/-- Count and capture a parse that ended incomplete or malformed. -/
def State.recordParse (s : State) (k : Nat) (f : Frame) (r : Run) : State :=
  let p := r.p
  if p.reason = 0 then s
  else
    let s := s.pmc (prsPage k) 7
    let s := s.bump (prsA k (if p.incomplete then 0x04C else 0x050))
    let s := if p.graphFault then s.bumpRise (prsA k 0x058) (prsPage k) 1 0x4802 else s
    s.malCapture k f false p.malKind p.reason p.malNode r.off r.claim

/-! ### Punt meters (R147) -/

/-- The bucket of punt meter `m` of pipeline k in millionths of a frame, and the configuration in force. -/
def State.puntBucket (s : State) (k m : Nat) : Nat × Word := (s.pol.punt.at none (k * 16 + m)).getD (16000000, word 0x10002710)

/-- Take one frame from a punt meter; false when it refuses. -/
def State.puntTake (s : State) (k m : Nat) : Bool × State :=
  let (b, c) := s.puntBucket k m
  if fld c 23 0 = 0 ∨ b < 1000000 then (false, s)
  else (true, { s with pol := { s.pol with punt := s.pol.punt.put none (k * 16 + m) (some (b - 1000000, c)) } })

/-- One refill of every punt meter, 1 µs after the last. -/
def State.puntRefill (s : State) : State :=
  let s' := forEach (List.range 80) s (fun s i =>
    let c := s.rd (pipA (i / 16) (0x0C0 + 4 * (i % 16)))
    let (b, _) := s.puntBucket (i / 16) (i % 16)
    let cap := fld c 31 24 * 1000000
    let b' := if s.pol.puntNew.contains (i % 16) then cap else min (b + fld c 23 0) cap
    { s with pol := { s.pol with punt := s.pol.punt.put none i (some (b', c)) } })
  { s' with pol := { s'.pol with puntNew := [] } }

def execPuntMeterRefill (s : State) : Host.Outcome State Fault Refusal := answer s s.puntRefill

/-- A punt is refused by its meter: PIP counter and cause bit 5 (R148, R162). -/
def State.puntRefused (s : State) (k : Nat) : State := s.bumpRise (pipA k 0x068) (pipPage k) 5 0x4C06

/-- A frame of `n` octets with destination `da` counts as received at a port (R409 slots 0x24 to 0x28, R413). -/
def State.rxSlots (s : State) (p n : Nat) (da : List Byte) : State :=
  let cls := if beAt da 0 6 = 0xFFFFFFFFFFFF then 0x28 else if beAt da 0 1 % 2 = 1 then 0x27 else 0x26
  let s := ((s.slot p 0x24).slot p 0x25 n).slot p cls
  { s with sta := { s.sta with bwRx := s.sta.bwRx.upd 0 p (fun x => x + n) } }

/-- A frame counts as received once it is both admitted and complete (R406, R409). -/
def State.rxCount (s : State) (fid : Nat) : State :=
  let f := s.frame fid
  if f.complete = false ∨ f.admitted = false ∨ f.pass ≠ 1 then s
  else s.rxSlots f.src (f.wireLen + f.secLen) f.bytes

/-- Note the order in which a frame reaches POL. -/
def State.reachPol (s : State) (fid : Nat) : State :=
  let f := s.frame fid
  if f.place = .police then { s.setFrame { f with ord := s.nextId } with nextId := s.nextId + 1 } else s

/-! ### Outcomes of R124 to R126 -/

/-- Whether receive ring `r` belongs to D0. -/
def State.ringIsD0 (s : State) (r : Nat) : Bool := decide (s.ringDomain r = 0)

/-- Slots of stages of pipeline k that a frame's token used (R414), once its fate is known: category 0 retired, 1 wasted. The
parser's slot counts in the period in which the token was admitted. -/
def State.topDown (s : State) (k fid : Nat) (stages : List Nat) (c : Nat) : State :=
  let page := fun (n : Nat) => if n = 12 ∧ s.behind (s.frame fid) = true then prsPage k else pipPage k
  forEach stages s (fun s n => s.cntAdd (page n) (0x10000 + (16 * k + n) * 32 + 8 * c) 1)

/-- A frame is dropped at step 4: its late claims are not evaluated (R125). -/
def State.dropParsed (s : State) (k fid r : Nat) : State :=
  (s.setFrame { s.frame fid with late := [] }).dropFrame (prsPage k) fid r

/-- R126: send a frame whole to its punt ring, or drop it. -/
def State.parsePunt (s : State) (k fid : Nat) : State :=
  let f := s.frame fid
  let cfg := s.rd (prsA k (0x104 + 8 * f.inPort))
  let ring := fld cfg 25 16
  if s.ringIsD0 ring = false then ((s.topDown k fid [12] 1).bump (pipA k 0x058)).dropParsed k fid 0x0A
  else
    let (ok, s) := s.puntTake k (fld cfg 7 4)
    if ok = false then ((s.puntRefused k).topDown k fid [12] 1).dropParsed k fid 0x0F
    else
      let s := ((s.topDown k fid [12] 0).bump (prsA k 0x05C)).bump (pipA k 0x064)
      let f := ((f.mdSet 8 3).mdSet 0x0D ring).mdSet 0x11 (0x8000 + f.parse.reason)
      (s.setFrame { f with place := .police, parse := { f.parse with punt := true } }).reachPol fid

/-- R448: the reason for which a frame's secure channel, or its want of one, drops it at step 4; 0 none. -/
def Frame.mscReason (f : Frame) : Nat :=
  match f.scOwner with
  | some o => if o ≠ f.domain then 0x0A else 0
  | none => if bitsOf f.clearReq f.domain f.domain = 1 then 0x17 else 0

/-- The reason under which R126 would drop a punt now; 0 none. -/
def State.puntReason (s : State) (k fid : Nat) : Nat :=
  let cfg := s.rd (prsA k (0x104 + 8 * (s.frame fid).inPort))
  if s.ringIsD0 (fld cfg 25 16) = false then 0x0A
  else if (s.puntTake k (fld cfg 7 4)).1 = false then 0x0F else 0

/-- R124 and R448: what follows a parse; true when the frame goes on to stage 0. A frame that several checks of step 4 would drop
goes under the lowest of their codes (R13). -/
def State.parseOutcome (s : State) (k fid : Nat) : Bool × State :=
  let f := s.frame fid
  let punted := decide (f.parse.reason ≠ 0) && decide (f.domain = 0) && s.b (prsA k (0x104 + 8 * f.inPort)) 0
  if f.mscReason ≠ 0 ∧ (f.parse.reason = 0 ∨ f.domain = 0) ∧ (punted = false ∨ s.puntReason k fid = 0 ∨ f.mscReason ≤ s.puntReason k fid) then
    (false, (s.topDown k fid [12] 1).dropParsed k fid f.mscReason)
  else if f.parse.reason = 0 then (true, s.pmc (prsPage k) 1)
  else if f.domain ≠ 0 then (false, (s.topDown k fid [12] 1).dropParsed k fid f.parse.reason)
  else if s.b (prsA k (0x104 + 8 * f.inPort)) 0 then (false, s.parsePunt k fid)
  else (true, (s.setFrame { f with parse := { f.parse with l2Only := true } }).pmc (prsPage k) 1)

/-! ### Packet breakpoints (R557) -/

/-- The breakpoints a parse result matches. -/
def State.bpHits (s : State) (k : Nat) (f : Frame) : List Nat :=
  let pb := f.parseBytes
  (List.range 8).filter (fun i =>
    let c := s.rd (dbgA (0x100 + 16 * i))
    let dm := s.rd (dbgA (0x10C + 16 * i))
    let m := (s.rd (dbgA (0x108 + 16 * i))).toNat
    bit c 0 && bit c (1 + k) && decide (leAt pb (4 * fld c 19 16) 4 &&& m = (s.rd (dbgA (0x104 + 16 * i))).toNat &&& m) &&
      (decide (fld c 30 24 = 127) || decide (fld c 30 24 = f.inPort)) && bit dm f.domain && bit dm (16 + f.version))

/-! ### Admission (R113, R154, R192) -/

/-- Whether pipeline k is halted by the debug port (R555); the group P4 covers halts with it. -/
def State.halted (s : State) (k : Nat) : Bool := s.b (dbgA 0x058) k

/-- The oldest frame of a port that waits for its parser. -/
def State.nextStaged (s : State) (p : Nat) : Option Frame :=
  (s.frames.filter (fun e => decide (e.2.inPort = p ∧ e.2.place = .staged))).foldl
    (fun (best : Option Frame) e =>
      match best with
      | none => some e.2
      | some b => if e.2.ord < b.ord then some e.2 else some b) none

/-- Whether a frame's parse can start (R113). -/
def Frame.parseReady (f : Frame) : Bool := f.complete || decide (256 ≤ f.bytes.length)

/-- Whether stage `n` of pipeline k holds a token. -/
def State.stageToken (s : State) (k n : Nat) : Option Frame :=
  (s.frames.find? (fun e => decide (e.2.pipe = k ∧ e.2.place = .stage n))).map (fun e => e.2)

/-- The source of a P4 admission (R154): 0 a covered front port, 1 the host, 2 ports 65 and 67, 3 recirculation. -/
def leeSource (p : Nat) : Nat := if p < 64 then 0 else if p = 64 then 1 else if p = 66 then 3 else 2

/-- The weight of a source in force. -/
def State.leeWeight (s : State) (i : Nat) : Nat :=
  s.f (pipA 4 (if s.covering then 0x08C else 0x088)) (8 * i + 5) (8 * i)

/-- Whether a source has a frame ready. -/
def State.leeWaiting (s : State) (i : Nat) : Bool :=
  s.frames.any (fun e => decide (e.2.place = .staged) && e.2.parseReady && !(s.behind e.2 && !s.passed (prsPage 4)) && decide (s.pipeOf e.2.inPort = 4) &&
    decide (leeSource e.2.inPort = i))

/-- Weighted round robin over 64 token opportunities: a source that has used its shares waits while another with shares
left has a token waiting; with none, the next round begins. None: the source is not served now. -/
def State.leeTurn (s : State) (i : Nat) : Option State :=
  let used := fun (j : Nat) => s.spr.lee.at 0 j
  let put := fun (m : SMap Nat) => { s with spr := { s.spr with lee := m } }
  if used i < s.leeWeight i then some (put (s.spr.lee.put 0 i (used i + 1)))
  else if (List.range 4).any (fun j => decide (j ≠ i ∧ used j < s.leeWeight j) && s.leeWaiting j) then none
  else some (put (SMap.put ([] : SMap Nat) 0 i 1))

/-- The domain of a frame at its first pass (R22, R167): none when its VID is unmapped. -/
def State.assignDomain (s : State) (k : Nat) (f : Frame) (vid : Nat) : Option Nat :=
  if f.inPort = 64 ∨ f.inPort = 67 then some f.domain else (s.vlanHalf k vid f.version).map (fun h => h.1)

/-- Admit a frame to the parser of pipeline k and parse it. DESIGN CHOICE: while late claims are pending and the parse has not
stopped, mal_node and mal_kind show the first of them (R123). -/
def State.admitFrame (s : State) (k : Nat) (f : Frame) : State :=
  let first := decide (f.pass = 1)
  let f := { f with after := s.frontMark (prsPage k), pipe := k, admitted := true, version := if first then s.verC else f.version }
  let s := if first then ((s.drainAdd f.version 1).led (prsPage k) 1 f.inPort 1).ledFrame (prsPage k) f.version 0 else s
  let s := s.pmc (prsPage k) 4
  let r := s.parseFrame k f
  let p := r.p
  if first = true ∧ f.inPort ≠ 64 ∧ f.inPort ≠ 67 ∧ s.unreadable k (entAt 1 p.vid) = true then
    ((((s.setFrame { f with parse := p, place := .stage 0 }).rxCount f.id).wordBad k (entAt 1 p.vid)).topDown k f.id [12] 1).dropFrame
      (prsPage k) f.id 0x1A
  else
  let dom := if first then s.assignDomain k f p.vid else some f.domain
  match dom with
  | none => ((s.setFrame { f with parse := p, place := .stage 0 }).rxCount f.id |>.topDown k f.id [12] 1).dropFrame (prsPage k) f.id 0x0A
  | some d =>
    let p := match r.late with
      | l :: _ => if p.malKind = 0 then { p with malNode := l.node, malKind := l.kind } else p
      | [] => p
    let f := { f with domain := d, prot := s.protectedDom d, parse := p, late := r.late }
    let f := ((f.mdSet 5 p.vid).mdSet 6 p.pcp).mdSet 7 p.dei
    let f := f.mdSet 0x0B (fld (s.rwv (pipA k 0x044) f.version) (3 * p.pcp + 2) (3 * p.pcp))
    let s := ((s.setFrame { f with place := .stage 0 }).rxCount f.id).recordParse k f r
    let hits := s.bpHits k f
    if hits.isEmpty then (s.parseOutcome k f.id).2
    else
      let s := s.setFrame { s.frame f.id with held := true }
      let before := s.f (dbgA 0x058) 4 0
      forEach hits s (fun s i =>
        let c := s.rd (dbgA (0x100 + 16 * i))
        if before &&& fld c 12 8 = fld c 12 8 ∧ fld c 12 8 ≠ 0 then s.setB (dbgA 0x060) i true
        else s.dbgHit i k f.inPort (fld c 12 8))

/-- Admission of the oldest ready frame of port `p` by pipeline k, when the pipeline runs and stage 0 is free. A group whose
pipeline, staging or policing is lost, or a device-critical loss, drops it instead (R489, R490). -/
def State.parseAdmit (s : State) (k p : Nat) (step : Bool) : State :=
  if s.pipeOf p ≠ k ∨ (s.halted k = true ∧ step = false) ∨ (s.stageToken k 0).isSome then s
  else
    match s.nextStaged p with
    | none => s
    | some f =>
      if f.parseReady = false ∨ (s.behind f = true ∧ s.passed (prsPage k) = false) then s
      else if s.critical ∨ s.regionLost (5 + f.grp) = true ∨ s.regionLost (10 + f.grp) = true ∨ (s.regionLost k = true ∧ s.b (pipA 4 0x084) 4 = false) then
        s.dropFrame (prsPage k) f.id 0x1A
      else if s.regionDown k then s
      else if k = 4 then
        match s.leeTurn (leeSource p) with
        | none => s
        | some s => s.admitFrame k f
      else s.admitFrame k f

def execParseAdmit (pipe : Group) (port : AnyPort) (s : State) : Host.Outcome State Fault Refusal :=
  answer s (s.parseAdmit pipe.val port.val false)

end Sys2Proof.Machine
end

