-- ==== Sys2Proof/Machine/Lookup.lean ====
section
/-! DEFINITION. Lookups (R134 to R137) and action sequences (R139 to R142), shared by the stages and the egress edit. -/

namespace Sys2Proof.Machine

/-- The bytes a header chunk may read: up to the data end and byte 255; everything past reads 0 (R136). -/
def Frame.visible (f : Frame) : List Byte :=
  f.bytes.take (match f.parse.dataEnd with | some d => min d 256 | none => 256)

/-- The start of occurrence `occ` of a header in the parse result. -/
def Frame.header (f : Frame) (hdr occ : Nat) : Option Nat :=
  match (f.parse.recs.filter (fun r => decide (r.2 = hdr))).drop occ with
  | r :: _ => some r.1
  | [] => none

/-- Where the TTL or hop limit of a header stands; none when it is not an IP header. DEDUCED: the front end's headers (hdr_id
0 Ethernet, 1 a tag) are none; of a header of the parse graph the version in its first bits tells. -/
def ttlAt (bs : List Byte) (hdr o : Nat) : Option Nat :=
  let ver := beAt bs o 1 / 16
  if hdr ≤ 1 then none else if ver = 4 then some (o + 8) else if ver = 6 then some (o + 7) else none

/-- The key a template makes. -/
inductive Key where
  | bad | absent | ok (n width : Nat)
  deriving DecidableEq, Repr

/-- A key from template `tp` of copy `k`: invalid without a valid chunk or with a reserved metadata field, absent when a
named header is missing (R136, R137). -/
def State.tplKey (s : State) (k tp : Nat) (f : Frame) : Key :=
  let e := s.ent k 13 tp
  let chunks := (List.range 8).filter (fun c => decide (128 ≤ leAt e (4 * c) 1))
  let meta_ := fun (c : Nat) => decide (bitsOf (leAt e (4 * c) 1) 6 6 = 1)
  let id := fun (c : Nat) => leAt e (4 * c) 1 % 64
  let width := fun (c : Nat) => leAt e (4 * c + 2) 2 / 512 % 64 + 1
  if chunks.isEmpty ∨ chunks.any (fun c => meta_ c && decide (0x1A ≤ id c)) then .bad
  else if chunks.any (fun c => !meta_ c && (f.header (id c) (leAt e (4 * c + 1) 1 % 4)).isNone) then .absent
  else
    let r := chunks.foldl (fun (a : Nat × Nat) c =>
      let w := width c
      let v := if meta_ c then f.mdGet (id c) % 2 ^ w
        else frameBits f.visible ((f.header (id c) (leAt e (4 * c + 1) 1 % 4)).getD 0) (leAt e (4 * c + 2) 2 % 512) w
      (a.1 * 2 ^ w + v, a.2 + w)) (0, 0)
    .ok r.1 r.2

/-- Key width of a template without its value. -/
def State.tplWidth (s : State) (k tp : Nat) : Nat :=
  let e := s.ent k 13 tp
  sumBy (fun c => if 128 ≤ leAt e (4 * c) 1 then leAt e (4 * c + 2) 2 / 512 % 64 + 1 else 0) (List.range 8)

/-- Whether a key is wider than its table's; the map takes the low 12 bits of any key (R134). -/
def tooWide (t w : Nat) : Bool := decide (t ≠ 1) && decide (keyBits t < w)

/-- A lookup in a table of copy `k`: the index of the entry hit (for an LPM hit the nexthop), none on a miss. -/
def State.lookupIn (s : State) (k t : Nat) (f : Frame) (key : Nat) : Option Nat :=
  match t with
  | 1 => match s.vlanHalf k (key % 4096) f.version with
    | some (d, _, _) => if d = f.domain then some (key % 4096) else none
    | none => none
  | 2 => s.lpm k 2 f.domain key f.version
  | 3 => s.lpm k 3 f.domain key f.version
  | 6 => s.ternary k f.domain key f.version
  | _ => s.exact k t f.domain key f.version

/-- A program fault: counted, with cause bit 1 (R138, R162). -/
def State.progFault (s : State) (k : Nat) : State := (s.pmc (pipPage k) 7).bumpRise (pipA k 0x06C) (pipPage k) 1 0x4C02

/-! ### Action sequences -/

/-- Widths of the metadata fields (R138). -/
def mdWidth (id : Nat) : Nat :=
  [4, 3, 7, 7, 2, 12, 3, 1, 3, 7, 16, 3, 3, 10, 16, 16, 8, 16, 12, 20, 7, 16, 1, 16, 1, 32].getD id 0

/-- Fields that SET and COPY may write. -/
def mdWritable (id : Nat) : Bool := [5, 6, 7, 0x0B, 0x0C, 0x0D, 0x0E, 0x0F, 0x10, 0x11, 0x12, 0x19].contains id

/-- Set the destination unless the frame is already to be dropped (R142). -/
def Frame.setDest (f : Frame) (g : Frame → Frame) : Frame := if f.mdGet 8 = 5 then f else g f

def Frame.fwd (f : Frame) (port : Nat) : Frame := f.setDest (fun f => (f.mdSet 8 1).mdSet 9 port)
def Frame.mcast (f : Frame) (group : Nat) : Frame := f.setDest (fun f => (f.mdSet 8 2).mdSet 0x0A group)
/-- FWD and MCAST with from_l2: as the L2 hit's entry is. -/
def Frame.fromL2 (f : Frame) : Frame :=
  if f.mdGet 0x16 = 0 then f else if f.acts.l2Mcast then f.mcast (f.mdGet 0x15) else f.fwd (f.mdGet 0x14)

/-- One primitive; none for a program fault, which does nothing (R141). -/
def Frame.prim (f : Frame) (w : Nat) : Option Frame :=
  let op := w / 2 ^ 26
  let arg := w % 2 ^ 26
  let chk := fun (mask : Nat) (r : Option Frame) => if arg &&& mask = arg then r else none
  match op with
  | 0 => chk 0 (some f)
  | 1 =>
    let id := arg / 65536
    let v := arg % 65536
    chk 0x3FFFFF (if mdWritable id = true ∧ v < 2 ^ mdWidth id then some (f.mdSet id v) else none)
  | 2 =>
    let dst := arg / 65536
    let src := arg / 256 % 64
    chk 0x3F3F00 (if mdWritable dst = true ∧ src < 0x1A then some (f.mdSet dst (f.mdGet src % 2 ^ mdWidth dst)) else none)
  | 3 => chk 0xFF (if 128 ≤ arg then some f.fromL2 else if arg < 68 then some (f.fwd arg) else none)
  | 4 => chk 0x1FFFF (if 65536 ≤ arg then some f.fromL2 else some (f.mcast arg))
  | 5 => chk 0x3F (some ((f.mdSet 0x0B (arg / 8)).mdSet 0x0C (arg % 8)))
  | 6 => chk 0 (some (f.mdSet 8 5))
  | 7 => chk 0xFFC0F (some (f.setDest (fun f =>
      { f.mdSet 8 3 with acts := { f.acts with puntRing := arg / 1024, puntMeter := arg % 16 } })))
  | 8 => chk 0xFFFF (some (f.mdSet 0x0E arg))
  | 9 => chk 0xFFFF (some (f.mdSet 0x0F arg))
  | 10 => chk 0xFF (some (f.mdSet 0x10 (f.mdGet 0x10 ||| arg)))
  | 11 => chk 0 (some { f with acts := { f.acts with noLearn := true } })
  | 12 => chk 0x1FF (some (f.setDest (fun f =>
      { f.mdSet 8 4 with acts := { f.acts with recirc := if 256 ≤ arg then none else some arg } })))
  | 13 => chk 0xFFF (some (f.mdSet 0x12 arg))
  | 14 => chk 0x33F (some { f with acts := { f.acts with ttl := some (arg % 64, arg / 256) } })
  | 15 => chk 0 (some { f with acts := { f.acts with rnatReq := true } })
  | _ => none

/-- Whether a sequence may run for a frame (R140). -/
def State.seqOk (s : State) (k i : Nat) (f : Frame) : Bool :=
  let e := s.ent k 9 i
  decide (leAt e 1 1 % 16 = f.domain) && (entVers 9 0 e).any (fun x => liveFor x.1 x.2.1 f.version)

/-- Run sequence `i` and those chained to it, at most `n` in all; the frame's record holds the result. -/
def State.runSeq (s : State) (k fid : Nat) : Nat → Nat → State
  | 0, i => if i = 0 then s else s.progFault k
  | n + 1, i =>
    if i = 0 then s
    else if s.seqOk k i (s.frame fid) = false then s.progFault k
    else
      let e := s.ent k 9 i
      let s := forEach (List.range (leAt e 1 1 / 16 % 8)) s (fun s j =>
        match (s.frame fid).prim (leAt e (4 + 4 * j) 4) with
        | some f => s.setFrame f
        | none => s.progFault k)
      if 128 ≤ leAt e 3 1 then State.runSeq s k fid n (leAt e 2 2 % 16384) else s

end Sys2Proof.Machine
end

