-- ==== Sys2Proof/Machine/Pipeline.lean ====
section
/-! DEFINITION. The match-action stages (R133 to R143), the end of the ingress pass, unmatched traffic, and the takeover
commands (R155 to R158). -/

namespace Sys2Proof.Machine

/-! ### The learn check (R174, R176) -/

/-- The source-address lookup of a slot with src 1, on pass 1 of a frame from ports 0 to 64: the hit bit, a frozen entry, at
most one learn request. -/
def State.learnCheck (s : State) (k fid key : Nat) (found : Option Nat) : State :=
  let f := s.frame fid
  if f.pass ≠ 1 ∨ 64 < f.inPort then s
  else
    let s := match found with
      | some j =>
        let e := s.ent k 0 j
        if isLearned e = true ∧ bitsOf (leAt e 9 1) 0 0 = 0 ∧ leAt e 10 2 = f.inPort then s.setHit k j true else s
      | none => s
    let learn : Bool := match s.vlanHalf k (key / 2 ^ 48) f.version with | some (_, l, _) => l | none => false
    let ask := s.setFrame { f with acts := { f.acts with learn := some ⟨f.domain, key / 2 ^ 48, key % 2 ^ 48, f.inPort⟩ } }
    let grp : Bool := decide (key % 2 ^ 48 / 2 ^ 40 % 2 = 1)
    match found.orElse (fun _ => s.keyIn k 0 f.domain key) with
    | none => if learn && !grp then ask else s
    | some j =>
      let e := s.ent k 0 j
      let same := decide (bitsOf (leAt e 9 1) 0 0 = 0 ∧ leAt e 10 2 = f.inPort)
      if same then s
      else if isLearned e = false then s.bump (lrnA 0x078)
      else if bitsOf (leAt e 9 1) 1 1 = 1 then s.setFrame { f with acts := { f.acts with frozen := true } }
      else if learn && !grp then ask else s

/-! ### A stage -/

/-- What a slot has come to: the sequence to run, none for no sequence. -/
def State.slotResult (s : State) (k fid : Nat) (f0 : Frame) (e : List Byte) (sl : Nat) : Nat × State :=
  let fl := leAt e (8 + 8 * sl) 1
  let t := leAt e (9 + 8 * sl) 1 % 16
  let hw := leAt e (12 + 8 * sl) 2
  let mw := leAt e (14 + 8 * sl) 2
  let hit := if 32768 ≤ hw then 0 else hw % 16384
  let miss := if 32768 ≤ mw then 0 else mw % 16384
  let ip := decide (bitsOf fl 1 1 = 1)
  let src := decide (bitsOf fl 2 2 = 1)
  if f0.parse.l2Only ∧ (t = 2 ∨ t = 3 ∨ t = 4 ∨ ip) then (0, s)
  else if t = 15 then (miss, s)
  else if f0.direct.isSome ∧ (t = 0 ∨ t = 2 ∨ t = 3) then (0, s)
  else if 7 ≤ t then (miss, s.progFault k)
  else if tooWide t (s.tplWidth k (leAt e (10 + 8 * sl) 1)) then (miss, s.progFault k)
  else
    match s.tplKey k (leAt e (10 + 8 * sl) 1) f0 with
    | .bad => (miss, s.progFault k)
    | .absent => (miss, s)
    | .ok key _ =>
      match s.badLookup k t f0.domain key with
      | some o => (0, (s.wordBad k o).setFrame (let f := s.frame fid; { f with acts := { f.acts with badWord := true } }))
      | none =>
      let r := s.lookupIn k t f0 key
      let s := if t = 0 ∧ src then s.learnCheck k fid key r else s
      match r with
      | none => (miss, s)
      | some j =>
        let f := s.frame fid
        match t with
        | 0 =>
          if src then (hit, s)
          else
            let m := s.ent k 0 j
            let mc := decide (bitsOf (leAt m 9 1) 0 0 = 1)
            let f := { f.mdSet 0x16 1 with acts := { f.acts with l2Mcast := mc } }
            (hit, s.setFrame (if mc then f.mdSet 0x15 (leAt m 10 2) else f.mdSet 0x14 (leAt m 10 2 % 128)))
        | 1 =>
          match s.vlanHalf k j f0.version with
          | some (_, _, attr) => (hit, s.setFrame (f.mdSet 0x17 attr))
          | none => (hit, s)
        | 4 => (hit, s.setFrame { f.mdSet 0x18 1 with acts := { f.acts with rnatEnt := s.ent k 4 j } })
        | 5 => (hit, s.setFrame (f.mdSet 0x0F (leAt (s.ent k 5 j) 14 2)))
        | 6 =>
          let a := sfld (s.ent k 6 j) 248 235
          (if a ≠ 0 then a else hit, s)
        | _ => (hit, s.setFrame (f.mdSet 0x13 j))

/-- The stage programs of a stage live for a version in copy `k`. -/
def State.stageProgs (s : State) (k n v : Nat) : List Nat :=
  (List.range 64).filter (fun i =>
    let e := s.ent k 12 i
    decide (leAt e 0 1 % 16 = n) && (entVers 12 0 e).any (fun x => liveFor x.1 x.2.1 v))

/-- R133, R135: the lookups of a stage on the metadata as the frame entered it; the results and the sequences they select are
written in slot order (R142). -/
def State.runStage (s : State) (k n fid : Nat) : State :=
  let f0 := s.frame fid
  match s.stageProgs k n f0.version with
  | [] => s
  | [i] =>
    let e := s.ent k 12 i
    let slots := (List.range 4).filter (fun sl => decide (leAt e (8 + 8 * sl) 1 % 2 = 1))
    forEach slots s (fun s sl =>
      let (q, s) := s.slotResult k fid f0 e sl
      s.runSeq k fid 3 q)
  | _ => s.progFault k

/-! ### The end of the ingress pass (R143, R144) -/

/-- The final EtherType of a frame (R114). -/
def Frame.etherType (f : Frame) : Nat := beAt f.bytes (12 + 4 * f.parse.tags) 2

/-- A drop of PIP under its own counter. -/
def State.pipDrop (s : State) (k fid r cnt : Nat) : State := (s.bump (pipA k cnt)).dropFrame (pipPage k) fid r

/-- A drop with reason 0x08 (R146). -/
def State.unmatchedDrop (s : State) (k fid : Nat) : State :=
  let f := s.frame fid
  let s := if s.b (pipA k 0x048) 31 then s
    else
      let c0 := 2 ^ 31 + f.inPort * 256 + f.version * 16 + f.domain
      let c1 := f.mdGet 5 * 65536 + f.etherType
      ((s.wr (pipA k 0x048) (word c0)).wr (pipA k 0x04C) (word c1)).report (pipPage k) 0 0x4C01 c0 c1
  s.pipDrop k fid 0x08 0x050

/-- A punt to a ring through a meter, orders 9 and 10 of R143; then on to POL. DESIGN CHOICE: R148 does not say where a punt
counts as delivered; PIP_CNT_PUNT counts it here, where the pipeline is done with it. -/
def State.settlePunt (s : State) (k fid ring meter code : Nat) : State :=
  let f := s.frame fid
  if f.domain ≠ 0 ∨ s.ringIsD0 ring = false then s.pipDrop k fid 0x0A 0x058
  else
    let (ok, s) := s.puntTake k meter
    if ok = false then (s.puntRefused k).dropFrame (pipPage k) fid 0x0F
    else
      let f := ((f.mdSet 8 3).mdSet 0x0D ring).mdSet 0x11 code
      (s.bump (pipA k 0x064)).setFrame { f with place := .police }

/-- A fourth pass is refused (order 7, R20, R150). -/
def State.passLimit (s : State) (k fid : Nat) : State := (s.bumpRise (pipA k 0x060) (pipPage k) 2 0x4C03).dropFrame (pipPage k) fid 0x21

/-- A unicast or default-queue destination: the fence of order 11, then on to POL. One toward port 66 is a recirculation, with
its pass limit and its count (R20, R150). -/
def State.settleUnicast (s : State) (k fid : Nat) : State :=
  let f := s.frame fid
  let round := decide (f.mdGet 9 = 66)
  let owner := if f.mdGet 9 = 64 then s.ringDomain (f.mdGet 0x0D) else s.qOwner f.queueId
  if round = true ∧ f.pass = 3 then s.passLimit k fid
  else if owner ≠ f.domain then s.pipDrop k fid 0x0A 0x058
  else (s.when round (fun s => s.bump (pipA k 0x05C))).setFrame { f with place := .police }

/-- The unmatched default entry applies (R144). -/
def State.settleUnmatched (s : State) (k fid : Nat) : State :=
  let f := s.frame fid
  let e := s.ent k 14 (f.inPort * 16 + f.domain)
  match leAt e 0 1 % 4 with
  | 1 =>
    let q := leAt e 2 2 % 4096
    (s.setFrame ((((f.mdSet 8 1).mdSet 9 (q / 64)).mdSet 0x0B (q / 8 % 8)).mdSet 0x0C (q % 8))).settleUnicast k fid
  | 2 => s.settlePunt k fid (leAt e 4 2 % 1024) (leAt e 6 1 % 16) 0x8008
  | _ => s.unmatchedDrop k fid

/-- Whether a TTL request cannot be met: value 0 or 1, an absent header, or neither IPv4 nor IPv6 (order 5). -/
def Frame.ttlFails (f : Frame) : Bool :=
  match f.acts.ttl with
  | none => false
  | some (hdr, occ) =>
    match f.header hdr occ with
    | none => true
    | some o =>
      match ttlAt f.visible hdr o with
      | none => true
      | some p => decide (beAt f.visible p 1 ≤ 1)

/-- A frame sent round again: counted, and carried on to POL toward port 66 (R149, R150). -/
def State.settleRecirc (s : State) (k fid : Nat) : State :=
  let f := s.frame fid
  (s.bump (pipA k 0x05C)).setFrame { (f.mdSet 9 66) with place := .police }

/-- Settle a frame after stage 11 in the order of R143; a frame that is not dropped makes its learn request. -/
def State.settlePass (s : State) (k fid : Nat) : State :=
  let f := s.frame fid
  let s := s.pmc (pipPage k) 4
  let s := s.capOffer 0 f.inPort f.src (fun _ => true) (f.info 0)
  let s := s.capOffer 2 f.inPort f.src (fun sess => decide (bitsOf (f.mdGet 0x10) sess sess = 1)) (f.info 0)
  let wcmd := decide (f.pass = 1) && decide (f.etherType = 0x88B5)
  let wbad := !s.b (pipA k (0x200 + 4 * f.inPort)) 0 || decide (beAt f.bytes (15 + 4 * f.parse.tags) 1 % 16 ≠ f.domain)
  let dest := f.mdGet 8
  if f.acts.frozen then s.dropFrame (pipPage k) fid 0x0B
  else if wcmd ∧ wbad then (s.bumpRise (pipA k 0x070) (pipPage k) 3 0x4C04).dropFrame (pipPage k) fid 0x22
  else if dest = 5 ∧ wcmd = false then s.pipDrop k fid 0x09 0x054
  else if f.ttlFails then s.dropFrame (pipPage k) fid 0x1D
  else if f.acts.rnatReq ∧ f.mdGet 0x18 = 0 then s.dropFrame (pipPage k) fid 0x1E
  else
    let s' :=
      if wcmd then (s.setFrame ((f.mdSet 8 1).mdSet 9 67)).settleUnicast k fid
      else if dest = 4 ∧ f.pass = 3 then s.passLimit k fid
      else if dest = 4 then s.settleRecirc k fid
      else match f.direct with
        | some q => (s.setFrame ((((f.mdSet 8 1).mdSet 9 (q / 64)).mdSet 0x0B (q / 8 % 8)).mdSet 0x0C (q % 8))).settleUnicast k fid
        | none =>
          if dest = 0 then s.settleUnmatched k fid
          else if dest = 3 then s.settlePunt k fid f.acts.puntRing f.acts.puntMeter (f.mdGet 0x11 % 32768)
          else if dest = 1 then s.settleUnicast k fid
          else s.setFrame { f with place := .police }
    match f.acts.learn with
    | some r =>
      if (s'.frame fid).place = .police ∧ f.acts.noLearn = false ∧ s'.b (lrnA 0x040) 0 = true then s'.learnRequest r else s'
    | none => s'

/-! ### Tokens -/

/-- A token of stage `n` goes on when its way is free: to the entry of the next stage, or settled after stage 11. A frame a
breakpoint held takes the outcome of R124 first; one whose lookup read an uncorrectable word is dropped (R489). -/
def State.stageStep (s : State) (k n : Nat) (step : Bool) : State :=
  if (s.halted k = true ∧ step = false) ∨ s.regionDown k = true ∨ (n < 11 ∧ (s.stageToken k (n + 1)).isSome) then s
  else
    match s.stageToken k n with
    | none => s
    | some f =>
      if n = 11 ∧ s.behind f = true ∧ s.passed (pipPage k) = false then s else
      let (go, s) := if f.held then (s.setFrame { f with held := false }).parseOutcome k f.id else (true, s)
      if go = false then s
      else
        let s := s.runStage k n f.id
        let f := s.frame f.id
        if f.acts.badWord then (s.topDown k f.id (12 :: List.range (n + 1)) 1).dropFrame (pipPage k) f.id 0x1A
        else if n < 11 then (s.setFrame { f with place := .stage (n + 1) }).pmc (pipPage k) 1 else
          let s := s.settlePass k f.id
          (s.topDown k f.id (List.range 13) (if (s.frame f.id).place = .police then 0 else 1)).reachPol f.id

def execPipelineStage (pipe : Group) (stage : Fin 12) (s : State) : Host.Outcome State Fault Refusal :=
  answer s (s.stageStep pipe.val stage.val false)

/-! ### Takeover commands -/

/-- R155: a host write of force_en 1 with force_group; auto_en and the rest keep their values. -/
def State.force (s : State) (g : Nat) : State :=
  s.hostWriteWith (pipA 4 0x080) (word (1 + 2 * g + s.f (pipA 4 0x080) 8 8 * 256)) true (fun _ s => s.startTakeover g true)

def execTakeoverForce (group : Fin 4) (s : State) : Host.Outcome State Fault Refusal := answer s (s.force group.val)

/-- Whether a port of a group has a token inside a pipeline. -/
def State.portInside (s : State) (k p : Nat) : Bool :=
  s.frames.any (fun e => decide (e.2.pipe = k ∧ e.2.inPort = p) && (match e.2.place with | .stage _ => true | _ => false))

/-- SPR covers the lowest group that is lost for want of cover, when it may (R495). -/
def State.coverNext (s : State) : State :=
  match (List.range 4).find? (fun g => decide (s.region g = 2) && s.canCover g) with
  | some g => ((s.startTakeover g false).setRegion g 1).refreshDegrade
  | none => s

/-- The takeover has ended: its last port has returned (R158). A repaired group is good again; a faulty one is lost. -/
def State.endTakeover (s : State) : State :=
  let k := s.coveredGroup
  let s := if s.region k = 4 then ((s.setRegion k 0).setB (pipA k 0x040) 1 false).setB (pipA k 0x040) 0 true
    else if s.regionDown k then s.setRegion k 2 else s
  let s := (s.setB (pipA 4 0x080) 16 false).wr (pipA 4 0x084) (word (s.f (pipA 4 0x084) 31 16 * 65536))
  (((s.setB (pipA k 0x040) 2 false).report (pipPage 4) 4 0x4C05).refreshDegrade).coverNext

/-- A port of the covered group switches at a frame boundary: into P4, or back once release is set. -/
def State.portSwitch (s : State) (p : Nat) : State :=
  let k := s.coveredGroup
  if s.covering = false ∨ p / 16 ≠ k then s
  else if s.b (pipA 4 0x080) 16 then
    if s.spr.moved.contains p = true ∧ s.portInside 4 p = false then
      let s := { s with spr := { s.spr with moved := s.spr.moved.filter (fun q => decide (q ≠ p)) } }
      if s.spr.moved.isEmpty then s.endTakeover else s
    else s
  else if s.spr.moved.contains p = false ∧ s.portInside k p = false then
    let s := { s with spr := { s.spr with moved := p :: s.spr.moved } }
    if s.spr.moved.length = 16 then s.setB (pipA 4 0x084) 4 false else s
  else s

def execTakeoverPortSwitch (port : Port) (s : State) : Host.Outcome State Fault Refusal := answer s (s.portSwitch port.val)

/-- R158: release. With no port switched yet the takeover ends at once; after an automatic one that another lost group may
follow, SPR starts the takeover of the lowest such group when it has ended (R495). -/
def State.release (s : State) : State :=
  if s.covering = false then s.setB (pipA 4 0x080) 16 false
  else if s.spr.moved.isEmpty then s.endTakeover
  else s.setB (pipA 4 0x084) 4 true

def execTakeoverRelease (s : State) : Host.Outcome State Fault Refusal :=
  answer s (s.hostWriteWith (pipA 4 0xC80) 0x00010001 true (fun _ s => s.release))

end Sys2Proof.Machine
end

