-- ==== Sys2Proof/Machine/Police.lean ====
section
/-! DEFINITION. Stream filtering and policing (chapter 9), and the entry of a passed frame into its send queue (R233, R252). -/

namespace Sys2Proof.Machine

/-! ### The meter array window (R225) -/

def polWin (k : Nat) : Nat := 0x3000000 + k * 0x100000
def meterA (k m : Nat) : Nat := polWin k + 32 * m
def filterA (k i : Nat) : Nat := polWin k + 0x40000 + 16 * i
def gateA (k i : Nat) : Nat := polWin k + 0x50000 + 16 * i
def schedA (k i : Nat) : Nat := polWin k + 0x60000 + 128 * i
def seqA (k i : Nat) : Nat := polWin k + 0x70000 + 8 * i

/-- Meters of POL k (R218). -/
def meterCount (k : Nat) : Nat := if k = 4 then 2048 else 8192

/-! ### Gate schedules (R214 to R217) -/

/-- The schedule content in force: what its last cycle start took in. -/
def State.sched (s : State) (k j : Nat) : List Byte := s.pol.scheds.at [] (k * 256 + j)

def schedValid (c : List Byte) : Bool := decide (128 ≤ leAt c 10 1)

/-- The entry of a schedule in force at a time: none before its base, and when every entry used has interval 0. -/
def schedEntry (c : List Byte) (sec ns : Nat) : Option Nat :=
  let n := leAt c 11 1 % 16
  let live := (List.range n).filter (fun e => decide (leAt c (16 + 8 * e) 4 ≠ 0))
  let now := sec * 1000000000 + ns
  let base := leAt c 4 6 * 1000000000 + leAt c 0 4
  if now < base ∨ live.isEmpty ∨ leAt c 12 4 = 0 then none
  else
    let t := (now - base) % leAt c 12 4
    let r := live.foldl (fun (a : Option Nat × Nat) e =>
      if a.1.isSome then a
      else
        let edge := a.2 + leAt c (16 + 8 * e) 4
        (if t < edge then some e else none, edge)) (none, 0)
    match r.1 with
    | some e => some e
    | none => live.getLast?

/-- Bring a schedule's entry to the present time of its base. -/
def State.schedNow (s : State) (k j : Nat) : State :=
  let c := s.sched k j
  let t := s.tb (leAt c 10 1 % 4)
  let e := if schedValid c then schedEntry c t.sec t.ns else none
  { s with pol := { s.pol with entry := s.pol.entry.put none (k * 256 + j) e } }

/-- Take a schedule in whole (R217). -/
def State.schedTake (s : State) (k j : Nat) : State :=
  let c := s.winRd (schedA k j) 128
  let c := if schedValid c then c else []
  let s := { s with pol := { s.pol with scheds := s.pol.scheds.put [] (k * 256 + j) c } }
  s.schedNow k j

/-- Whether the TSU is isolated: stream gates then hold static_open (R486). -/
def State.tsuDown (s : State) : Bool := s.regionDown 61

/-- R216: an entry boundary of a schedule. -/
def execStreamGateEntry (pol : Group) (sched : Fin 256) (s : State) : Host.Outcome State Fault Refusal :=
  answer s (if s.tsuDown then s else s.schedNow pol.val sched.val)

/-- R217: a cycle start of a schedule that is in force. -/
def execScheduleCycleStart (pol : Group) (sched : Fin 256) (s : State) : Host.Outcome State Fault Refusal :=
  answer s (if s.tsuDown = false ∧ schedValid (s.sched pol.val sched.val) then s.schedTake pol.val sched.val else s)

/-- Every schedule of a time base that has been set or stepped takes its position from the new time (R215). -/
def State.schedReposition (s : State) (b : Nat) : State :=
  forEach (s.pol.scheds.map (fun e => e.1)) s (fun s key =>
    if leAt (s.sched (key / 256) (key % 256)) 10 1 % 4 = b then s.schedNow (key / 256) (key % 256) else s)

/-! ### Stream gates (R213) -/

/-- Whether a gate is open, and the gate group it gives: its schedule's entry, or its static state. -/
def State.gateState (s : State) (k g : Nat) : Bool × Option Nat :=
  let e := s.winRd (gateA k g) 16
  let fl := leAt e 0 1
  let j := leAt e 2 1
  let static := decide (bitsOf fl 1 1 = 1)
  if bitsOf fl 2 2 = 0 ∨ s.tsuDown then (static, none)
  else
    match s.pol.entry.at none (k * 256 + j) with
    | none => (static, none)
    | some n =>
      let w := leAt (s.sched k j) (20 + 8 * n) 1
      (decide (w % 2 = 1), if bitsOf w 1 1 = 1 then some (bitsOf w 4 2) else none)

/-- Gate state as POL_GATE_STATE shows it: inv_rx included. -/
def State.gateShown (s : State) (k g : Nat) : Bool :=
  (s.gateState k g).1 && decide (bitsOf (s.winLE (gateA k g) 1) 4 4 = 0) && decide (s.winLE (gateA k g) 1 % 2 = 1)

/-! ### Meters (R218 to R221) -/

/-- The configuration of a meter in force: bytes 0 to 23, empty while none is. -/
def State.meterCfg (s : State) (k m : Nat) : List Byte := s.pol.meters.at [] (k * 8192 + m)
def meterEn (c : List Byte) : Bool := decide (leAt c 18 1 % 2 = 1)

def State.tc (s : State) (k m : Nat) : Nat := s.winLE (meterA k m + 24) 4
def State.tp (s : State) (k m : Nat) : Nat := s.winLE (meterA k m + 28) 4
def State.setBuckets (s : State) (k m tc tp : Nat) : State := (s.winPut (meterA k m + 24) 4 tc).winPut (meterA k m + 28) 4 tp

/-- The ledger instance of a POL's committed (0) or peak (1) buckets (R389 account 9). -/
def meterInst (k peak : Nat) : Nat := 2 * k + peak

/-- One bucket at a refill that adds `inc` under burst `cap` (R220): what it holds, and what the bound refused. -/
def refillBucket (have_ inc cap : Nat) : Nat × Nat := (min cap (have_ + inc), have_ + inc - min cap (have_ + inc))

/-- A staged configuration comes into force (R221): buckets above the new bursts are cut, and with fill they are full. -/
def State.meterLoad (s : State) (k m : Nat) : State :=
  let c := s.winRd (meterA k m) 24
  let fill := decide (bitsOf (leAt c 18 1) 5 5 = 1)
  let set := fun (s : State) (peak have_ cap : Nat) =>
    let cut := have_ - min have_ cap
    let add := if fill then cap - min have_ cap else 0
    ((s.led (polPage k) 9 (meterInst k peak) 2 cut).led (polPage k) 9 (meterInst k peak) 0 add, min have_ cap + add)
  let (s, tc) := set s 0 (s.tc k m) (256 * leAt c 8 3)
  let (s, tp) := set s 1 (s.tp k m) (256 * leAt c 12 3)
  let s := { s with pol := { s.pol with meters := s.pol.meters.put [] (k * 8192 + m) c } }
  (s.setBuckets k m tc tp).winPut (meterA k m + 19) 1 (leAt c 19 1 % 128)

/-- Whether a meter's written configuration awaits its refill. -/
def State.meterStaged (s : State) (k m : Nat) : Bool := decide (128 ≤ s.winLE (meterA k m + 19) 1)

/-- A meter's refill (R220, R221). -/
def State.meterRefill (s : State) (k m : Nat) : State :=
  if m ≥ meterCount k then s
  else
    let staged := s.meterStaged k m
    let s := if staged then s.meterLoad k m else s
    let c := s.meterCfg k m
    if meterEn c = false ∨ (staged = true ∧ bitsOf (leAt c 18 1) 5 5 = 1) then s
    else
      let (tc, dc) := refillBucket (s.tc k m) (leAt c 0 4) (256 * leAt c 8 3)
      let (tp, dp) := refillBucket (s.tp k m) (leAt c 4 4) (256 * leAt c 12 3)
      let base := 0x100000 + (8192 * k + m) * 64
      let s := (s.setBuckets k m tc tp).cntAdd (polPage k) (base + 24) dc |>.cntAdd (polPage k) (base + 32) dp
      let s := (s.led (polPage k) 9 (meterInst k 0) 0 (leAt c 0 4)).led (polPage k) 9 (meterInst k 0) 2 dc
      (s.led (polPage k) 9 (meterInst k 1) 0 (leAt c 4 4)).led (polPage k) 9 (meterInst k 1) 2 dp

/-- Colour a frame of cost `cost` (R219): 0 green, 1 yellow, 2 red. -/
def State.meterColour (s : State) (k m cost : Nat) (dei : Bool) : Nat × State :=
  let c := s.meterCfg k m
  let aware := decide (bitsOf (leAt c 18 1) 2 2 = 1)
  let tc := s.tc k m
  let tp := s.tp k m
  let took := fun (s : State) (n : Nat) (peakOnly : Bool) =>
    let s := s.led (polPage k) 9 (meterInst k 1) 1 n
    if peakOnly then s else s.led (polPage k) 9 (meterInst k 0) 1 n
  let (col, s) :=
    if tp < cost then (2, s)
    else if (aware = true ∧ dei = true) ∨ tc < cost then (1, took (s.setBuckets k m tc (tp - cost)) cost true)
    else (0, took (s.setBuckets k m (tc - cost) (tp - cost)) cost false)
  (col, s.cntAdd (polPage k) (0x100000 + (8192 * k + m) * 64 + 8 * col) 1)

/-! ### The checks of a frame (R210) -/

/-- A fault of a kind, counted, and captured first-only with event 0x5001. A fault of no meter, gate or sequence entry has an
index the spec does not state: a free value. -/
def State.polFault (s : State) (k : Nat) (f : Frame) (kind : Nat) (entry : Option Nat) : State :=
  let s := s.bump (polA k 0x064)
  if s.b (polA k 0x044) 31 then s
  else
    let (index, s) := match entry with
      | some i => (i, s)
      | none => (Config.freeValue s.draw.1, s.draw.2)
    let c0 := 2 ^ 31 + kind * 2 ^ 24 + f.inPort * 256 + f.domain
    let c1 := index % 65536 * 65536 + f.mdGet 0x0F
    ((s.wr (polA k 0x044) (word c0)).wr (polA k 0x048) (word c1)).report (polPage k) 0 0x5001 c0 c1

/-- A latch of a filter (1) or gate (2), captured first-only with event 0x5002. -/
def State.polLatch (s : State) (k kind index : Nat) : State :=
  if s.b (polA k 0x04C) 31 then s
  else
    let c := 2 ^ 31 + kind * 2 ^ 24 + index
    (s.wr (polA k 0x04C) (word c)).report (polPage k) 1 0x5002 c

/-- A drop of POL under a counter. -/
def State.polDrop (s : State) (k fid r cnt : Nat) : State := (s.bump (polA k cnt)).dropFrame (polPage k) fid r

def State.filterRd (s : State) (k i : Nat) : List Byte := s.winRd (filterA k i) 16

/-- The entries a frame uses (R210 rows 1 and 2). -/
def State.polUse (s : State) (k : Nat) (f : Frame) : PolUse :=
  let h := f.mdGet 0x0F
  let filt := if h < 4096 ∧ s.winLE (filterA k h) 1 % 2 = 1 then some h else none
  match filt with
  | none => { meter := if f.mdGet 0x0E = 0xFFFF then none else some (f.mdGet 0x0E) }
  | some h =>
    let e := s.filterRd k h
    { filt, gate := if 32768 ≤ leAt e 4 2 then some (leAt e 4 2 % 4096) else none,
      meter := if 32768 ≤ leAt e 6 2 then some (leAt e 6 2 % 8192)
        else if f.mdGet 0x0E = 0xFFFF then none else some (f.mdGet 0x0E),
      seq := if 32768 ≤ leAt e 8 2 then some (leAt e 8 2 % 4096) else none }

/-- Row 2: whether an entry the frame uses belongs to another domain. -/
def State.polFenced (s : State) (k : Nat) (u : PolUse) (d : Nat) : Bool :=
  let gate := match u.gate with
    | none => false
    | some g =>
      let e := s.winRd (gateA k g) 16
      let v := decide (leAt e 0 1 % 2 = 1)
      let c := s.sched k (leAt e 2 1)
      v && (decide (leAt e 1 1 % 16 ≠ d) || (decide (bitsOf (leAt e 0 1) 2 2 = 1) && schedValid c && decide (leAt c 11 1 / 16 ≠ d)))
  let meter := match u.meter with
    | none => false
    | some m => decide (m < meterCount k) && meterEn (s.meterCfg k m) && decide (leAt (s.meterCfg k m) 19 1 % 16 ≠ d)
  let seq := match u.seq with
    | none => false
    | some q => decide (s.winLE (seqA k q + 2) 1 % 2 = 1) && decide (s.winLE (seqA k q + 3) 1 % 16 ≠ d)
  (match u.filt with | none => false | some h => decide (s.winLE (filterA k h + 1) 1 % 16 ≠ d)) || gate || meter || seq

/-- What a frame meets in POL now. -/
def State.polView (s : State) (k : Nat) (f : Frame) : PolView :=
  let u := s.polUse k f
  let gate := match u.gate with | some g => s.gateState k g | none => (true, none)
  { use := u, fenced := s.polFenced k u f.domain, opened := gate.1, ipv := gate.2,
    filt := match u.filt with | some h => s.filterRd k h | none => [],
    gate := match u.gate with | some g => s.winRd (gateA k g) 16 | none => [],
    seq := match u.seq with | some q => s.winRd (seqA k q) 8 | none => [] }

/-! ### Entry into a send queue (R233, R252) -/

/-- A frame enters send queue `q` of its staging toward groups `e`. -/
def State.enqueueSend (s : State) (fid q groups : Nat) : State :=
  let f := s.frame fid
  let key := f.grp * 6 + q
  let s := s.setFrame { f with place := .queued q, groups }
  { s with glf := { s.glf with queues := s.glf.queues.upd [] key (fun l => l ++ [fid]) } }

/-- A frame settled without delivery by R252. -/
def State.mcastDrop (s : State) (fid r cnt : Nat) : State := (s.bumpRise (glfA cnt) 15 4 0x3C05).dropFrame 15 fid r

/-- R252: a multicast frame's group entry live for its version. -/
def State.mcastSettle (s : State) (fid : Nat) : State :=
  let f := s.frame fid
  let e := s.ent f.grp 7 (f.mdGet 0x0A)
  if s.unreadable f.grp (entAt 7 (f.mdGet 0x0A)) then (s.wordBad f.grp (entAt 7 (f.mdGet 0x0A))).dropFrame 15 fid 0x1A
  else
  let head := leAt e 4 4 % 2 ^ 17
  let count := leAt e 4 4 / 2 ^ 17 % 2 ^ 10
  if (entVers 7 0 e).any (fun x => liveFor x.1 x.2.1 f.version) = false then s.mcastDrop fid 0x09 0x08C
  else if leAt e 1 1 % 16 ≠ f.domain then s.mcastDrop fid 0x0A 0x090
  else if leAt e 2 1 % 32 = 0 ∨ count = 0 ∨ 81920 < head + count then s.mcastDrop fid 0x09 0x08C
  else (s.setFrame { f with mcHead := head, mcCount := count }).enqueueSend fid 5 (leAt e 2 1 % 32)

/-- A frame POL has passed enters its send queue. -/
def State.toFabric (s : State) (fid : Nat) : State :=
  let f := s.frame fid
  if f.mdGet 8 = 2 then s.mcastSettle fid
  else
    let e := if f.mdGet 8 = 3 then 4 else groupOf (f.mdGet 9)
    s.enqueueSend fid e (2 ^ e)

/-! ### POLICE_FRAME -/

/-- Whether rows 5 and 6 pass a frame. -/
def PolView.gatePasses (v : PolView) : Bool :=
  v.use.gate.isNone || (v.opened && decide (leAt v.gate 0 1 % 2 = 1 ∧ bitsOf (leAt v.gate 0 1) 4 4 = 0))

/-- Whether POL needs a frame's length and does not yet have it: a frame still arriving that the rows before do not drop,
with max_sdu or a byte meter. -/
def State.needsLen (s : State) (k : Nat) (f : Frame) (v : PolView) : Bool :=
  !f.complete && !v.fenced && decide (bitsOf (leAt v.filt 0 1) 2 2 = 0) &&
    (decide (leAt v.filt 2 2 % 16384 ≠ 0) ||
     (v.gatePasses &&
      match v.use.meter with
      | some m => meterEn (s.meterCfg k m) && decide (bitsOf (leAt (s.meterCfg k m) 18 1) 1 1 = 0)
      | none => false))

/-- Whether a frame of the same sequence instance that reached POL earlier still waits in it: numbers are given in the order
of arrival (R223). -/
def State.seqBehind (s : State) (k : Nat) (f : Frame) (v : PolView) : Bool :=
  v.use.seq.isSome && s.frames.any (fun e => decide (e.2.grp = k ∧ e.2.place = .police ∧ e.2.ord < f.ord) &&
    (match e.2.pol with | some w => decide (w.use.seq = v.use.seq) | none => false))

/-- Whether a frame must wait in POL. -/
def State.polWaits (s : State) (k : Nat) (f : Frame) (v : PolView) : Bool := s.needsLen k f v || s.seqBehind k f v

/-- Row 10: the instance `q` gives the frame its number (R223), from the entry as it stood when the frame reached POL; frames
behind it that met the same entry meet it advanced, and so does the entry unless it has been written since (R227). -/
def State.giveSeq (s : State) (k fid q : Nat) (ent : List Byte) : State :=
  let fl := leAt ent 2 1
  let n := if bitsOf fl 1 1 = 1 then 0 else leAt ent 0 2
  let next := putBytes (putBytes ent 0 (leBytes 2 ((n + 1) % 65536))) 2 [BitVec.ofNat 8 (fl - bitsOf fl 1 1 * 2)]
  let s := if s.winRd (seqA k q) 8 = ent then s.winWr (seqA k q) next else s
  let behind := (s.frames.filter (fun e => decide (e.2.grp = k ∧ e.2.place = .police ∧ e.1 ≠ fid) &&
    (match e.2.pol with | some w => decide (w.use.seq = some q ∧ w.seq = ent) | none => false))).map (fun e => e.1)
  let s := forEach behind s (fun s i =>
    s.setFrame { s.frame i with pol := (s.frame i).pol.map (fun w => { w with seq := next }) })
  (s.bump (polA k 0x068)).setFrame { s.frame fid with seqNo := some n, rtag := decide (bitsOf fl 2 2 = 1) }

/-- Rows 8 to 10, after the frame has passed the gate. -/
def State.polTail (s : State) (k fid : Nat) (v : PolView) : State :=
  let f := s.frame fid
  let u := v.use
  let s := match u.meter with
    | some m => if meterCount k ≤ m then s.polFault k f 3 (some m) else s
    | none => s
  let (drop, s) := match u.meter with
    | none => (false, s)
    | some m =>
      let c := s.meterCfg k m
      if meterCount k ≤ m ∨ meterEn c = false then (false, s)
      else
        let cost := if bitsOf (leAt c 18 1) 1 1 = 1 then 256
          else 256 * (max 1 ((f.wireLen : Int) + toSigned 6 (leAt c 20 1))).toNat
        let (col, s) := s.meterColour k m cost (decide (f.mdGet 7 = 1))
        let act := bitsOf (leAt c 18 1) 4 3
        let s := if col = 1 then (s.bump (polA k 0x05C)).pmc (polPage k) 7 else s
        if col = 2 ∨ (col = 1 ∧ act = 2) then (true, s)
        else (false, if col = 1 ∧ act = 1 then s.setFrame ((s.frame fid).mdSet 7 1) else s)
  if drop then (s.bumpRise (polA k 0x058) (polPage k) 3 0x5004).dropFrame (polPage k) fid 0x0C
  else
    let s := match u.seq with
      | none => s
      | some q =>
        if leAt v.seq 2 1 % 2 = 0 then s.polFault k f 4 (some q) else s.giveSeq k fid q v.seq
    s.toFabric fid

/-- The checks of R210 on a frame that has met `v` in POL. -/
def State.policeFrame (s : State) (k fid : Nat) (v : PolView) : State :=
  let f := s.frame fid
  let h := f.mdGet 0x0F
  let u := v.use
  let s := s.pmc (polPage k) 4
  let s := if h = 0xFFFF then s
    else if 4096 ≤ h then s.polFault k f 1 none
    else if u.filt.isNone then s.polFault k f 2 none else s
  if v.fenced then s.polDrop k fid 0x0A 0x060
  else
    let e := v.filt
    let fl := leAt e 0 1
    let sdu := leAt e 2 2 % 16384
    if bitsOf fl 2 2 = 1 then s.polDrop k fid 0x0E 0x050
    else if sdu ≠ 0 ∧ sdu < f.wireLen then
      let s := if bitsOf fl 1 1 = 1 then (s.winPut (filterA k h) 1 (s.winLE (filterA k h) 1 ||| 4)).polLatch k 1 h else s
      s.polDrop k fid 0x0E 0x050
    else
      match u.gate with
      | none => s.polTail k fid v
      | some g =>
        let gfl := leAt v.gate 0 1
        let gateDrop := fun (s : State) => (s.bumpRise (polA k 0x054) (polPage k) 2 0x5003).dropFrame (polPage k) fid 0x0D
        if gfl % 2 = 0 then gateDrop (s.polFault k f 5 (some g))
        else
          let latched := decide (bitsOf gfl 4 4 = 1)
          if v.opened = false ∨ latched = true then
            let s := if bitsOf gfl 3 3 = 1 ∧ latched = false then
                (s.winPut (gateA k g) 1 (s.winLE (gateA k g) 1 ||| 16)).polLatch k 2 g else s
            gateDrop s
          else
            let s := match v.ipv with | some x => s.setFrame (f.mdSet 0x0B x) | none => s
            s.polTail k fid v

/-- The frame POL k takes next, of those ahead of the front while one has still to pass POL: the earliest whose token POL has not met yet, or that has waited in POL and can be judged. -/
def State.nextPolice (s : State) (k : Nat) : Option Frame :=
  (s.frames.filter (fun e => decide (e.2.grp = k ∧ e.2.place = .police) && !(s.behind e.2 && !s.passed (polPage k)) &&
    (match e.2.pol with | some v => !s.polWaits k e.2 v | none => true))).foldl
    (fun (best : Option Frame) e =>
      match best with
      | none => some e.2
      | some b => if e.2.ord < b.ord then some e.2 else some b) none

def State.police (s : State) (k : Nat) : State :=
  if s.regionDown (10 + k) then s
  else
    match s.nextPolice k with
    | none => s
    | some f =>
      let v := f.pol.getD (s.polView k f)
      if s.polWaits k f v then s.setFrame { f with pol := some v } else s.policeFrame k f.id v

def execPoliceFrame (pol : Group) (s : State) : Host.Outcome State Fault Refusal := answer s (s.police pol.val)

end Sys2Proof.Machine
end

