-- ==== Sys2Proof/Machine/Fabric.lean ====
section
/-! DEFINITION. The Gale fabric (chapter 10): sending cells, credits, the pacer, acknowledgements, plane faults, resends and
swaps. -/

namespace Sys2Proof.Machine

/-! ### Slots and planes (R234, R241, R257) -/

/-- The plane of slot `j`. -/
def State.slotPlane (s : State) (j : Nat) : Nat := s.f (glfA 0x048) (4 * j + 2) (4 * j)
def State.setPlaneState (s : State) (p v : Nat) : State := s.setF (glfA 0x04C) (4 * p + 2) (4 * p) v
def State.sparePlane (s : State) : Option Nat := (List.range 5).find? (fun p => decide (s.planeState p = 1))

/-- The first active slot from `j` on, taken cyclically. -/
def State.slotFrom (s : State) (j : Nat) : Option Nat :=
  ((List.range 4).map (fun i => (j + i) % 4)).find? s.slotValid

/-- Bring GLF_STATUS up to date; a slot empty with no spare, nor a plane under test for a slot, is reported when it comes
about (R249). -/
def State.planeStatus (s : State) : State :=
  let none_ := decide (s.activeSlots.length < 4) && s.sparePlane.isNone && s.glf.tests.all (fun t => t.2.isNone)
  let was := s.b (glfA 0x040) 9
  let s := ((s.setF (glfA 0x040) 2 0 s.activeSlots.length).setF (glfA 0x040) 6 4 (s.sparePlane.getD 7)).setB (glfA 0x040) 9 none_
  let s := s.setB (glfA 0x040) 8 (s.glf.tests.any (fun t => t.2.isSome))
  if none_ && !was then s.report 15 2 0x3C03 else s

/-- The number of active slots has changed: every spray pointer is set to 0 at its queue's next frame boundary (R234). -/
def State.slotsChanged (s : State) : State := { s with glf := { s.glf with resetPtr := List.range 30 } }

/-- Start a self-test of a plane, for a slot or for its own sake. -/
def State.testPlane (s : State) (p : Nat) (slot : Option Nat) : State :=
  ({ s with glf := { s.glf with tests := s.glf.tests ++ [(p, slot)] } }.setPlaneState p 3).planeStatus

/-- Bring the lowest spare into the slot whose turn it is, one swap at a time (R249, R250). -/
def State.nextSwap (s : State) : State :=
  match s.glf.waiting, s.sparePlane with
  | j :: rest, some p =>
    if s.glf.tests.any (fun t => t.2.isSome) then s.planeStatus
    else ({ s with glf := { s.glf with waiting := rest } }).testPlane p (some j)
  | _, _ => s.planeStatus

/-- A slot empties: its cells are to be resent (R247), and with auto_swap 1 it waits for a spare. `cap`: this isolation is
the one that GLF_FAULT_CAP1 captures. -/
def State.emptySlot (s : State) (j : Nat) (cap : Bool) : State :=
  let s := s.setF (glfA 0x048) (4 * j + 3) (4 * j) 0
  let unacked := s.glf.unacked.map (fun (c : SentCell) =>
    if c.slot = j then { c with again := some (cap || c.again == some true) } else c)
  let waiting := if s.b (glfA 0x044) 0 then s.glf.waiting ++ [j] else s.glf.waiting
  let s := { s with glf := { s.glf with unacked, waiting } }
  s.slotsChanged

/-- A plane is declared faulty under a cause of R245, on a path or none (7): captured first-only; an active one is isolated
(R246), one that is spare or under test becomes failed. -/
def State.planeFault (s : State) (p cause k e : Nat) : State :=
  let st := s.planeState p
  if st = 2 ∨ st = 4 ∨ 5 ≤ p then s
  else
    let first := !s.b (glfA 0x060) 31
    let s := if first then
        { s with glf := { s.glf with unacked := s.glf.unacked.map (fun c => { c with again := c.again.map (fun _ => false) }) } }
      else s
    let s := s.capture (glfA 0x060) (cause * 2 ^ 24 + p * 2 ^ 16 + k * 2 ^ 8 + e)
    if st ≠ 0 then
      let swap := s.glf.tests.filterMap (fun t => if t.1 = p then t.2 else none)
      let tests := s.glf.tests.filter (fun t => decide (t.1 ≠ p))
      let s := { s with glf := { s.glf with tests, waiting := swap ++ s.glf.waiting } }
      let s := if cause = 5 then s.report 15 3 0x3C04 else s
      let s := if first then s.wr (glfA 0x064) 0 else s
      (s.setPlaneState p 4).nextSwap
    else
      match (List.range 4).find? (fun j => s.slotValid j && decide (s.slotPlane j = p)) with
      | none => s
      | some j =>
        let (d, s) := s.draw
        let s := if first then s.wr (glfA 0x064) (word (Config.freeValue d % 1001)) else s
        let s := { s with glf := { s.glf with flights := s.glf.flights.filter (fun x => decide (x.plane ≠ p)) } }
        let s := (s.setPlaneState p 2).emptySlot j first
        let s := (s.bump (glfA 0x080)).report 15 0 0x3C01
        (s.nextSwap).request 1 (15 + p) 0

/-- A header check error or acknowledgement timeout on a cell from a plane: cause 1 of R245 at err_thr within 100 µs. -/
def State.planeErr (s : State) (p k e : Nat) : State :=
  let s := s.bump (glfA (0x0A0 + 4 * p))
  let errs := (s.glf.errs.filter (fun x => decide (s.clk < x.2 + usec 100))) ++ [(p, s.clk)]
  let s := { s with glf := { s.glf with errs } }
  if s.f (glfA 0x05C) 23 16 ≤ (errs.filter (fun x => decide (x.1 = p))).length then s.planeFault p 1 k e else s

/-! ### Credits (R237, R238) -/

/-- The key of an account and class. -/
def credKey (k e j : Nat) (prot : Bool) : Nat := ((k * 5 + e) * 4 + j) * 2 + b2n prot
/-- The ledger instance of an account (R400). -/
def credInst (k e j : Nat) : Nat := e * 20 + k * 4 + j

/-- Fill every account (GLF_CTL.en changes from 0 to 1). -/
def State.fillCredits (s : State) : State :=
  let gen := s.f (glfA 0x058) 7 0
  let prot := s.f (glfA 0x058) 22 16
  forEach (List.range 200) s (fun s i =>
    { s with glf := { s.glf with free := s.glf.free.put 0 i (if i % 2 = 0 then gen else prot) } })

/-- The class of credit a cell can take from an account, if any. -/
def State.creditFor (s : State) (k e j : Nat) (prot : Bool) : Option Bool :=
  if 0 < s.glf.free.at 0 (credKey k e j false) then some false
  else if prot = true ∧ 0 < s.glf.free.at 0 (credKey k e j true) then some true
  else none

/-- A credit is taken. What staging k takes and numbers falls in the period whose front has not yet reached staging k, which
it does as it leaves POL k (R242). -/
def State.takeCredit (s : State) (k e j seq : Nat) (cls : Bool) : State :=
  let c : Credit := ⟨k, e, j, seq, cls⟩
  let s := { s with glf := { s.glf with free := s.glf.free.upd 0 (credKey k e j cls) (fun n => n - 1) } }
  { s with glf := { s.glf with credits := s.glf.credits ++ [c] } }.led (polPage k) 6 (credInst k e j) 0

/-- The credit of the cell numbered `seq` returns to its account, counted at the block of a page; a rise above gen + prot is a
ledger fault at once. -/
def State.returnCredit (s : State) (page k e seq : Nat) : State :=
  match takeFirst (fun c => decide (c.k = k ∧ c.e = e ∧ c.seq = seq)) s.glf.credits with
  | none => s
  | some (c, rest) =>
    let free := s.glf.free.upd 0 (credKey k e c.slot c.prot) (fun n => n + 1)
    let s := { s with glf := { s.glf with credits := rest, free } }.led page 6 (credInst k e c.slot) 1
    let have_ := s.glf.free.at 0 (credKey k e c.slot false) + s.glf.free.at 0 (credKey k e c.slot true)
    let cap := s.f (glfA 0x058) 7 0 + s.f (glfA 0x058) 22 16
    if cap < have_ then s.ledgerFault 6 (credInst k e c.slot) ((have_ : Int) - cap) else s

/-! ### Sequence numbers and the pacer (R232, R243) -/

def State.seqNext (s : State) (k e : Nat) : Nat := s.glf.nextSeq.at 0 (k * 5 + e)

/-- The span of R243. -/
def State.span (s : State) (k e : Nat) : Nat :=
  match s.glf.unacked.findSome? (fun c => if c.k = k then (c.wait.find? (fun w => decide (w.1 = e))).map (fun w => w.2) else none) with
  | none => 0
  | some o => (s.seqNext k e + 2 ^ 20 - o) % 2 ^ 20

def State.pacerOk (s : State) (k e : Nat) : Bool := decide (s.span k e < s.f (glfA 0x054) 9 0)

/-- The egress groups a mask names. -/
def maskGroups (m : Nat) : List Nat := (List.range 5).filter (fun e => decide (bitsOf m e e = 1))

/-! ### Sending (R233 to R237, R253) -/

/-- The next new cell of a frame is complete in staging: bytes beyond it, or the frame's end, have arrived; the last cell
waits until late claims have been compared (R125). -/
def Frame.cellReady (f : Frame) : Bool :=
  (f.complete && f.late.isEmpty) || decide (f.verdict ≠ 0) || decide (256 * (f.sentN + 1) < f.bytes.length)

/-- Whether the next new cell of a frame is its last. -/
def Frame.cellLast (f : Frame) : Bool := decide (f.verdict ≠ 0) || (f.complete && decide (f.bytes.length ≤ 256 * (f.sentN + 1)))

/-- The head frame of a send queue. -/
def State.sendHead (s : State) (k q : Nat) : Option Frame :=
  match s.glf.queues.at [] (k * 6 + q) with
  | [] => none
  | i :: _ => some (s.frame i)

/-- The slot a queue's next cell goes to; its pointer starts at 0 at a frame boundary after the slots have changed. -/
def State.spraySlot (s : State) (k q : Nat) (boundary : Bool) : Option Nat :=
  s.slotFrom (if boundary = true ∧ s.glf.resetPtr.contains (k * 6 + q) = true then 0 else s.glf.spray.at 0 (k * 6 + q))

/-- The pointer moves to the next active slot after the one used. -/
def State.sprayNext (s : State) (k q j : Nat) (boundary : Bool) : State :=
  let resetPtr := if boundary then s.glf.resetPtr.filter (fun x => decide (x ≠ k * 6 + q)) else s.glf.resetPtr
  { s with glf := { s.glf with spray := s.glf.spray.put 0 (k * 6 + q) ((s.slotFrom (j + 1)).getD 0), resetPtr } }

/-- The cell of a queue that waits to be resent: the oldest. -/
def State.resendOf (s : State) (k q : Nat) : Option SentCell :=
  s.glf.unacked.find? (fun c => decide (c.k = k ∧ c.q = q) && c.again.isSome)

/-- Whether a cell that waits to be resent stands behind an older one of its staging toward one of its groups: resends keep
the sequence order of each group (R247). -/
def State.resendHeld (s : State) (c : SentCell) : Bool :=
  ((s.glf.unacked.filter (fun d => decide (d.k = c.k) && d.again.isSome)).takeWhile (fun d => decide (d ≠ c))).any
    (fun d => d.wait.any (fun w => c.wait.any (fun v => decide (v.1 = w.1))))

/-- The groups of a frame that are not lost (R489): a staging treats every cell toward a lost one as acknowledged. -/
def State.liveGroups (s : State) (f : Frame) : List Nat :=
  (maskGroups f.groups).filter (fun e => !s.regionDown (20 + e) && !s.regionDown (25 + e))

/-- Whether the head's next new cell may be sent: enabled, complete, with credits and within the pacer's span. -/
def State.newReady (s : State) (k q : Nat) : Bool :=
  s.b (glfA 0x044) 31 && (match s.sendHead k q with
    | none => false
    | some f =>
      match s.spraySlot k q (decide (f.sentN = 0)) with
      | none => false
      | some j => f.cellReady && (s.liveGroups f).all (fun e => s.pacerOk k e && (s.creditFor k e j f.prot).isSome))

/-- A cell that waits for the pacer counts once (R243). -/
def State.countHeld (s : State) (k q : Nat) : State :=
  match s.sendHead k q with
  | none => s
  | some f =>
    if s.b (glfA 0x044) 31 = true ∧ f.cellReady = true ∧ (s.liveGroups f).any (fun e => !s.pacerOk k e) = true ∧
        s.glf.held.contains (f.id, f.sentN) = false then
      ({ s with glf := { s.glf with held := (f.id, f.sentN) :: s.glf.held } }.bump (glfA 0x098)).pmc 15 7
    else s

/-- Put a cell's copies on a plane, one for each group that waits for it. -/
def State.fly (s : State) (c : SentCell) (resend : Bool) : State :=
  let fs := c.wait.map (fun w =>
    ({ k := c.k, e := w.1, plane := c.plane, seq := w.2, fid := c.fid, idx := c.idx, first := c.first, last := c.last,
       resend } : Flight))
  { s with glf := { s.glf with flights := s.glf.flights ++ fs } }

def State.setUnacked (s : State) (k n : Nat) : State := s.setF (glfA (0x068 + 4 * k)) 29 16 n
def State.unackedN (s : State) (k : Nat) : Nat := s.f (glfA (0x068 + 4 * k)) 29 16

/-- A multicast share toward a lost group is dropped at the frame's ingress port (R489). -/
def State.shareLost (s : State) (e : Nat) (f : Frame) : State :=
  ((s.countDrop (rsqPage e) f.src 0x1A).capDrop f.src (f.info 0x1A)).leave (rsqPage e) f.version 0x1A

/-- Every group of the frame at a queue's head is lost: it is dropped; one whose cells have begun to leave has had its shares
dropped already, and what is left of it is released. -/
def State.noGroup (s : State) (f : Frame) : State :=
  if f.sentN = 0 then s.dropFrame (rsqPage ((maskGroups f.groups).headD 0)) f.id 0x1A
  else
    let s := (s.releaseStage f.id).unqueue f.id
    (s.setFrame { s.frame f.id with place := .gone }).gcFrame f.id

/-- Send the next new cell of queue `q` on slot `j`. -/
def State.sendCell (s : State) (k q j : Nat) (f : Frame) : State :=
  let first := decide (f.sentN = 0)
  let last := f.cellLast
  let gs := s.liveGroups f
  let all := maskGroups f.groups
  let wait := gs.map (fun e => (e, s.seqNext k e))
  let s := forEach wait s (fun s w =>
    let s := match s.creditFor k w.1 j f.prot with | some cls => s.takeCredit k w.1 j w.2 cls | none => s
    { s with glf := { s.glf with nextSeq := s.glf.nextSeq.put 0 (k * 5 + w.1) ((w.2 + 1) % 2 ^ 20) } }.led (polPage k) 5 (k * 5 + w.1) 0)
  let c : SentCell := { k, fid := f.id, idx := f.sentN, first, last, q, slot := j, plane := s.slotPlane j, wait }
  let held := s.glf.held.filter (fun x => decide (x ≠ (f.id, f.sentN)))
  let s := { s with glf := { s.glf with unacked := s.glf.unacked ++ [c], held } }
  let s := ((s.fly c false).setUnacked k (s.unackedN k + 1)).sprayNext k q j first
  let s := if first = true ∧ 1 < all.length then s.replicate 15 f.version all.length else s
  let s := if first then forEach (all.filter (fun e => !gs.contains e)) s (fun s e => s.shareLost e f) else s
  let s := s.setFrame { f with sentN := f.sentN + 1, place := if last then .sent else .sending q,
                                lenKnown := if first then f.complete else f.lenKnown }
  let s := if last then s.unqueue f.id else s
  s.pmc 15 4

def State.sendNew (s : State) (k q j : Nat) (f : Frame) : State :=
  if (s.liveGroups f).isEmpty then s.noGroup f else s.sendCell k q j f

/-- Resend a cell of an emptied slot over the active slots (R247). -/
def State.sendAgain (s : State) (k q j : Nat) (c : SentCell) : State :=
  let c' := { c with slot := j, plane := s.slotPlane j, again := none }
  let s := { s with glf := { s.glf with unacked := replFirst (fun x => decide (x = c)) (fun _ => c') s.glf.unacked } }
  let s := if c.again = some true then s.bumpF (glfA 0x064) 31 16 else s
  (((s.fly c' true).bump (glfA 0x088)).sprayNext k q j false).pmc 15 4

/-- What queue `q` of staging k can send now. -/
def State.sendReady (s : State) (k q : Nat) : Bool :=
  match s.resendOf k q with
  | some c => !s.activeSlots.isEmpty && !s.resendHeld c
  | none => s.newReady k q

/-- Staging k sends one cell: its queues in round robin, each resend ahead of its queue's new cells. -/
def State.cellSend (s : State) (k : Nat) : State :=
  if s.regionDown (5 + k) then s
  else
    let s := forEach (List.range 6) s (fun s q => s.countHeld k q)
    let last := s.glf.rr.at 0 k
    match ((List.range 6).map (fun i => (last + 1 + i) % 6)).find? (s.sendReady k) with
    | none => s
    | some q =>
      let s := { s with glf := { s.glf with rr := s.glf.rr.put 0 k q } }
      match s.resendOf k q with
      | some c =>
        match s.spraySlot k q false with
        | some j => s.sendAgain k q j c
        | none => s
      | none =>
        match s.sendHead k q with
        | none => s
        | some f =>
          match s.spraySlot k q (decide (f.sentN = 0)) with
          | some j => s.sendNew k q j f
          | none => s

def execCellSend (staging : Group) (s : State) : Host.Outcome State Fault Refusal := answer s (s.cellSend staging.val)

/-- The front reaches staging k: it goes to every group on every active slot, after the cells sent before it (R242). -/
def State.sendFront (s : State) (k : Nat) : State :=
  let marks := s.glf.marks.filter (fun m => decide (m.1 / 5 ≠ k)) ++ (List.range 5).map (fun e => (k * 5 + e, s.seqNext k e))
  let fs := s.activeSlots.flatMap (fun j => (List.range 5).map (fun e =>
    ({ k, e, plane := s.slotPlane j, seq := 0, fid := 0, idx := 0, first := false, last := false, front := true } : Flight)))
  { s with glf := { s.glf with marks, flights := s.glf.flights ++ fs } }

/-- Whether group `e` has received staging k's front on every slot it was sent on and that has not emptied since: on each of
those paths no cell is ahead of it. -/
def State.frontReceived (s : State) (e k : Nat) : Bool :=
  (List.range 5).all (fun p =>
    let path := s.glf.flights.filter (fun x => decide (x.e = e ∧ x.k = k ∧ x.plane = p))
    match path with
    | x :: rest => x.front || !rest.any (fun y => y.front)
    | [] => true)

/-! ### Acknowledgements (R239, R261) -/

/-- A cell is released from staging once every group has acknowledged it. -/
def State.releaseCell (s : State) (c : SentCell) : State :=
  let f := s.frame c.fid
  let s := { s with glf := { s.glf with unacked := s.glf.unacked.filter (fun x => decide (x ≠ c)) } }
  let s := ((s.setFrame { f with stg := f.stg - 1 }).stageSub c.k 1 1).setUnacked c.k (s.unackedN c.k - 1)
  s.gcFrame c.fid

/-- Group `e` acknowledges the cell of staging k numbered `seq`; one that staging no longer holds is ignored. -/
def State.ackCell (s : State) (k e seq : Nat) : State :=
  match s.glf.unacked.find? (fun c => decide (c.k = k) && c.wait.contains (e, seq)) with
  | none => s
  | some c =>
    let c' := { c with wait := c.wait.filter (fun w => decide (w ≠ (e, seq))) }
    let s := { s with glf := { s.glf with unacked := replFirst (fun x => decide (x = c)) (fun _ => c') s.glf.unacked } }
    if c'.wait.isEmpty then s.releaseCell c' else s

/-- The oldest acknowledgement on its way to staging k arrives. -/
def State.takeAck (s : State) (k : Nat) : State :=
  match takeFirst (fun a => decide (a.1 = k)) s.glf.acks with
  | none => s
  | some (a, rest) => { s with glf := { s.glf with acks := rest } }.ackCell a.1 a.2.1 a.2.2

def execCellAck (staging : Group) (s : State) : Host.Outcome State Fault Refusal := answer s (s.takeAck staging.val)

/-! ### Plane commands (R245, R249, R258) -/

/-- R245 cause 2: a beat has waited on a path of a plane for stall_ns. GLF isolates the plane and reports its region. -/
def State.planeStall (s : State) (p k e : Nat) : State :=
  let st := s.planeState p
  if st = 2 ∨ st = 4 then s
  else
    let s := if s.declareOk (15 + p) 4 then s.declareRec (15 + p) 4 0 0 else s
    s.planeFault p 2 k e

def execPlaneStallDetect (plane staging group : Group) (s : State) : Host.Outcome State Fault Refusal :=
  answer s (s.planeStall plane.val staging.val group.val)

/-- A plane's self-test ends. In a swap a pass brings it into the slot; otherwise it makes the plane spare. -/
def State.planeTested (s : State) (p : Nat) (pass : Bool) : State :=
  match s.glf.tests.find? (fun t => decide (t.1 = p)) with
  | none => s
  | some (_, slot) =>
    if pass = false then s.planeFault p 5 7 7
    else
      let s := { s with glf := { s.glf with tests := s.glf.tests.filter (fun t => decide (t.1 ≠ p)) } }
      let s := if s.regionDown (15 + p) then s.regionGood (15 + p) else s
      match slot with
      | some j =>
        let s := (s.setF (glfA 0x048) (4 * j + 3) (4 * j) (8 + p)).setPlaneState p 0
        (((s.bump (glfA 0x084)).report 15 1 0x3C02).slotsChanged).nextSwap
      | none => (s.setPlaneState p 1).nextSwap

def execPlaneSelfTestDone (plane : Group) (pass : Bool) (s : State) : Host.Outcome State Fault Refusal :=
  answer s (s.planeTested plane.val pass)

/-- A GLF_PLANE_CMD write by the host; its condition is R258's. -/
def State.planeCmd (s : State) (op p : Nat) (f : State → State) : State :=
  s.hostWriteWith (glfA 0x050) (word (op * 16 + p)) true (fun _ s => f s)

/-- R258 op isolate: R246 with cause 4. -/
def execCmdPlaneIsolate (plane : Group) (s : State) : Host.Outcome State Fault Refusal :=
  answer s (s.planeCmd 1 plane.val (fun s => s.planeFault plane.val 4 7 7))

/-- R258 op test. -/
def execCmdPlaneTest (plane : Group) (s : State) : Host.Outcome State Fault Refusal :=
  answer s (s.planeCmd 2 plane.val (fun s => s.testPlane plane.val none))

/-- R258 op swap: the plane named goes into the lowest empty slot. -/
def State.swapIn (s : State) (p : Nat) : State :=
  match (List.range 4).find? (fun j => !s.slotValid j) with
  | none => s
  | some j => ({ s with glf := { s.glf with waiting := s.glf.waiting.filter (fun x => decide (x ≠ j)) } }).testPlane p (some j)

def execCmdPlaneSwap (plane : Group) (s : State) : Host.Outcome State Fault Refusal :=
  answer s (s.planeCmd 3 plane.val (fun s => s.swapIn plane.val))

/-- A write of GLF_CTL.en: a change from 0 to 1 fills every credit account (R237, R257). -/
def State.fabricEnable (s : State) (en : Bool) : State :=
  let was := s.b (glfA 0x044) 31
  s.hostWriteWith (glfA 0x044) (setBit (s.rd (glfA 0x044)) 31 en) true
    (fun _ s => if en && !was then s.fillCredits else s)

def execFabricEnableChange (en : Bool) (s : State) : Host.Outcome State Fault Refusal := answer s (s.fabricEnable en)

end Sys2Proof.Machine
end

