-- ==== Sys2Proof/Machine/Reseq.lean ====
section
/-! DEFINITION. The resequencers (chapter 11): arriving cells, passing out, gap timeouts, frame replication elimination, the
copies a group makes (R254), and the indirect structures. -/

namespace Sys2Proof.Machine

/-! ### Occupancy (R275, R276) -/

def State.rsqNext (s : State) (e k : Nat) : Nat := s.f (rsqA e (0x050 + 4 * k)) 19 0
def State.heldOf (s : State) (e k : Nat) : List HeldCell := s.rsq.held.filter (fun c => decide (c.e = e ∧ c.k = k))
def State.isHeld (s : State) (e k seq : Nat) : Bool := (s.heldOf e k).any (fun c => decide (c.seq = seq))

/-- Whether a number of a source is declared lost and not yet passed. -/
def State.isLost (s : State) (e k seq : Nat) : Bool := s.rsq.lost.any (fun x => decide (x.e = e ∧ x.k = k ∧ x.seq = seq))

/-- The numbers of a source from next up to the highest held. -/
def State.gapNumbers (s : State) (e k : Nat) : List Nat :=
  let next := s.rsqNext e k
  let top := (s.heldOf e k).foldl (fun m c => max m ((c.seq + 2 ^ 20 - next) % 2 ^ 20 + 1)) 0
  (List.range top).map (fun i => (next + i) % 2 ^ 20)

/-- A gap is open while the first number from next that is not declared lost is not held and a later one is. -/
def State.gapOpen (s : State) (e k : Nat) : Bool :=
  match (s.gapNumbers e k).find? (fun n => !s.isLost e k n) with
  | some n => !s.isHeld e k n
  | none => false

/-- Bring RSQ_STATUS and RSQ_SRC_HELD of a source up to date. -/
def State.rsqShow (s : State) (e k : Nat) : State :=
  let s := s.setF (rsqA e (0x064 + 4 * k)) 12 0 (s.heldOf e k).length
  let s := s.setF (rsqA e 0x040) 12 0 (s.rsq.held.filter (fun c => decide (c.e = e))).length
  let s := if s.gapOpen e k = true ∧ s.b (rsqA e 0x040) (16 + k) = false then s.pmc (rsqPage e) 7 else s
  s.setB (rsqA e 0x040) (16 + k) (s.gapOpen e k)

/-- An acknowledgement goes out on the credit and acknowledgement network (R239, R261). -/
def State.sendAck (s : State) (k e seq : Nat) : State := { s with glf := { s.glf with acks := s.glf.acks ++ [(k, e, seq)] } }

/-- A duplicate cell: reason 0x1C, not a loss (R260 rows 3 and 5). -/
def State.dupCell (s : State) (e k seq : Nat) : State :=
  let s := ((s.bump (rsqA e 0x080)).cntAdd (rsqPage e) (0x9000 + 8 * 0x1C) 1).led (rsqPage e) 5 (k * 5 + e) 3
  (s.pmc (rsqPage e) 5).sendAck k e seq

/-! ### Cells arriving (R260) -/

/-- The next cell of a path arrives; `bad`: its header check fails. -/
def State.cellArrive (s : State) (e k p : Nat) (bad : Bool) : State :=
  if s.regionDown (20 + e) then s
  else
    match takeFirst (fun x => decide (x.e = e ∧ x.k = k ∧ x.plane = p) && !x.front) s.glf.flights with
    | none => s
    | some (c, rest) =>
      let s := { s with glf := { s.glf with flights := rest } }
      let d := (c.seq + 2 ^ 20 - s.rsqNext e k) % 2 ^ 20
      if bad then s.planeErr p k e
      else if 2 ^ 19 ≤ d ∨ s.isLost e k c.seq = true then s.dupCell e k c.seq
      else if 2048 ≤ d then s.bumpRise (rsqA e 0x090) (rsqPage e) 2 0x5403
      else if s.isHeld e k c.seq then s.dupCell e k c.seq
      else if 4096 ≤ (s.rsq.held.filter (fun x => decide (x.e = e))).length then
        s.bumpRise (rsqA e 0x08C) (rsqPage e) 2 0x5403
      else
        let h : HeldCell := { e, k, seq := c.seq, fid := c.fid, idx := c.idx, first := c.first, last := c.last }
        ({ s with rsq := { s.rsq with held := s.rsq.held ++ [h] } }.sendAck k e c.seq).rsqShow e k

def execRsqCellArrive (group staging plane : Group) (bad : Bool) (s : State) : Host.Outcome State Fault Refusal :=
  answer s (s.cellArrive group.val staging.val plane.val bad)

/-! ### Frames that fail past staging (R97, R264) -/

/-- The units of a frame in a group, each one in the drain counter: the share while no copy is made, else copies to be
edited and copies not yet settled. -/
def State.unitsOf (s : State) (e fid : Nat) : Nat :=
  let cs := s.copies.filter (fun c => decide (c.2.fid = fid ∧ c.2.e = e))
  match s.eframe e fid with
  | some x => x.todo.length + (cs.filter (fun c => decide (c.2.bad = 0))).length
  | none => if cs.isEmpty then 1 else (cs.filter (fun c => decide (c.2.bad = 0))).length

/-- Whether a copy is in transmission, preempted or not. -/
def State.inTx (s : State) (cid : Nat) : Bool :=
  s.tmg.tx.any (fun e => decide (e.2.copy = cid)) || s.tmg.yielded.any (fun e => decide (e.2.copy = cid))

/-- Stomp a copy in transmission (R98): it will end with the inverted FCS, its drain counter already settled. -/
def State.stompCopy (s : State) (cid : Nat) : State :=
  let f := fun (m : SMap TxState) => m.map (fun e => if e.2.copy = cid then (e.1, { e.2 with stomp := true }) else e)
  let s := { s with tmg := { s.tmg with tx := f s.tmg.tx, yielded := f s.tmg.yielded } }
  s.setCopy { s.copy cid with bad := 1 }

/-- A frame ends in a group under a reason already counted, or counted by the first of its units when `count` holds. Copies
in transmission are stomped, the others discarded; its further cells are discarded as they are passed out. -/
def State.endUnits (s : State) (e fid r : Nat) (count : Bool) : State :=
  let f := s.frame fid
  let n := s.unitsOf e fid
  let s := if n = 0 then s
    else
      let s := if count then s.leave (rsqPage e) f.version r else s.vanish (rsqPage e) f.version
      forEach (List.range (n - 1)) s (fun s _ => s.vanish (rsqPage e) f.version)
  let s := match s.eframe e fid with | some x => s.putEFrame { x with todo := [] } | none => s
  let s := forEach ((s.copies.filter (fun c => decide (c.2.fid = fid ∧ c.2.e = e))).map (fun c => c.2)) s (fun s c =>
    if s.inTx c.id then s.stompCopy c.id else (s.takeOff c true).endCopy c.id)
  match s.eframe e fid with
  | some x => s.closeEFrame x
  | none => s

/-- A frame that failed at ingress after cells had left (R97): it ends in this group without a further count. -/
def State.verdictEnd (s : State) (e fid : Nat) : State :=
  let f := s.frame fid
  (s.setFrame { f with left := true }).endUnits e fid f.verdict (!f.left)

/-- A frame or share dropped past staging under reason `r`, counted once at its ingress port by the block of a page. One that
already failed at ingress is not counted again. -/
def State.dropShare (s : State) (page e fid r : Nat) : State :=
  let f := s.frame fid
  if f.verdict ≠ 0 then s.verdictEnd e fid
  else ((s.countDrop page f.src r).capDrop f.src (f.info r)).endUnits e fid r true

/-- Whether a frame that has left staging has ended in every group it goes to though cells of it are still to come: each of
its shares or copies is counted already (R12). -/
def State.allEnded (s : State) (f : Frame) : Bool :=
  decide (0 < f.sentN) && (List.range 5).all (fun e => decide (bitsOf f.groups e e = 0) || s.rsq.dead.contains (e, f.id))

/-- Discard the further cells of a frame as they come out. -/
def State.markDead (s : State) (e fid : Nat) : State :=
  if s.rsq.dead.contains (e, fid) then s else { s with rsq := { s.rsq with dead := s.rsq.dead ++ [(e, fid)] } }
def State.unmarkDead (s : State) (e fid : Nat) : State :=
  ({ s with rsq := { s.rsq with dead := s.rsq.dead.filter (fun x => decide (x ≠ (e, fid))) } }).gcFrame fid

/-! ### Frame replication elimination (R266 to R271, R273) -/

/-- The place of an indirect entry: target 0 selectors, 1 configs, 2 states, 3 counters. -/
def rsqEntA (e t i : Nat) : Nat := e * 2 ^ 24 + t * 2 ^ 20 + i * [2, 8, 16, 32].getD t 32
def rsqEntSize (t : Nat) : Nat := [2, 6, 16, 28].getD t 28
def State.rsqEnt (s : State) (e t i : Nat) : List Byte := readBytes s.rsq.ind (rsqEntA e t i) (rsqEntSize t)
def State.setRsqEnt (s : State) (e t i : Nat) (bs : List Byte) : State :=
  { s with rsq := { s.rsq with ind := writeBytes s.rsq.ind (rsqEntA e t i) bs } }

/-- Count in counter `w` of an instance. -/
def State.rcvCount (s : State) (e i w : Nat) (n : Nat := 1) : State :=
  let c := s.rsqEnt e 3 i
  s.setRsqEnt e 3 i (putBytes c (4 * w) (leBytes 4 (satAdd 32 (leAt c (4 * w) 4) n)))

/-- The state of an instance: recov_seq, take_any, history. -/
def stateBytes (seq : Nat) (any : Bool) (hist : Nat) : List Byte :=
  leBytes 2 seq ++ leBytes 1 (b2n any) ++ leBytes 5 0 ++ leBytes 8 hist

/-- A rogue drop is captured first-only (R268). -/
def State.rogueCap (s : State) (e i seq recov : Nat) (tagless : Bool) : State :=
  if s.b (rsqA e 0x078) 31 then s
  else
    let c0 := 2 ^ 31 + b2n tagless * 2 ^ 30 + i * 65536 + seq
    ((s.wr (rsqA e 0x078) (word c0)).wr (rsqA e 0x07C) (word recov)).report (rsqPage e) 1 0x5402 c0 recov

/-- Number of 0 bits among the `d` oldest bits of an `h`-bit history. -/
def oldZeros (h hist d : Nat) : Nat :=
  ((List.range d).filter (fun i => decide (i < h) && decide (bitsOf hist (h - 1 - i) (h - 1 - i) = 0))).length

/-- The decision of R268 on sequence number `q`: reason (0 passes), state, out-of-order and lost to add. -/
def recover (match_ any : Bool) (h recov hist q : Nat) : Nat × (Nat × Nat) × Nat × Nat :=
  let delta := toSigned 16 (q + 65536 - recov)
  if any then (0, (q, 1), 0, 0)
  else if match_ then
    if q = recov then (0x10, (recov, hist), 0, 0)
    else (0, (q, hist), b2n (decide (q ≠ (recov + 1) % 65536)), 0)
  else if (h : Int) ≤ delta ∨ delta ≤ -(h : Int) then (0x11, (recov, hist), 0, 0)
  else if 0 < delta then
    let d := delta.toNat
    (0, (q, ((hist <<< d) ||| 1) % 2 ^ h), b2n (decide (1 < d)), oldZeros h hist d)
  else
    let b := (-delta).toNat
    if bitsOf hist b b = 1 then (0x10, (recov, hist), 0, 0)
    else (0, (recov, hist ||| 2 ^ b), 1, 0)

/-- Recovery of a frame whose first cell is passed out: the reason it is discarded under (0: it passes) and whether its
R-TAG is to be removed. -/
def State.frer (s : State) (e k : Nat) (f : Frame) : (Nat × Bool) × State :=
  let h := f.mdGet 0x0F
  let sel := leVal (s.rsqEnt e 0 (k * 4096 + h))
  if 4096 ≤ h ∨ sel < 32768 then ((0, false), s)
  else
    let i := sel % 1024
    let cfg := s.rsqEnt e 1 i
    let fl := leAt cfg 0 1
    if fl % 2 = 0 then ((0, false), s)
    else if leAt cfg 1 1 % 16 ≠ f.domain then ((0x0A, false), s)
    else
      let o := 12 + 4 * f.parse.tags
      let st := s.rsqEnt e 2 i
      let recov := leAt st 0 2
      let strip := decide (bitsOf fl 3 3 = 1)
      if beAt f.bytes o 2 ≠ 0xF1C1 then
        let s := s.rcvCount e i 6
        if bitsOf fl 2 2 = 1 then ((0, false), s.rcvCount e i 0)
        else ((0x11, false), ((s.rcvCount e i 3).rogueCap e i 0 recov true))
      else
        let q := beAt f.bytes (o + 4) 2
        let any := decide (leAt st 2 1 % 2 = 1)
        let (r, (seq, hist), ooo, lost) := recover (decide (bitsOf fl 1 1 = 1)) any (leAt cfg 2 1 % 128) recov (leAt st 8 8) q
        let s := (s.rcvCount e i 2 ooo).rcvCount e i 4 lost
        if r = 0 then ((0, strip), (s.rcvCount e i 0).setRsqEnt e 2 i (stateBytes seq false hist))
        else if r = 0x10 then ((r, false), s.rcvCount e i 1)
        else ((r, false), (s.rcvCount e i 3).rogueCap e i q recov false)

/-! ### Passing out (R262, R254, R255) -/

/-- The copies a group makes of a frame (R254): the unicast destination, or each valid list entry of the group's ports, at
most eight for one port; with the number of entries beyond that. -/
def State.copySpecs (s : State) (e : Nat) (f : Frame) : List CopySpec × Nat :=
  if f.mdGet 8 = 2 then
    let es := (List.range f.mcCount).filterMap (fun i =>
      let b := s.ent e 8 (f.mcHead + i)
      let port := leAt b 0 1 % 128
      if leAt b 0 1 < 128 ∨ groupOf port ≠ e ∨ 64 < port then none
      else
        let gates := if bitsOf (leAt b 6 1) 6 6 = 1 then (f.mdGet 0x0B, f.mdGet 0x0C) else (leAt b 6 1 / 8 % 8, leAt b 6 1 % 8)
        let q := port * 64 + gates.1 * 8 + gates.2
        some { port, vid := leAt b 2 2 % 4096, edit := leAt b 4 2 % 4096, queue := if port = 64 then none else some q, gates,
               owner := some (leAt b 7 1 % 16) : CopySpec })
    let r := es.foldl (fun (a : List CopySpec × Nat) x =>
      if 8 ≤ (a.1.filter (fun y => decide (y.port = x.port))).length then (a.1, a.2 + 1) else (a.1 ++ [x], a.2)) ([], 0)
    r
  else if f.mdGet 8 = 3 then ([{ port := 64 }], 0)
  else
    let port := f.mdGet 9
    ([{ port, queue := if port = 64 then none else some f.queueId }], 0)

/-- The first uncorrectable word among a frame's list entries in the copy of group `e` (R489). -/
def State.badList (s : State) (e : Nat) (f : Frame) : Option Nat :=
  if f.mdGet 8 = 2 then ((List.range f.mcCount).map (fun i => entAt 8 (f.mcHead + i))).find? (fun o => s.unreadable e o) else none

/-- A frame's first cell reaches the egress edit: recovery, then its copies. -/
def State.firstCell (s : State) (e k : Nat) (c : HeldCell) : State :=
  let f := s.frame c.fid
  let ((r, strip), s) := s.frer e k f
  if r ≠ 0 then
    let s := if r = 0x10 then s.bump (rsqA e 0x094) else if r = 0x11 then s.bump (rsqA e 0x098) else s
    let s := s.dropShare (rsqPage e) e c.fid r
    if c.last then s.gcFrame c.fid else s.markDead e c.fid
  else
    match s.badList e f with
    | some o =>
      let s := (s.wordBad e o).dropShare (rsqPage e) e c.fid 0x1A
      if c.last then s.gcFrame c.fid else s.markDead e c.fid
    | none =>
    let (todo, bad) := s.copySpecs e f
    let s := forEach (List.range bad) s (fun s _ => s.progFault e)
    if todo.isEmpty then
      let s := (s.bumpRise (glfA 0x094) 15 4 0x3C05).vanish (rsqPage e) f.version
      if c.last then s.gcFrame c.fid else s.markDead e c.fid
    else
      let s := if 1 < todo.length then s.replicate (rsqPage e) f.version todo.length else s
      let x : EFrame := { e, fid := c.fid, k, order := s.nextId, got := 1, last := c.last, strip, todo }
      { s with eframes := s.eframes ++ [x], nextId := s.nextId + 1 }

/-- A cell reaches the egress edit of its group; a bad verdict comes with the last one. -/
def State.egressCell (s : State) (e k : Nat) (c : HeldCell) : State :=
  let f := s.frame c.fid
  let s :=
    if s.rsq.dead.contains (e, c.fid) then (if c.last then s.unmarkDead e c.fid else s)
    else if c.first then s.firstCell e k c
    else
      match s.eframe e c.fid with
      | some x => s.putEFrame { x with got := x.got + (if f.verdict ≠ 0 ∧ f.bytes.length ≤ 256 * c.idx then 0 else 1), last := c.last }
      | none => s
  if c.last = true ∧ f.verdict ≠ 0 ∧ (s.eframe e c.fid).isSome then s.verdictEnd e c.fid else s

/-- Take the held cell numbered `seq` of a source out: its slot is freed, its credit returns. -/
def State.passOut (s : State) (e k : Nat) (c : HeldCell) : State :=
  let s := { s with rsq := { s.rsq with held := s.rsq.held.filter (fun x => decide (x ≠ c)) } }
  let s := ((s.returnCredit (rsqPage e) k e c.seq).led (rsqPage e) 5 (k * 5 + e) 1).pmc (rsqPage e) 4
  let s := s.setF (rsqA e (0x050 + 4 * k)) 19 0 (c.seq + 1)
  s.egressCell e k c

/-- Whether source k's front is due at group e before the cell numbered next (R265). -/
def State.frontDue (s : State) (e k : Nat) : Bool := s.glf.marks.contains (k * 5 + e, s.rsqNext e k)

/-- Next passes the numbers declared lost that stand at it, short of a front that is due; a frame whose last cell is among
them is done with. -/
def State.skipLost : Nat → Nat → Nat → State → State
  | 0, _, _, s => s
  | n + 1, e, k, s =>
    if s.frontDue e k then s
    else
      match takeFirst (fun x => decide (x.e = e ∧ x.k = k ∧ x.seq = s.rsqNext e k)) s.rsq.lost with
      | none => s
      | some (x, rest) =>
        let s := { s with rsq := { s.rsq with lost := rest } }.setF (rsqA e (0x050 + 4 * k)) 19 0 (x.seq + 1)
        skipLost n e k (match x.fid with | some i => s.unmarkDead e i | none => s)

/-- The held cell numbered next of a source, unless its front is due first (R265). -/
def State.readyCell (s : State) (e k : Nat) : Option HeldCell :=
  if s.frontDue e k then none
  else (s.heldOf e k).find? (fun c => decide (c.seq = s.rsqNext e k))

/-- A held cell is passed out, and the lost numbers behind it with it. -/
def State.passOn (s : State) (e k : Nat) (c : HeldCell) : State :=
  let s := s.passOut e k c
  State.skipLost s.rsq.lost.length e k s

/-- R262: the sources with a cell ready, in round robin, one cell at a time. -/
def State.cellPassOut (s : State) (e : Nat) : State :=
  if s.regionDown (20 + e) ∨ s.regionDown (25 + e) then s
  else
    match ((List.range 5).map (fun i => (s.rsq.rr.at 0 e + 1 + i) % 5)).find? (fun k => (s.readyCell e k).isSome) with
    | none => s
    | some k =>
      match s.readyCell e k with
      | none => s
      | some c => ({ s with rsq := { s.rsq with rr := s.rsq.rr.put 0 e k } }.passOn e k c).rsqShow e k

def execRsqCellPassOut (group : Group) (s : State) : Host.Outcome State Fault Refusal := answer s (s.cellPassOut group.val)

/-! ### Gap timeouts (R263, R264) -/

/-- What staging knows of a number sent: its cell. -/
def State.sentCell (s : State) (k e seq : Nat) : Option SentCell :=
  s.glf.unacked.find? (fun c => decide (c.k = k) && c.wait.contains (e, seq))

/-- Whether a number of a source was sent after a front that group e has not passed yet. -/
def State.pastFront (s : State) (e k seq : Nat) : Bool :=
  s.glf.marks.any (fun m => decide (m.1 = k * 5 + e ∧ (seq + 2 ^ 20 - m.2) % 2 ^ 20 < 2 ^ 19))

/-- Declare one number lost: its credit returns, staging gets a loss acknowledgement. A number sent after a front counts in
the period after it, in which its sending counted. -/
def State.loseNumber (s : State) (e k seq : Nat) : State :=
  let page := if s.pastFront e k seq then polPage k else rsqPage e
  let fid := match s.sentCell k e seq with | some c => if c.last then some c.fid else none | none => none
  let s := { s with rsq := { s.rsq with lost := s.rsq.lost ++ [(⟨e, k, seq, fid⟩ : LostNum)] } }
  (((s.bump (rsqA e 0x088)).led page 5 (k * 5 + e) 2).returnCredit page k e seq).sendAck k e seq

/-- Frames of the lost numbers end in the group under reason `r` (R264, or R489 with 0x1A): the cells of them that are held,
or still to be numbered next, are discarded as they come out. -/
def State.loseFrames (s : State) (e k r : Nat) (lost : List Nat) : State :=
  let cells := lost.filterMap (fun n => s.sentCell k e n)
  forEach (cells.map (fun c => c.fid)).eraseDups s (fun s fid =>
    if s.rsq.dead.contains (e, fid) then s
    else
      let s := if r = 0x12 ∧ (s.frame fid).verdict = 0 then s.bump (rsqA e 0x084) else s
      (s.dropShare (rsqPage e) e fid r).markDead e fid)

/-- Steps 2 and 3 of R264 over a run of a source's numbers: those lost are declared so, those held pass out in order, all of
them short of a front that is due. -/
def State.loseRun (s : State) (e k r : Nat) (nums lost : List Nat) : State :=
  let s := forEach lost (s.loseFrames e k r lost) (fun s n => s.loseNumber e k n)
  let s := forEach nums (State.skipLost s.rsq.lost.length e k s) (fun s _ =>
    match s.readyCell e k with
    | some c => s.passOn e k c
    | none => s)
  s.rsqShow e k

/-- A gap timeout of source k at group e. -/
def State.gapTimeout (s : State) (e k : Nat) : State :=
  let nums := s.gapNumbers e k
  let lost := nums.filter (fun n => !s.isHeld e k n && !s.isLost e k n)
  if s.gapOpen e k = false ∨ s.regionDown (20 + e) = true then s
  else
    let first := lost.headD 0
    let s :=
      if s.b (rsqA e 0x048) 31 then s
      else
        let f := match s.sentCell k e first with | some c => s.frame c.fid | none => {}
        let c1 := min lost.length 65535 * 65536 + f.src * 256 + f.version * 16 + f.domain
        ((s.wr (rsqA e 0x048) (word (2 ^ 31 + k * 2 ^ 24 + first))).wr (rsqA e 0x04C) (word c1)).report (rsqPage e) 0 0x5401
    s.loseRun e k 0x12 nums lost

def execGapTimeout (group staging : Group) (s : State) : Host.Outcome State Fault Refusal :=
  answer s (s.gapTimeout group.val staging.val)

/-- R269: reset_time has passed with no tagged frame passed. -/
def State.recoveryReset (s : State) (e i : Nat) : State :=
  let cfg := s.rsqEnt e 1 i
  let st := s.rsqEnt e 2 i
  if leAt cfg 0 1 % 2 = 0 ∨ leAt st 2 1 % 2 = 1 then s
  else (s.setRsqEnt e 2 i (stateBytes (leAt st 0 2) true (leAt st 8 8))).rcvCount e i 5

def execRecoveryResetTimeout (group : Group) (inst : Fin 1024) (s : State) : Host.Outcome State Fault Refusal :=
  answer s (s.recoveryReset group.val inst.val)

/-! ### Indirect access (R273, R274) -/

/-- Entries of a target. -/
def rsqCount (t : Nat) : Nat := if t = 0 then 20480 else 1024

/-- err 1 of a write: index, reserved bits of the entry, ranges. Data past the entry's last byte takes no part. -/
def rsqBad (t i : Nat) (bs : List Byte) : Bool :=
  decide (rsqCount t ≤ i) ||
  (match t with
   | 0 => decide (bitsOf (leAt bs 0 2) 14 10 ≠ 0)
   | 1 =>
     decide (leAt bs 0 1 / 32 ≠ 0) || decide (leAt bs 1 1 / 16 ≠ 0) || decide (leAt bs 2 1 / 128 ≠ 0) ||
     decide (leAt bs 3 1 ≠ 0) ||
     (decide (leAt bs 0 1 % 2 = 1) &&
       ((decide (bitsOf (leAt bs 0 1) 1 1 = 0) && !(decide (2 ≤ leAt bs 2 1 ∧ leAt bs 2 1 ≤ 64))) || decide (leAt bs 4 2 = 0)))
   | _ => false)

/-- The owner of an indirect entry as it stands, none for an invalid selector. -/
def State.rsqOwner (s : State) (e t i : Nat) (bs : List Byte) : Option Nat :=
  if t = 0 then
    (if 32768 ≤ leAt bs 0 2 then some (leAt (s.rsqEnt e 1 (leAt bs 0 2 % 1024)) 1 1 % 16) else none)
  else some (leAt (s.rsqEnt e 1 i) 1 1 % 16)

/-- err 2 of a write by the host (domain 0) or the warden for a domain (R437). -/
def State.rsqFenced (s : State) (e t i d : Nat) (bs : List Byte) : Bool :=
  let now := s.rsqOwner e t i (s.rsqEnt e t i)
  let other := fun (o : Option Nat) => match o with | some x => decide (x ≠ d) | none => false
  if t = 0 then other now || other (s.rsqOwner e 0 i bs)
  else if t = 1 then other now || decide (leAt bs 1 1 % 16 ≠ leAt (s.rsqEnt e 1 i) 1 1 % 16)
  else other now

/-- Carry out a write of an entry. -/
def State.rsqWrite (s : State) (e t i : Nat) (bs : List Byte) : State :=
  match t with
  | 0 => s.setRsqEnt e 0 i (slice bs 0 2)
  | 1 =>
    let old := s.rsqEnt e 1 i
    let new := putBytes (slice bs 0 6) 0 [BitVec.ofNat 8 (leAt bs 0 1 % 16)]
    let changed := decide ((leAt old 0 1 % 4, leAt old 2 1) ≠ (leAt new 0 1 % 4, leAt new 2 1))
    let reset := decide (bitsOf (leAt bs 0 1) 4 4 = 1)
    let s := s.setRsqEnt e 1 i new
    let s := if changed || reset then s.setRsqEnt e 2 i (stateBytes (leAt (s.rsqEnt e 2 i) 0 2) true 0) else s
    if reset then s.rcvCount e i 5 else s
  | _ => s.setRsqEnt e 3 i (List.replicate 28 0)

/-- The data registers as bytes, and bytes put into them. -/
def State.rsqData (s : State) (e : Nat) : List Byte :=
  (List.range 7).flatMap (fun w => leBytes 4 (s.rd (rsqA e (0x0C0 + 4 * w))).toNat)
def State.setRsqData (s : State) (e : Nat) (bs : List Byte) : State :=
  forEach (List.range 7) s (fun s w => s.wr (rsqA e (0x0C0 + 4 * w)) (word (leAt bs (4 * w) 4)))

/-- An indirect access made for domain `d`: its err (R274), the bytes read, the state after it. -/
def State.rsqDo (s : State) (e t i d : Nat) (write : Bool) (bs : List Byte) : Nat × List Byte × State :=
  if rsqCount t ≤ i then (1, [], s)
  else if write = false then
    let own := (s.rsqOwner e t i (s.rsqEnt e t i)).getD 0
    if d ≠ 0 ∧ (own ≠ d ∨ (s.rsqOwner e t i (s.rsqEnt e t i)).isNone) then (2, [], s)
    else (0, if own ≠ d ∧ s.sec.views.contains own = true then [] else s.rsqEnt e t i, s)
  else if t ≠ 3 ∧ rsqBad t i bs = true then (1, [], s)
  else if t = 2 then (3, [], s)
  else if s.rsqFenced e t i d bs then (2, [], s)
  else (0, [], s.rsqWrite e t i bs)

/-- The access an RSQ_IND_CTL names, made for domain `d`: its err (R274) and the state after it. -/
def State.rsqAccess (s : State) (e d : Nat) : Nat × State :=
  let c := s.rd (rsqA e 0x0A0)
  let r := s.rsqDo e (fld c 17 16) (fld c 14 0) d (bit c 20) (s.rsqData e)
  if r.1 = 0 ∧ bit c 20 = false then (0, r.2.2.setRsqData e r.2.1) else (r.1, r.2.2)

/-- An RSQ_IND_CTL write of go 1 by the host starts an access. -/
def State.rsqStart (s : State) (e t i : Nat) (write : Bool) : State :=
  s.hostWriteWith (rsqA e 0x0A0) (word (2 ^ 24 + b2n write * 2 ^ 20 + t * 65536 + i)) true
    (fun _ s => (s.setB (rsqA e 0x0A0) 24 false).setB (rsqA e 0x0A0) 31 true)

def execRsqIndRead (group : Group) (target : Fin 4) (index : BitVec 15) (s : State) : Host.Outcome State Fault Refusal :=
  answer s (s.rsqStart group.val target.val index.toNat false)

def execRsqIndWrite (group : Group) (target : Fin 4) (index : BitVec 15) (s : State) : Host.Outcome State Fault Refusal :=
  answer s (s.rsqStart group.val target.val index.toNat true)

/-- The access in progress completes: busy clears and err reports it. -/
def State.rsqIndDone (s : State) (e : Nat) : State :=
  if s.b (rsqA e 0x0A0) 31 = false then s
  else
    let (err, s) := s.rsqAccess e (s.rsq.indBusy.at 0 e)
    (s.setB (rsqA e 0x0A0) 31 false).setF (rsqA e 0x0A0) 29 28 err

def execRsqIndDone (group : Group) (s : State) : Host.Outcome State Fault Refusal := answer s (s.rsqIndDone group.val)

end Sys2Proof.Machine
end

