-- ==== Sys2Proof/Machine/Egress.lean ====
section
/-! DEFINITION. The egress edit (R151 to R153, R224, R272, R383 to R385): fences, lookups, translation, edit operations and
checksums of each copy. -/

namespace Sys2Proof.Machine

/-! ### What an edit works on -/

/-- A copy being edited: the bytes of its first cell, header records (offset, hdr_id), data end, and net change in length. -/
structure Edit where
  bytes : List Byte
  hdrs  : List (Nat × Nat)
  dEnd  : Option Nat
  delta : Int := 0
  deriving DecidableEq, Repr

/-- The last byte an operation may reach. -/
def Edit.bound (x : Edit) : Nat := match x.dEnd with | some d => min d 256 | none => 256

def Edit.header (x : Edit) (hdr occ : Nat) : Option Nat :=
  match (x.hdrs.filter (fun r => decide (r.2 = hdr))).drop occ with
  | r :: _ => some r.1
  | [] => none

/-- Overwrite bytes; none when they would lie past the data end or byte 255. DESIGN CHOICE: the edit works on the first cell,
so bytes that deletes have moved below byte 256 from the second cell are out of reach too, and the step is skipped. -/
def Edit.write (x : Edit) (pos : Nat) (bs : List Byte) : Option Edit :=
  if pos + bs.length ≤ x.bound ∧ pos + bs.length ≤ x.bytes.length then some { x with bytes := putBytes x.bytes pos bs } else none

/-- Insert bytes; headers from the place on move. -/
def Edit.insert (x : Edit) (pos : Nat) (bs : List Byte) : Option Edit :=
  let n := bs.length
  let within := match x.dEnd with | some d => decide (pos ≤ d) | none => true
  if within = true ∧ pos + n ≤ 256 ∧ pos ≤ x.bytes.length ∧ x.delta + n ≤ 64 then
    some { bytes := x.bytes.take pos ++ bs ++ x.bytes.drop pos,
           hdrs := x.hdrs.map (fun r => if pos ≤ r.1 then (r.1 + n, r.2) else r),
           dEnd := x.dEnd.map (fun d => d + n), delta := x.delta + n }
  else none

/-- Delete bytes; later headers move back. -/
def Edit.delete (x : Edit) (pos n : Nat) : Option Edit :=
  if pos + n ≤ x.bound ∧ pos + n ≤ x.bytes.length ∧ -64 ≤ x.delta - n then
    some { bytes := x.bytes.take pos ++ x.bytes.drop (pos + n),
           hdrs := x.hdrs.map (fun r => (if pos + n ≤ r.1 then r.1 - n else min r.1 pos, r.2)),
           dEnd := x.dEnd.map (fun d => d - n), delta := x.delta - n }
  else none

/-- An edit step that is skipped when it cannot be made, and counted (R153). -/
def State.editStep (s : State) (e : Nat) (x : Edit) (r : Option Edit) : Edit × State :=
  match r with
  | some y => (y, s)
  | none => (x, s.bump (pipA e 0x074))

/-! ### Edit programs (R152) -/

/-- A program that runs for a frame: live for its version and owned by its domain. -/
def State.editProg (s : State) (e i : Nat) (f : Frame) : Option (List Byte) :=
  let b := s.ent e 10 i
  if decide (leAt b 1 1 % 16 = f.domain) && (entVers 10 0 b).any (fun x => liveFor x.1 x.2.1 f.version) then some b else none

/-- Whether a sequence chain holds a DROP that ends a copy (order 2). -/
def State.seqDrops (s : State) (e : Nat) (f : Frame) : Nat → Nat → Bool
  | 0, _ => false
  | n + 1, i =>
    if i = 0 ∨ s.seqOk e i f = false then false
    else
      let b := s.ent e 9 i
      (List.range (leAt b 1 1 / 16 % 8)).any (fun j => decide (leAt b (4 + 4 * j) 4 = 6 * 2 ^ 26)) ||
      (decide (128 ≤ leAt b 3 1) && State.seqDrops s e f n (leAt b 2 2 % 16384))

/-- One lookup of a program: its 16 bytes of data when it hits, and the reason for which it ends the copy, 0 none: 0x09 by its
sequence, 0x1A by an uncorrectable word (R489). -/
def State.editLookup (s : State) (e : Nat) (f : Frame) (t tp : Nat) : (Option (List Byte) × Nat) × State :=
  if t = 15 then ((none, 0), s)
  else if t ≠ 0 ∧ t ≠ 1 ∧ t ≠ 4 ∧ t ≠ 6 then ((none, 0), s.progFault e)
  else if tooWide t (s.tplWidth e tp) then ((none, 0), s.progFault e)
  else
    match s.tplKey e tp f with
    | .bad => ((none, 0), s.progFault e)
    | .absent => ((none, 0), s)
    | .ok key _ =>
      match s.badLookup e t f.domain key with
      | some o => ((none, 0x1A), s.wordBad e o)
      | none =>
        match s.lookupIn e t f key with
        | none => ((none, 0), s)
        | some j =>
          let b := s.ent e t j
          let a := sfld b 248 235
          ((some (slice b 0 16), if t = 6 ∧ a ≠ 0 ∧ s.seqDrops e f 3 a = true then 0x09 else 0), s)

/-- The two lookups of a program, with the greater of the reasons for which they end the copy. -/
def State.progLookups (s : State) (e : Nat) (f : Frame) (b : List Byte) : (List (Option (List Byte)) × Nat) × State :=
  let ((d0, k0), s) := s.editLookup e f (leAt b 2 1 % 16) (leAt b 4 1)
  let ((d1, k1), s) := s.editLookup e f (leAt b 2 1 / 16) (leAt b 5 1)
  (([d0, d1], max k0 k1), s)

/-- What an operation's source gives: a fault, a lookup that made no hit, or bytes. -/
inductive OpSrc where
  | fault | noHit | ok (bs : List Byte)
  deriving DecidableEq, Repr

/-- The source bytes of operation `i` of a program. -/
def opSource (b : List Byte) (i : Nat) (f : Frame) (data : List (Option (List Byte))) : OpSrc :=
  let n := leAt b (11 + 7 * i) 1 % 32
  let sel := leAt b (13 + 7 * i) 2
  match leAt b (12 + 7 * i) 1 % 4 with
  | 0 => if n ≤ 2 then .ok (beBytes n (sel % 2 ^ (8 * n))) else .fault
  | 1 => if n ≤ 4 ∧ sel < 0x1A then .ok (beBytes n (f.mdGet sel)) else .fault
  | m =>
    if 16 < sel + n then .fault
    else
      match data.getD (m - 2) none with
      | some d => .ok (slice d sel n)
      | none => .noHit

/-- One operation of a program (R152, R153). -/
def State.editOp (s : State) (e : Nat) (f : Frame) (b : List Byte) (data : List (Option (List Byte))) (x : Edit) (i : Nat) :
    Edit × State :=
  let kind := leAt b (8 + 7 * i) 1 % 16
  let n := leAt b (11 + 7 * i) 1 % 32
  if kind = 0 ∨ 3 < kind then (x, s)
  else if n = 0 ∨ 16 < n then (x, s.progFault e)
  else
    match x.header (leAt b (9 + 7 * i) 1 % 64) (leAt b (9 + 7 * i) 1 / 64) with
    | none => s.editStep e x none
    | some h =>
      let pos := h + leAt b (10 + 7 * i) 1
      if kind = 3 then s.editStep e x (x.delete pos n)
      else
        match opSource b i f data with
        | .fault => (x, s.progFault e)
        | .noHit => s.editStep e x none
        | .ok bs => s.editStep e x (if kind = 1 then x.write pos bs else x.insert pos bs)

/-- The operations of a program, in order. -/
def State.editOps (s : State) (e : Nat) (f : Frame) (prog : Option (List Byte × List (Option (List Byte)))) (x : Edit) : Edit × State :=
  match prog with
  | none => (x, s)
  | some (b, data) =>
    (List.range (leAt b 1 1 / 16)).foldl (fun (a : Edit × State) i => a.2.editOp e f b data a.1 i) (x, s)

/-! ### Order 3, and R-TAGs -/

/-- The R-NAT translation and the TTL decrement requested at ingress. -/
def State.editOrder3 (s : State) (e : Nat) (f : Frame) (x : Edit) : Edit × State :=
  let (x, s) :=
    if f.acts.rnatReq then
      let b := f.acts.rnatEnt
      let r := match x.header (leAt b 10 1 % 64) (leAt b 9 1 % 4) with
        | some o => x.write (o + (if bitsOf (leAt b 9 1) 4 4 = 1 then 16 else 12)) (slice b 12 4)
        | none => none
      s.editStep e x r
    else (x, s)
  match f.acts.ttl with
  | none => (x, s)
  | some (hdr, occ) =>
    let r := match (x.header hdr occ).bind (ttlAt x.bytes hdr) with
      | some o => x.write o [BitVec.ofNat 8 (beAt x.bytes o 1 - 1)]
      | none => none
    s.editStep e x r

/-- The end of a run of at most `n` VLAN tags from byte `o`: EtherType 0x8100 or the second TPID while it is enabled (R114). -/
def tagRun (tp : Word) (bs : List Byte) : Nat → Nat → Nat
  | 0, o => o
  | n + 1, o =>
    let t := beAt bs o 2
    if t = 0x8100 ∨ (bit tp 16 = true ∧ t = fld tp 15 0) then tagRun tp bs n (o + 4) else o

/-- Where an R-TAG stands in a copy as it is edited so far: after its last VLAN tag, before the final EtherType. Of a frame as
received the front end reads two tags at most (R114); bytes inserted may hold more. -/
def State.tagEnd (s : State) (f : Frame) (x : Edit) : Nat :=
  tagRun (s.tpid f.pipe f.version) x.bytes (2 + (x.delta.toNat + 3) / 4) 12

/-- R272: the R-TAG is removed. -/
def State.editStrip (s : State) (e : Nat) (f : Frame) (strip : Bool) (x : Edit) : Edit × State :=
  let o := s.tagEnd f x
  if strip = true ∧ beAt x.bytes o 2 = 0xF1C1 then s.editStep e x (x.delete o 6) else (x, s)

/-- R224: the R-TAG is inserted, or the one already there takes the frame's number. -/
def State.editRtag (s : State) (e : Nat) (f : Frame) (x : Edit) : Edit × State :=
  match f.rtag, f.seqNo with
  | true, some n =>
    let tag := beBytes 2 0xF1C1 ++ beBytes 2 0 ++ beBytes 2 n
    let o := s.tagEnd f x
    s.editStep e x (if beAt x.bytes o 2 = 0xF1C1 then x.write o tag else x.insert o tag)
  | _, _ => (x, s)

/-! ### Checksums (R385) -/

/-- One's complement sum of bytes taken as 16-bit words, the last padded with 0. -/
def sum16 : List Byte → Nat
  | [] => 0
  | [b] => b.toNat * 256
  | a :: b :: r => a.toNat * 256 + b.toNat + sum16 r

/-- Fold carries into 16 bits. -/
def fold16 (n : Nat) : Nat := if n = 0 then 0 else (n - 1) % 65535 + 1

/-- RFC 1624: a checksum after the sum of the covered words has changed. -/
def adjustSum (c old new : Nat) : Nat := 65535 - fold16 ((65535 - c) + 65535 - fold16 old + new)

/-- The kinds of header the editor keeps a checksum of: IPv4, UDP and TCP over either version of IP. -/
inductive SumHdr where
  | ipv4 | udp4 | udp6 | tcp4 | tcp6
  deriving DecidableEq, Repr

/-- Whether an IPv4 (4) or IPv6 (6) header starts at `o`: by the EtherType before it, or the protocol of the IP header it
directly follows. -/
def ipAt (bs : List Byte) (prev : Option (Nat × Nat)) (o : Nat) : Option Nat :=
  let v := beAt bs o 1 / 16
  let inIp := match prev with
    | some (4, p) => decide (p + beAt bs p 1 % 16 * 4 = o) && (decide (beAt bs (p + 9) 1 = 4) || decide (beAt bs (p + 9) 1 = 41))
    | some (_, p) => decide (p + 40 = o) && (decide (beAt bs (p + 6) 1 = 4) || decide (beAt bs (p + 6) 1 = 41))
    | none => false
  let et := if 2 ≤ o then beAt bs (o - 2) 2 else 0
  if v = 4 ∧ (et = 0x0800 ∨ inIp = true) then some 4
  else if v = 6 ∧ (et = 0x86DD ∨ inIp = true) then some 6
  else none

/-- The headers with checksums among the records: kind, record index, and the enclosing IP header's record index. -/
def sumHdrs (bs : List Byte) (recs : List (Nat × Nat)) : List (SumHdr × Nat × Nat) :=
  (recs.foldl (fun (a : List (SumHdr × Nat × Nat) × Option (Nat × Nat × Nat) × Nat) r =>
    let (out, ip, n) := a
    let o := r.1
    match ipAt bs (ip.map (fun x => (x.1, x.2.1))) o with
    | some 4 => (out ++ [(.ipv4, n, n)], some (4, o, n), n + 1)
    | some v => (out, some (v, o, n), n + 1)
    | none =>
      match ip with
      | some (4, p, m) =>
        if p + beAt bs p 1 % 16 * 4 = o ∧ beAt bs (p + 9) 1 = 17 then (out ++ [(.udp4, n, m)], ip, n + 1)
        else if p + beAt bs p 1 % 16 * 4 = o ∧ beAt bs (p + 9) 1 = 6 then (out ++ [(.tcp4, n, m)], ip, n + 1)
        else (out, ip, n + 1)
      | some (_, p, m) =>
        if p + 40 = o ∧ beAt bs (p + 6) 1 = 17 then (out ++ [(.udp6, n, m)], ip, n + 1)
        else if p + 40 = o ∧ beAt bs (p + 6) 1 = 6 then (out ++ [(.tcp6, n, m)], ip, n + 1)
        else (out, ip, n + 1)
      | none => (out, none, n + 1)) ([], none, 0)).1

/-- The bytes a checksum covers by the length its protocol states, its own field as 0: header `o`, enclosing IP header `p`. -/
def covered (bs : List Byte) (k : SumHdr) (o p : Nat) : List Byte :=
  let udp := (bs.drop o).take (beAt bs (o + 4) 2)
  let len4 := beAt bs (p + 2) 2 - beAt bs p 1 % 16 * 4
  match k with
  | .ipv4 => putBytes (slice bs o (beAt bs o 1 % 16 * 4)) 10 [0, 0]
  | .udp4 => slice bs (p + 12) 8 ++ [0, 17] ++ slice bs (o + 4) 2 ++ putBytes udp 6 [0, 0]
  | .udp6 => slice bs (p + 8) 32 ++ slice bs (o + 4) 2 ++ [0, 17] ++ putBytes udp 6 [0, 0]
  | .tcp4 => slice bs (p + 12) 8 ++ [0, 6] ++ beBytes 2 len4 ++ putBytes ((bs.drop o).take len4) 16 [0, 0]
  | .tcp6 => slice bs (p + 8) 32 ++ slice bs (p + 4) 2 ++ [0, 6] ++ putBytes ((bs.drop o).take (beAt bs (p + 4) 2)) 16 [0, 0]

/-- Where a checksum field stands in its header. -/
def sumField : SumHdr → Nat
  | .ipv4 => 10
  | .udp4 => 6
  | .udp6 => 6
  | .tcp4 => 16
  | .tcp6 => 16

/-- Update one checksum when the bytes it covers have changed. -/
def State.editSum (s : State) (e : Nat) (orig : Edit) (x : Edit) (h : SumHdr × Nat × Nat) : Edit × State :=
  let (k, i, m) := h
  let at_ := fun (y : Edit) (j : Nat) => (y.hdrs.getD j (0, 0)).1
  let old := covered orig.bytes k (at_ orig i) (at_ orig m)
  let new := covered x.bytes k (at_ x i) (at_ x m)
  if old = new then (x, s)
  else
    let o := at_ x i + sumField k
    let c := beAt x.bytes o 2
    if k = .udp4 ∧ c = 0 then (x, s)
    else
      let c' := adjustSum c (sum16 old) (sum16 new)
      let c' := if k = .udp6 ∧ c' = 0 then 0xFFFF else c'
      s.editStep e x (x.write o (beBytes 2 c'))

/-- Order 5: inner headers first, since an outer checksum covers the inner ones. -/
def State.editSums (s : State) (e : Nat) (orig x : Edit) : Edit × State :=
  (sumHdrs orig.bytes orig.hdrs).reverse.foldl (fun (a : Edit × State) h => a.2.editSum e orig a.1 h) (x, s)

/-! ### EGRESS_EDIT -/

/-- The owner of a copy's queue or ring. -/
def State.copyOwner (s : State) (f : Frame) (c : CopySpec) : Nat :=
  match c.queue with
  | some q => s.qOwner q
  | none => s.ringDomain (f.mdGet 0x0D)

/-- Whether a front port counts as link down for its queues (R100, R322). -/
def State.portDown (s : State) (p : Nat) : Bool := decide (p < 64) && (!s.b (macA p 0x048) 0 || !(s.mac p).txEn)

/-- A copy that passes the edit waits for admission. -/
def State.editKeep (s : State) (c : Copy) : State :=
  match s.eframe c.e c.fid with
  | some x => (s.setCopy c).putEFrame { x with ready := x.ready ++ [c.id] }
  | none => s

/-- A copy that ends at the edit: counted at its egress port. -/
def State.editDrop (s : State) (e : Nat) (c : Copy) (r : Nat) : State := (s.editKeep c).dropCopy (pipPage e) c.id r

/-- A copy dropped under 0x18: captured and counted by kind (R384, R386, R388). -/
def State.intDrop (s : State) (kind e port cell carried seen : Nat) : State :=
  let s := s.bump (staA (0x450 + 4 * (kind - 1)))
  if s.b (staA 0x440) 31 then s
  else
    let w := 2 ^ 31 + kind * 2 ^ 24 + e * 65536 + port * 256 + cell
    (((s.wr (staA 0x440) (word w)).wr (staA 0x444) (word carried)).wr (staA 0x448) (word seen)).report 9 17 0x2411

/-- The port program of a copy's port. -/
def State.portProg (s : State) (e port : Nat) : Nat := s.f (pipA e (0x100 + 4 * (if port < 64 then port % 16 else port - 64))) 11 0

/-- A program named by index: none for 0, a program fault when it may not run. -/
def State.namedProg (s : State) (e i : Nat) (f : Frame) : Option (List Byte) × State :=
  if i = 0 then (none, s)
  else match s.editProg e i f with
    | some b => (some b, s)
    | none => (none, s.progFault e)

/-- A frame's metadata as a copy of it has them at the edit: its own port, and what its list entry gives it (R254). -/
def copyView (f : Frame) (spec : CopySpec) : Frame :=
  let f := f.mdSet 9 spec.port
  let f := if spec.vid = 0 then f else f.mdSet 5 spec.vid
  let f := if spec.edit = 0 then f else f.mdSet 0x12 spec.edit
  match spec.gates with
  | some (g, q) => (f.mdSet 0x0B g).mdSet 0x0C q
  | none => f

/-- A frame that goes round again takes the TTL and RNAT requests and the POL actions of its pass, with the checksums they
change; programs wait for its last pass (R149). DEDUCED: an R-TAG is inserted, or removed, in "every copy" (R224, R272), also
in the one that goes round. -/
def State.editRound (s : State) (e : Nat) (f : Frame) (strip : Bool) (c : Copy) : State :=
  let orig : Edit := { bytes := f.bytes.take 256, hdrs := f.parse.recs, dEnd := f.parse.dataEnd }
  let (x, s) := s.editOrder3 e f orig
  let (x, s) := s.editStrip e f strip x
  let (x, s) := s.editRtag e f x
  let (x, s) := s.editSums e orig x
  (s.editKeep { c with head := x.bytes, delta := x.delta }).pmc (pipPage e) 1

/-- Orders 2 to 6 of R151 on a copy. -/
def State.editCopy (s : State) (e : Nat) (f : Frame) (strip : Bool) (spec : CopySpec) (c : Copy) : State :=
  let f := copyView f spec
  let (p1, s) := s.namedProg e (f.mdGet 0x12) f
  let (r1, s) := match p1 with
    | some b => let (r, s) := s.progLookups e f b; (some (b, r.1, r.2), s)
    | none => (none, s)
  let (p2, s) := s.namedProg e (s.portProg e spec.port) f
  let (r2, s) := match p2 with
    | some b => let (r, s) := s.progLookups e f b; (some (b, r.1, r.2), s)
    | none => (none, s)
  let ends := max (match r1 with | some (_, _, k) => k | none => 0) (match r2 with | some (_, _, k) => k | none => 0)
  if ends = 0x1A then (s.editKeep c).dropCopyAt (pipPage e) (s.frame c.fid).src c.id 0x1A
  else if ends ≠ 0 then (s.bump (pipA e 0x054)).editDrop e c 0x09
  else
    let orig : Edit := { bytes := f.bytes.take 256, hdrs := f.parse.recs, dEnd := f.parse.dataEnd }
    let (x, s) := s.editOrder3 e f orig
    let (x, s) := s.editStrip e f strip x
    let (x, s) := s.editOps e f (r1.map (fun r => (r.1, r.2.1))) x
    let (x, s) := s.editOps e f (r2.map (fun r => (r.1, r.2.1))) x
    let (x, s) := s.editRtag e f x
    let (x, s) := s.editSums e orig x
    let c := { c with head := x.bytes, delta := x.delta, hdrs := x.hdrs }
    if s.critical ∨ s.regionLost (53 + e) = true ∨ (spec.port = 67 ∧ s.regionDown 59 = true) then s.editDrop e c 0x1A
    else (s.editKeep c).pmc (pipPage e) 1

/-- The next copy of a group passes the edit; `read`: what the editor computes over the first cell when it is not the value
the cell carries (R384). -/
def State.egressEdit (s : State) (e : Nat) (read : Option Word) : State :=
  if s.regionDown (25 + e) then s
  else
    match s.eframes.find? (fun x => decide (x.e = e) && !x.todo.isEmpty && !(s.behind (s.frame x.fid) && !s.passed (tmgPage e))) with
    | none => s
    | some x =>
      match x.todo with
      | [] => s
      | spec :: rest =>
        let f := s.frame x.fid
        let s := s.putEFrame { x with todo := rest }
        let c : Copy := { id := s.nextId, fid := f.id, e, port := spec.port, queue := spec.queue, ring := f.mdGet 0x0D,
                          head := f.bytes.take 256, domain := f.domain, version := f.version }
        let s := { s with nextId := s.nextId + 1 }
        let carried := crc32c (f.bytes.take 256)
        if s.copyOwner f spec ≠ f.domain ∨ (spec.owner.getD f.domain) ≠ f.domain then
          (s.bump (pipA e 0x058)).editDrop e c 0x0A
        else if s.portDown spec.port then s.editDrop e c 0x1F
        else
          match read.filter (fun v => decide (v.toNat ≠ carried)) with
          | some v => (s.intDrop 2 e spec.port 0 carried v.toNat).editDrop e c 0x18
          | none => if spec.port = 66 then s.editRound e f x.strip c else s.editCopy e f x.strip spec c

def execEgressEdit (group : Group) (read : Option Word) (s : State) : Host.Outcome State Fault Refusal :=
  answer s (s.egressEdit group.val read)

end Sys2Proof.Machine
end

