-- ==== Sys2Proof/Machine/Buffers.lean ====
section
/-! DEFINITION. The buffer pool manager and the HBM controllers (chapter 12): admission (R282 to R284), cells as they arrive
(R283, R285), release by name (R286, R287), free stores (R288), enabling (R291), sweeps (R293), pseudo-channels (R297 to
R302). -/

namespace Sys2Proof.Machine

/-! ### Admission -/

/-- Cells of a pool that admitted frames are still to be given within their charge (R283): no other frame counts on them. -/
def State.promised (s : State) (p : Nat) : Nat :=
  sumBy (fun (x : EFrame) =>
    if x.admitted = false then 0
    else
      let resv := x.resv - x.alloc
      let shared := x.need - x.alloc - resv
      (if p = x.e then resv else 0) + (if (x.dual = true ∧ 5 ≤ p) ∨ (x.dual = false ∧ p = x.pool) then shared else 0)) s.eframes

/-- What is free in a pool for shared cells (R284): its free cells less its unconsumed fault reserve, which a released
reserve leaves to protected domains alone (R500), and on-chip less what requesters may still draw on; a stack pool out of
service has none. Cells promised to admitted frames are not free (R290). -/
def State.sharedFree (s : State) (p : Nat) (prot : Bool) : Int :=
  let free : Int := (s.poolFree p : Int) - s.promised p - s.heldBack p prot
  if p < 5 then free - (sumBy (fun i => s.f (bpmA (0x200 + 4 * i)) 13 0 - s.inResv i p) (List.range 80) : Nat)
  else
    let t := p - 5
    if s.b (hbcA t 0x044) 0 && s.b (hbcA t 0x040) 0 && s.b (bpmA 0x040) 0 then free else 0

/-- Slots of a stack that are frozen, retired or unmapped. -/
def State.slotsOut (s : State) (t : Nat) : Nat :=
  ((List.range 30).filter (fun u => s.slotFrozen (32 * t + u) || s.bpm.retiring.contains (32 * t + u) || !s.pcValid t u)).length

/-- A stack that R501 takes out of dual storage: 16 or more of its slots out and no spare left. -/
def State.stackThin (s : State) (t : Nat) : Bool := decide (16 ≤ s.slotsOut t ∧ s.sparesLeft t = 0)

/-- Where the shared cells of a frame go (R284): a pool, 0 to 4 on-chip, 5 or 6 a stack, and whether they are dual-stored;
none when the placement fails. -/
def State.placeCells (s : State) (n : Nat) (prot : Bool) (e : Nat) : Option (Nat × Bool) :=
  let z : Int := n
  let on := s.sharedFree e prot
  let s0 := s.sharedFree 5 prot
  let s1 := s.sharedFree 6 prot
  let spill := s.b (bpmA 0x044) 1
  let thin0 := s.stackThin 0
  let thin1 := s.stackThin 1
  let single := s.b (sprA 0x044) 1
  let other := if thin0 then 6 else 5
  if (s.f (bpmA (0x060 + 4 * e)) 13 0 : Int) ≤ on - z then some (e, false)
  else if spill = true ∧ prot = false ∧ (z ≤ s0 ∨ z ≤ s1) then some (if s0 < s1 then 6 else 5, false)
  else if spill = true ∧ prot = true ∧ (thin0 ∨ thin1) ∧ single = true ∧ !(thin0 && thin1) ∧
      z ≤ (if thin0 then s1 else s0) then some (other, false)
  else if spill = true ∧ prot = true ∧ thin0 = false ∧ thin1 = false ∧ z ≤ s0 ∧ z ≤ s1 then some (5, true)
  else if z ≤ on then some (e, false)
  else none

/-- Cells a frame is charged for (R283). -/
def State.chargeOf (s : State) (f : Frame) : Nat :=
  let m := if f.inPort < 64 then s.f (macA f.inPort 0x044) 13 0 else 16000
  cellsOf (if f.lenKnown then f.wireLen else m)

/-- A copy dropped at admission: 0x13 by its queue, 0x14 by its requester or for want of cells. -/
def State.quotaDrop (s : State) (cid r : Nat) : State :=
  let s := if r = 0x13 then s.bump (bpmA 0x110)
    else
      let s := s.bump (bpmA 0x114)
      if s.b (bpmA 8) 3 then s else s.report 14 3 0x3804
  s.dropCopy 14 cid r

/-- The room that the copies' queues give to the requester's reserve. -/
def State.queueRoom (s : State) (ids : List Nat) : Nat :=
  sumBy (fun cid => match (s.copy cid).queue with
    | some q => s.qLE q 8 4 % 2 ^ 26 - s.qCells q
    | none => 0) ids

/-- Allocate the next cell of an admitted frame in the order of R282, dual-stored where its shared cells are: the handle and
the frame's record with the cell counted. -/
def State.takeCell (s : State) (x : EFrame) (d : CellD) : Option Nat × EFrame × State :=
  let f := s.frame x.fid
  let resv := decide (x.alloc < x.resv)
  let d := { d with resv, req := 16 * x.k + f.domain, grp := x.e, fcKey := f.fcKey, domain := f.domain }
  let x' := { x with alloc := x.alloc + 1 }
  if resv || !x.dual then
    let (h, s) := s.allocCell (if resv then x.e else x.pool) d
    (h, x', s)
  else
    match s.allocCell 5 { d with dual := true } with
    | (none, s) => (none, x, s)
    | (some h, s) =>
      match s.allocCell 6 { d with dual := true } with
      | (none, s) => (none, x, s.freeHandle h)
      | (some t, s) => (some h, x', s.setPair h { s.cell h with twin := some t })

/-- Fill a cell, and its twin, with data and its check value (R382). -/
def State.fillCell (s : State) (h : Nat) (bs : List Byte) : State :=
  let d := s.cell h
  let s := (s.setPair h { d with len := bs.length, check := crc32c bs }).storeCell h bs
  match d.twin with
  | some t => s.storeCell t bs
  | none => s

/-- Link a cell to the next one of its chain, the twin chain alongside (R280). -/
def State.linkCell (s : State) (h n : Nat) : State :=
  s.setPair h { s.cell h with next := some n, twinNext := (s.cell n).twin }

/-- Put an admitted copy on its queue, or toward its host ring (R151 order 6, R309). -/
def State.enqueue (s : State) (cid : Nat) : State :=
  let c := s.copy cid
  let key := match c.queue with | some q => q | none => 8192 + c.ring
  let was := s.onQueue key
  let s := (s.setCopy { c with queued := true, enq := s.clk }).setQueue key (was ++ [cid])
  match c.queue with
  | none => s
  | some q =>
    let e := if c.port < 64 then c.port / 16 else 4
    let s := s.winPut (qA q + 40) 4 (was.length + 1)
    let s := if was.isEmpty then s.setF (tmgA e 0x040) 28 16 (s.f (tmgA e 0x040) 28 16 + 1) else s
    s.led (tmgPage e) 8 q 0

/-- All of a frame has arrived and been allocated: the charge falls to the cells used and its copies are whole. -/
def State.frameWhole (s : State) (x : EFrame) : State :=
  let s := s.settleCharge x
  let s := forEach x.ready s (fun s cid => s.setCopy { s.copy cid with done := true })
  { s with eframes := s.eframes.filter (fun y => !decide (y.e = x.e ∧ y.fid = x.fid)) }.gcFrame x.fid

/-- The private heads of an admitted frame's copies (R285), then their enqueue. -/
def State.giveHeads (s : State) (x : EFrame) : State :=
  let r := x.ready.foldl (fun (a : EFrame × State × Bool) cid =>
    let (x, s, ok) := a
    if ok = false then a
    else
      let c := s.copy cid
      match s.takeCell x { head := true, last := decide (x.last = true ∧ x.got = 1) } with
      | (none, x, s) => (x, s, false)
      | (some h, x, s) =>
        let s := s.fillCell h (c.head.take 256)
        (x, s.setCopy { c with headH := some h, headGen := (s.cell h).gen }, true)) (x, s, true)
  let (x, s, ok) := r
  let s := s.putEFrame x
  if ok = false then forEach x.ready s (fun s cid => s.quotaDrop cid 0x14)
  else
    let s := forEach x.ready s (fun s cid => s.enqueue cid)
    if x.last = true ∧ x.got = 1 then s.frameWhole x else s

/-- R282: admission of the oldest frame of a group whose copies have all passed the edit. -/
def State.admitE (s : State) (x : EFrame) : State :=
  let f := s.frame x.fid
  let n := s.chargeOf f
  let ovr := x.ready.filter (fun cid => match (s.copy cid).queue with
    | some q => !s.qFlag q 0 || decide (s.qLE q 12 4 % 2 ^ 26 < s.qCells q + n)
    | none => false)
  let s := forEach ovr s (fun s cid => s.quotaDrop cid 0x13)
  match s.eframe x.e x.fid with
  | none => s
  | some x =>
    let ids := x.ready
    let c := ids.length
    let need := c + (n - 1)
    let i := 16 * x.k + f.domain
    let quota := s.rd (bpmA (0x200 + 4 * i))
    let r := min need (min (fld quota 13 0 - s.inResv i x.e) (s.queueRoom ids))
    let sh := need - r
    let full := decide (fld quota 31 16 ≠ 0xFFFF ∧ 1024 * fld quota 31 16 < s.inShr i x.e + sh)
    match s.placeCells sh f.prot x.e with
    | none => forEach ids s (fun s cid => s.quotaDrop cid 0x14)
    | some (pool, dual) =>
      if full then forEach ids s (fun s cid => s.quotaDrop cid 0x14)
      else
        let s := (s.addResv i x.e r).addShr i x.e sh
        let s := forEach ids s (fun s cid =>
          let c := s.copy cid
          match c.queue with
          | some q => (s.setQCells q (s.qCells q + n)).setCopy { c with cells := n }
          | none => s.setCopy { c with cells := n })
        let s := match f.fcKey with | some key => s.fcAdd key need | none => s
        let x := { x with admitted := true, n, resv := r, need, pool, dual }
        (s.putEFrame x).giveHeads x

/-- The oldest arriving frame of a group that meets a test. -/
def State.oldestE (s : State) (e : Nat) (p : EFrame → Bool) : Option EFrame :=
  s.eframes.foldl (fun (b : Option EFrame) x =>
    if decide (x.e = e) && p x then
      match b with
      | none => some x
      | some y => if x.order < y.order then some x else b
    else b) none

def State.bpmAdmit (s : State) (e : Nat) : State :=
  if s.critical then s
  else
    match s.oldestE e (fun x => x.todo.isEmpty && !x.ready.isEmpty && !x.admitted) with
    | none => s
    | some x => s.admitE x

def execBpmAdmit (group : Group) (s : State) : Host.Outcome State Fault Refusal := answer s (s.bpmAdmit group.val)

/-! ### Cells as they arrive (R283, R285) -/

/-- Copies at admission, from the charge. -/
def EFrame.copies (x : EFrame) : Nat := x.need + 1 - x.n

/-- A copy fails under reason `r`: one in transmission is stomped and counted, another is dropped; one already stomped has
been counted (R12). -/
def State.failCopy (s : State) (page cid r : Nat) : State :=
  if (s.copy cid).bad ≠ 0 then s
  else if s.inTx cid then
    let c := s.copy cid
    let s := (s.countDrop page c.port r).capDrop c.port (s.copyInfo c r)
    (s.leave page c.version r).stompCopy cid
  else s.dropCopy page cid r

/-- The next tail cell of an admitted frame: linked behind the cell before it, the first one behind every copy's head. When
no cell can be had the frame's copies are lost. -/
def State.giveTail (s : State) (x : EFrame) : State :=
  let t := x.alloc - x.copies + 1
  let bs := ((s.frame x.fid).bytes.drop (256 * t)).take 256
  let fin := decide (x.last = true ∧ t + 1 = x.got)
  match s.takeCell x { tail1 := decide (t = 1), share := if t = 1 then x.ready.length else 0, last := fin } with
  | (none, x, s) =>
    forEach x.ready s (fun s cid => ((s.bump (bpmA 0x114)).when (!s.b (bpmA 8) 3) (fun s => s.report 14 3 0x3804)).failCopy 14 cid 0x14)
  | (some h, x, s) =>
    let s := s.fillCell h bs
    let s := match x.lastH with
      | some g => s.linkCell g h
      | none => forEach x.ready s (fun s cid =>
          let c := s.copy cid
          let s := match c.headH with | some g => s.linkCell g h | none => s
          s.setCopy { c with tailH := some h, tailGen := (s.cell h).gen })
    let x := { x with tail := some (x.tail.getD h), lastH := some h }
    let s := s.putEFrame x
    if fin then s.frameWhole x else s

/-- R283: one cell is allocated; at the last one the charge falls to the cells used. -/
def State.cellAlloc (s : State) (e : Nat) : State :=
  match s.oldestE e (fun x => x.admitted && decide (x.alloc - x.copies + 1 < x.got)) with
  | none => s
  | some x => s.giveTail x

def execBpmCellAlloc (group : Group) (s : State) : Host.Outcome State Fault Refusal := answer s (s.cellAlloc group.val)

/-! ### Release by name (R286, R287) -/

/-- A release names a head and its generation and, when a tail exists, the tail's first cell and its. A release whose names
stand ends the copy that holds them; one that names cells of no copy frees those cells. A copy that is in transmission or
still arriving is released only at its end. -/
def State.releaseByName (s : State) (head gen : Nat) (tail : Option (Nat × Nat)) : State :=
  match s.staleCell (some head) gen, (match tail with | some (t, g) => (s.staleCell (some t) g).map (fun _ => (t, g)) | none => none) with
  | some h, _ => s.refuseRelease h gen
  | none, some (t, g) => s.refuseRelease t g
  | none, none =>
    match s.copies.find? (fun e => decide (e.2.headH = some head)) with
    | some e =>
      let c := e.2
      if s.inTx c.id || !c.done then s
      else (((s.takeOff c false).deliver (txPage c.port) c.version).endCopy c.id).idleCredit c.port (c.queue.getD 0 / 8 % 8)
    | none =>
      let s := s.freeCell head
      match tail with
      | none => s
      | some (t, _) =>
        let d := s.cell t
        if d.share ≤ 1 then State.freeChain 64 (some t) s else s.setPair t { d with share := d.share - 1 }

def execCopyRelease (head gen : Nat) (tail : Option (Nat × Nat)) (s : State) : Host.Outcome State Fault Refusal :=
  answer s (s.releaseByName head gen tail)

/-! ### Free stores (R288) and enabling (R291) -/

def execFreeStoreMove (pool : Fin 7) (s : State) : Host.Outcome State Fault Refusal := answer s (s.moveFree pool.val)

/-- Fill a pool's free store with every handle it has. -/
def State.fillPool (s : State) (p : Nat) : State :=
  (s.setPool p { cache := min 4096 (s.poolSize p) }).setPoolFree p (s.poolSize p)

/-- Every descriptor of the spill region is written fresh (R291). -/
def State.freshDescs (s : State) : State :=
  let base := s.f (bpmA 0x048) 13 0 * 0x200000
  let z := s.f (bpmA 0x04C) 13 0
  { s with hbm := s.hbm.filter (fun e => (descByte base z e.1).isNone),
           bpm := { s.bpm with descs := (base, z) :: s.bpm.descs.filter (fun r => decide (r ≠ (base, z))) } }

/-- R291, R296: the effect of the first write of BPM_CTL.en 1: every descriptor fresh, the stack pools sized, their fault
reserves set; the on-chip free stores are filled first. -/
def State.bpmEnable (s : State) : State :=
  let s := { s with bpm := { s.bpm with cells := [], inResv := [], inShr := [], retired := [] } }.freshDescs
  let n := s.f (bpmA 0x04C) 13 0 * 128 / 17 * 480
  let s := forEach [5, 6] s (fun s p => ((s.setPoolSize p n).setF (bpmA (0x0E0 + 4 * p)) 25 0 (n / 64)))
  let s := forEach (List.range 7) s (fun s p => { s with spr := { s.spr with cfgPool := s.spr.cfgPool.put 0 p (s.poolSize p) } })
  forEach (List.range 5) s (fun s p => s.fillPool p)

def execBpmEnable (s : State) : Host.Outcome State Fault Refusal :=
  let was := s.b (bpmA 0x044) 0
  answer s (s.hostWriteWith (bpmA 0x044) (s.rd (bpmA 0x044) ||| 1) true (fun _ s => if was then s else s.bpmEnable))

/-- R291: every pool is full. -/
def State.bpmReady (s : State) : State :=
  if s.b (bpmA 0x044) 0 = true ∧ s.b (bpmA 0x040) 0 = false then
    (forEach [5, 6] s (fun s p => s.fillPool p)).setB (bpmA 0x040) 0 true
  else s

def execBpmInitDone (s : State) : Host.Outcome State Fault Refusal := answer s s.bpmReady

/-! ### The orphan sweep (R293) -/

/-- The cells of a chain that its readable descriptors reach. -/
def State.chainCells (s : State) : Nat → Option Nat → List Nat
  | 0, _ => []
  | _, none => []
  | n + 1, some h =>
    let d := s.cell h
    if d.alloc = false then []
    else if s.descOk h = true ∨ (match d.twin with | some t => s.descOk t | none => false) = true then h :: s.chainCells n d.next
    else [h]

/-- Cells reachable from queues, host rings in progress and frames in enqueue. -/
def State.reachable (s : State) : List Nat :=
  s.copies.flatMap (fun c => s.chainCells 65 c.2.headH ++ s.chainCells 64 c.2.tailH) ++
  s.eframes.flatMap (fun x => s.chainCells 64 x.tail ++ (match x.lastH with | some h => [h] | none => []))

/-- Allocated cells that nothing reaches and that were allocated by cycle `at_`; a twin goes with its primary. -/
def State.orphansAt (s : State) (at_ : Nat) : List Nat :=
  let live := s.reachable
  (s.bpm.cells.filter (fun e => e.2.alloc && !(e.2.dual && e.2.twin.isNone) && decide (e.2.since ≤ at_) &&
    !live.contains e.1)).map (fun e => e.1)

/-- The orphans of the sweep that runs: cells allocated before it began. -/
def State.orphans (s : State) : List Nat := s.orphansAt s.bpm.sweepAt

/-- R293: the sweep frees its orphans and rebuilds the ring entries found unreadable; a merged request starts the next one. -/
def State.sweepDone (s : State) : State :=
  if s.b (bpmA 0x040) 1 = false then s
  else
    let os := s.orphans
    let s := forEach os s (fun s h => (s.freeCell h).bump (bpmA 0x128))
    let s := forEach (List.range 7) s (fun s p =>
      let x := s.pool p
      if x.bad.isEmpty then s else s.setPool p { x with back := x.back ++ x.bad, bad := [] })
    let next := s.b (bpmA 0x040) 2
    let s := ((s.setB (bpmA 0x040) 1 false).setB (bpmA 0x040) 2 false).report 14 2 0x3803
    if next then s.requestSweep else s

def execSweepRequest (s : State) : Host.Outcome State Fault Refusal :=
  answer s (s.hostWriteWith (bpmA 0x044) (s.rd (bpmA 0x044) ||| word 256) true (fun _ s => s.requestSweep))

def execSweepComplete (s : State) : Host.Outcome State Fault Refusal := answer s s.sweepDone

/-! ### Pseudo-channels (R297 to R301) -/

/-- The request HBC serves next (R297): the oldest whose age has reached HBC_SCHED.age, else the oldest that hits an open
row, else the oldest. Requests to one granule keep their order, the older one hitting whenever the younger does. -/
def State.nextRequest (s : State) (u : Nat) : Option (HbmReq × List HbmReq) :=
  let q := (s.hbmQueue u).take 64
  let age := s.f (hbcA (u / 32) 0x060) 12 0
  let pick := match takeFirst (fun (r : HbmReq) => decide (age ≤ 4 * (s.clk - r.at_))) q with
    | some x => some x
    | none =>
      match takeFirst (fun (r : HbmReq) => decide (s.bpm.openRow.at 0 (u * 64 + s.hbmBank r.addr) = hbmRow r.addr + 1)) q with
      | some x => some x
      | none => takeFirst (fun _ => true) q
  pick.map (fun x => (x.1, x.2 ++ match (s.hbmQueue u).drop 64 with | r :: rest => { r with at_ := s.clk } :: rest | [] => []))

/-- Undo the writes that a freeze loses, newest first. -/
def State.undoWrites (s : State) (q : List HbmReq) : State :=
  forEach q.reverse s (fun s r => if r.write then s.hbmWr r.addr r.old else s)

/-- A capture record whose write has been lost: its index keeps the older content, and it counts as lost instead of written
(R375, R380). -/
def State.capUndo (s : State) (i : Nat) (old : List Byte) : State :=
  let s := forEach ((s.capPlace i).zip old) s (fun s x => s.hbmWr x.1.2 [x.2])
  let mine := fun (r : HbmReq) => decide (r.by_ = .capture i old)
  let hbmQ : SMap (List HbmReq) := (s.bpm.hbmQ.map (fun q => (q.1, q.2.filter (fun r => !mine r)))).filter (fun q => !q.2.isEmpty)
  let s := { s with bpm := { s.bpm with hbmQ } }
  (s.wr (mirA 0x080) (word ((s.rd (mirA 0x080)).toNat - 1))).bumpRise (mirA 0x088) mirPage 2 0x6003

/-- The requests of a slot that has frozen are discarded (R299): its writes are lost; a copy's read is made of the cell's twin
where that reads (R300), and is otherwise found lost when the copy needs the cell. -/
def State.discardQueue (s : State) (u : Nat) (more : List HbmReq := []) : State :=
  let q := more ++ s.hbmQueue u
  let s := (s.undoWrites q).setHbmQueue u []
  forEach ((q.filter (fun r => decide (r.by_ ≠ .other))).map (fun r => r.by_)).eraseDups s (fun s x =>
    match x with
    | .copy cid h => s.readImage cid h
    | .capture i old => s.capUndo i old
    | .archive _ => s.report 9 19 0x2413
    | .other => s)

/-- R299: slot `u` freezes for a cause, at a failing address: capture, sum bit, interrupt, and the declaration of its region
(R487). Requests queued, and `more` that has just been served, are discarded. -/
def State.freezeSlot (s : State) (u kind a synd : Nat) (more : List HbmReq := []) : State :=
  if s.slotFrozen u then s
  else
    let t := u / 32
    let i := u % 32
    let s := if s.b (hbcA t (0x180 + 4 * i)) 31 then s
      else
        let s := s.wr (hbcA t (0x180 + 4 * i)) (word (2 ^ 31 + kind * 2 ^ 24 + min 64 (s.hbmQueue u).length))
        let s := s.wr (hbcA t (0x200 + 4 * i)) (word (if kind = 1 then hbmRow a * 2 ^ 16 + s.hbmBank a * 256 + hbmCol a else 0))
        let s := s.wr (hbcA t (0x280 + 4 * i)) (word (if kind = 1 then synd else 0))
        forEach (List.range 4) s (fun s c => s.wr (hbcA t (0x400 + 16 * i + 4 * c)) (word ((s.bpm.cmds.at [] u).getD c 0)))
    let s := ((s.setB (hbcA t 0x068) i true).discardQueue u more).report (hbcPage t) 0 0x6401
    let s := { s with bpm := { s.bpm with retiring := s.bpm.retiring.filter (fun x => decide (x ≠ u)) } }
    let s := s.pmc (hbcPage t) 7
    let s := if s.declareOk (64 + u) 4 then s.declareRec (64 + u) 4 u (hbmRow a) else s
    s.slotDrained u

/-- The slots of a stack answer only while it is initialized and they are mapped. -/
def State.slotLive (s : State) (u : Nat) : Bool :=
  s.b (hbcA (u / 32) 0x044) 0 && s.pcValid (u / 32) (u % 32) && !s.slotFrozen u

def execPcFreeze (slot : Fin 64) (kind : Fin 4) (addr : Nat) (synd : Word) (s : State) : Host.Outcome State Fault Refusal :=
  answer s (if s.slotLive slot.val = true ∧ kind.val ≠ 0 then s.freezeSlot slot.val kind.val addr synd.toNat else s)

/-- R298: a corrected burst: counted; when those of the last second reach the threshold it is reported, and SPR is told
(R497). DESIGN CHOICE: R298 does not say when a rise that has been reported counts again; the count starts anew. -/
def State.corrected (s : State) (u a : Nat) : State :=
  let t := u / 32
  let s := s.bump (hbcA t (0x100 + 4 * (u % 32)))
  let at_ := (s.bpm.ceAt.at [] u).filter (fun x => decide (s.clk < x + 250000000)) ++ [s.clk]
  let full := decide (s.f (hbcA t 0x064) 15 0 ≤ at_.length)
  let s := { s with bpm := { s.bpm with ceAt := s.bpm.ceAt.put [] u (if full then [] else at_) } }
  if full then (s.report (hbcPage t) 1 0x6402 u (s.hbmBank a) (hbmRow a)).request 7 (64 + u) u else s

/-- HBC serves one request of a slot; `bad`: symbols of the burst that do not read as written. -/
def State.serve (s : State) (u bad synd : Nat) : State :=
  if s.slotLive u = false then s
  else
    match s.nextRequest u with
    | none => s
    | some (r, rest) =>
      let s := ((s.setHbmQueue u rest).hbmIssue u r).pmc (hbcPage (u / 32)) 4
      if r.write = true ∨ bad = 0 then s
      else if bad = 1 then s.corrected u r.addr
      else s.freezeSlot u 1 r.addr synd [r]

def execHbmRequestServe (slot : Fin 64) (bad : Nat) (synd : Word) (s : State) : Host.Outcome State Fault Refusal :=
  answer s (s.serve slot.val bad synd.toNat)

/-- R297: a per-bank refresh: the bank's row closes and a refresh is issued. -/
def State.refreshBank (s : State) (u b : Nat) : State :=
  if s.slotLive u = false then s
  else
    let k := u * 64 + b
    let s := if s.bpm.openRow.at 0 k = 0 then s else s.hbmCmd u 4 b 0
    { s with bpm := { s.bpm with openRow := s.bpm.openRow.put 0 k 0 } }.hbmCmd u 5 b 0

def execHbmRefresh (slot bank : Fin 64) (s : State) : Host.Outcome State Fault Refusal :=
  answer s (s.refreshBank slot.val bank.val)

/-- R297: the stack's temperature reading in °C, two's complement; at 85 or more refresh doubles. -/
def State.stackTemp (s : State) (t : Nat) (temp : BitVec 8) : State :=
  (s.setF (hbcA t 0x040) 15 8 temp.toNat).setB (hbcA t 0x040) 16 (decide (85 ≤ temp.toInt))

def execStackHotChange (stack : Fin 2) (temp : BitVec 8) (s : State) : Host.Outcome State Fault Refusal :=
  answer s (s.stackTemp stack.val temp)

/-- R301: slot `u` leaves the frozen state: fresh descriptors, its handles back in the free store, the pool at its size. -/
def State.slotBack (s : State) (u : Nat) : State :=
  let t := u / 32
  let p := 5 + t
  let mine := s.bpm.retired.filter (fun h => decide (cellSlot h = u))
  let old := (s.bpm.cells.filter (fun e => decide (5 ≤ handlePool e.1) && decide (cellSlot e.1 = u))).map (fun e => e.1)
  let s := { s with bpm := { s.bpm with retired := s.bpm.retired.filter (fun h => decide (cellSlot h ≠ u)),
                                        retiring := s.bpm.retiring.filter (fun x => decide (x ≠ u)) } }
  let s := (s.setB (hbcA t 0x068) (u % 32) false).setB (hbcA t 0x06C) (u % 32) false
  let s := forEach old s (fun s h => s.setCell h {})
  let s := { s with hbm := s.hbm.filter (fun e => !(decide (hbmSlot e.1 = u) && s.bpm.descs.any (fun r => (descByte r.1 r.2 e.1).isSome))) }
  let x := s.pool p
  let s := s.setPool p { x with back := x.back ++ mine.map handleIdx }
  let s := ((s.setPoolSize p (s.poolSize p + mine.length)).setPoolFree p (s.poolFree p + mine.length)).checkPool p
  (s.report (hbcPage t) 3 0x6404).regionGood (64 + u)

/-- A host write to a far page, from its issue to its completion at the far block: its checks, then its effect (R62, R65). -/
def State.hostFar (s : State) (addr : Nat) (data : Word) (eff : RegReq → State → State) : State :=
  if s.hostOpen = false then s
  else
    let r := resolve addr data
    let k := s.regCheck .host true r
    if k ≠ 0 then s.rejectReg addr data r k else (eff r (s.storeReg r)).watch 0 0 r.addr

/-- The effect of HBC_PC_CMD op resume on a drained slot. -/
def State.resumeSlot (s : State) (u : Nat) : State := if s.b (hbcA (u / 32) 0x06C) (u % 32) then s.slotBack u else s

def execSlotResume (slot : Fin 64) (s : State) : Host.Outcome State Fault Refusal :=
  answer s (s.hostFar (hbcA (slot.val / 32) 0x070) (word (256 + slot.val % 32)) (fun _ s => s.resumeSlot slot.val))

/-! ### Spare pseudo-channels (R301, R494, R497) -/

/-- Spare pseudo-channels of stack `t` that can be brought in, as a mask. -/
def State.spareMask (s : State) (t : Nat) : Nat := s.spr.sparePc.at (3 * 2 ^ 30) t
def State.setSpareMask (s : State) (t m : Nat) : State :=
  { s with spr := { s.spr with sparePc := s.spr.sparePc.put (3 * 2 ^ 30) t m } }.setF (sprA 0x0C0) (2 * t + 1) (2 * t)
    (min 3 (sumBy (fun i => bitsOf m i i) (List.range 32)))

/-- The lowest spare of a stack. -/
def State.spareOf (s : State) (t : Nat) : Option Nat := (List.range 32).find? (fun i => decide (bitsOf (s.spareMask t) i i = 1))

/-- Spare mapping of slot `u` begins: the spare is tested over its whole range. -/
def State.startSpare (s : State) (u : Nat) : State :=
  match s.spareOf (u / 32) with
  | none => s
  | some pc =>
    { s.setSpareMask (u / 32) (s.spareMask (u / 32) - 2 ^ pc) with
      bpm := { (s.setSpareMask (u / 32) (s.spareMask (u / 32) - 2 ^ pc)).bpm with testSpare := s.bpm.testSpare.put 0 u (pc + 1) } }

/-- With no spare left for a slot that wants one, it stays out and the pool runs smaller (R494). -/
def State.noSpare (s : State) (u : Nat) : State := ((s.setRegion (64 + u) 2).sparesOut).refreshDegrade

/-- The head of the repair queue is this slot's mapping or retirement, running. -/
def State.runningFor (s : State) (u : Nat) : Bool :=
  s.b (sprA 0x040) 8 && (match s.spr.queue with | q :: _ => decide ((q.kind = 2 ∨ q.kind = 7) ∧ q.region = 64 + u) | [] => false)

/-- A request for the rows of the pseudo-channel replaced (kind 5), from its freeze capture (R497). -/
def State.askRows (s : State) (u pc : Nat) : State :=
  let w := s.rd (hbcA (u / 32) (0x200 + 4 * (u % 32)))
  if s.b (hbcA (u / 32) (0x180 + 4 * (u % 32))) 31 = true ∧ s.f (hbcA (u / 32) (0x180 + 4 * (u % 32))) 26 24 = 1 then
    s.request 5 (64 + u) (fld w 28 16 * 2 ^ 16 + fld w 13 8 * 256 + pc)
  else s

/-- A spare's test ends: on a pass slot `u` maps onto it and comes back; on a fail the spare is lost to the stack, the repair
is refused and asked for anew. -/
def State.spareTested (s : State) (u : Nat) (pass : Bool) : State :=
  let t := u / 32
  let i := u % 32
  match s.bpm.testSpare.at 0 u with
  | 0 => s
  | pc + 1 =>
    let s := { s with bpm := { s.bpm with testSpare := s.bpm.testSpare.put 0 u 0 } }
    let run := s.runningFor u
    if pass then
      let old := s.pcPhys t i
      let s := s.setF (hbcA t (0x080 + 4 * (i / 4))) (8 * (i % 4) + 7) (8 * (i % 4)) (128 + pc)
      let s := s.slotBack u
      let s := if run then s.repaired.popRepair else s
      s.askRows u old
    else
      let s := if run then (s.refuseRepair 4).popRepair else s
      if (s.spareOf t).isSome then s.request 2 (64 + u) u else s.noSpare u

def execSparePcTestDone (slot : Fin 64) (pass : Bool) (s : State) : Host.Outcome State Fault Refusal :=
  answer s (s.spareTested slot.val pass)

/-! ### Row repair (R302) and stack enable (R307) -/

/-- A row repair starts on a stack. -/
def State.startPpr (s : State) (t arg : Nat) : State :=
  { s with bpm := { s.bpm with pprArg := s.bpm.pprArg.put 0 t (arg + 1) } }.wr (hbcA t 0x078) (word (2 ^ 31))

def execHbcPprCmd (stack : Fin 2) (pc : Fin 32) (bank : Fin 64) (row : BitVec 13) (s : State) : Host.Outcome State Fault Refusal :=
  let arg := row.toNat * 2 ^ 16 + bank.val * 256 + pc.val
  answer s (s.hostFar (hbcA stack.val 0x074) (word arg) (fun _ s => s.startPpr stack.val arg))

/-- A row repair completes with its result: 1 done, 2 no spare row left in the bank, 3 failed. -/
def State.pprDone (s : State) (t result : Nat) : State :=
  if s.b (hbcA t 0x078) 31 = false ∨ result = 0 then s
  else
    { s with bpm := { s.bpm with pprArg := s.bpm.pprArg.put 0 t 0 } }.wr (hbcA t 0x078) (word result) |>.report (hbcPage t) 4 0x6405

def execPprComplete (stack : Fin 2) (result : Fin 4) (s : State) : Host.Outcome State Fault Refusal :=
  answer s (s.pprDone stack.val result.val)

/-- R307: a write of HBC_CTL.en 1 starts the stack's training, which HBM_INIT_DONE ends. -/
def execHbmStackEnable (stack : Fin 2) (s : State) : Host.Outcome State Fault Refusal :=
  answer s (s.hostFar (hbcA stack.val 0x044) 1 (fun _ s => s))

def execHbmInitDone (stack : Fin 2) (s : State) : Host.Outcome State Fault Refusal :=
  answer s (if s.b (hbcA stack.val 0x044) 0 then s.setB (hbcA stack.val 0x040) 0 true else s)

end Sys2Proof.Machine
end

