-- ==== Sys2Proof/Machine/Gates.lean ====
section
/-! DEFINITION. Gate control lists (chapter 15): positions, gate and hold states, open time left, windows, and frame fit
(R347 to R360). -/

namespace Sys2Proof.Machine

def gateListA (p b e : Nat) : Nat := 0x4000000 + p * 0x4000 + b * 0x2000 + e * 8

/-- Set a port's active list, its status bit and its bit in TGS_STATUS. -/
def State.setAct (s : State) (p : Nat) (g : GList) : State :=
  let s := { s with tgs := { s.tgs with act := s.tgs.act.put {} p g } }
  let s := (s.setB (tgsPortA p 0x18) 0 g.live).setB (tgsA (p / 16) 0x040) (p % 16) g.live
  if g.live then s.setB (tgsPortA p 0x18) 28 (decide (g.bank = 1)) else s

/-- Set a port's pending list, its status bit and its bit in TGS_STATUS. -/
def State.setPend (s : State) (p : Nat) (g : GList) : State :=
  let s := { s with tgs := { s.tgs with pend := s.tgs.pend.put {} p g } }
  (s.setB (tgsPortA p 0x18) 1 g.live).setB (tgsA (p / 16) 0x040) (16 + p % 16) g.live

/-- Open time ahead over a run of segments, ending where the gate closes; none when it does not close in the run. -/
def openRun (g : Nat) (express : Bool) : Bool → Nat → List (Nat × Nat × Nat × Nat × Nat) → Option Nat
  | _, _, [] => none
  | h, acc, (_, _, d, st, op) :: rest =>
    let h := if op = 1 then true else if op = 2 then false else h
    if bitsOf st g g = 1 ∧ (h = false ∨ express = true) then openRun g express h (acc + d) rest else some acc

/-- The open time left of group `g` by the list in force alone. -/
def State.openByList (s : State) (p g : Nat) (l : GList) : Option Nat :=
  let x := (l.place (s.nowNs l.tb)).2
  let segs := l.segs
  match segs.drop (l.begun x - 1) with
  | [] => none
  | (_, at_, d, _, _) :: rest => openRun g (s.expressGroup p g) (s.gateHold p) (at_ + d - x) (rest ++ segs ++ segs)

/-- The open time left of group `g` (R356): none when its gate never closes. From its start time on the pending list counts,
with its hold state clear before entry 0 (R353). -/
def State.openLeft (s : State) (p g : Nat) : Option Nat :=
  let l := s.gateList p
  if s.gateOpen p g = false then some 0
  else if l.live = false then none
  else
    let left := s.openByList p g l
    let n := s.gPend p
    let now := s.nowNs n.tb
    if n.live = false ∨ n.start ≤ now ∨ (match left with | some a => decide (a ≤ n.start - now) | none => false) = true then left
    else openRun g (s.expressGroup p g) false (n.start - now) (n.segs ++ n.segs)

/-- The longest window of group `g` in one cycle, joined across the cycle's end (R360); none when the gate is open in every
entry. -/
def GList.window (l : GList) (g : Nat) : Option Nat :=
  let segs := l.segs
  if segs.all (fun e => decide (bitsOf e.2.2.2.1 g g = 1)) then none
  else
    some ((segs ++ segs).foldl (fun (a : Nat × Nat) e =>
      if bitsOf e.2.2.2.1 g g = 1 then (a.1 + e.2.2.1, max a.2 (a.1 + e.2.2.1)) else (0, a.2)) (0, 0)).2

/-! ### Frame fit (R357) -/

/-- The data rate of a front port in Mb/s, by quad mode, lane rate and negotiated speed. -/
def State.portMbps (s : State) (p : Nat) : Nat :=
  match s.quadMode p with
  | 1 => 50000
  | 2 => 100000
  | _ =>
    match s.portRate p with
    | 0 => if s.b (sdsA (p / 4) (0x048 + 4 * (p % 4))) 14
        then [10, 100, 1000].getD (s.f (sdsA (p / 4) (0x058 + 4 * (p % 4))) 13 12) 1000 else 1000
    | 1 => 2500
    | 2 => 10000
    | _ => 25000

/-- TMG_PORT_CFG of a port. -/
def tmgPortA (p : Nat) : Nat := if p < 64 then tmgA (p / 16) (0x100 + 4 * (p % 16)) else tmgA 4 (0x100 + 4 * (p - 64))
def State.portOvh (s : State) (p : Nat) : Nat := s.f (tmgPortA p) 5 0

/-- Whether `n` bytes with overhead leave in `t` ns, with the 8 ns of R357. -/
def State.fitsIn (s : State) (p n : Nat) (t : Option Nat) : Bool :=
  match t with
  | none => true
  | some t =>
    let r := s.portMbps p
    decide ((n + s.portOvh p) * 8000 + 8 * r ≤ t * r)

/-- Bytes of the minimum non-final fragment with its mCRC (R105). -/
def State.minFrag (s : State) (p : Nat) : Nat := 64 * (1 + s.f (macA p 0x064) 5 4)

/-- Whether a copy of `len` bytes of group `g` may start in `t` ns of open time (R357). -/
def State.fitsWindow (s : State) (p g len : Nat) (t : Option Nat) : Bool :=
  s.fitsIn p (max len 64) t ||
  (!s.expressGroup p g && decide (s.minFrag p + 64 ≤ len) && s.fitsIn p (s.minFrag p) t)

/-- Whether a copy of group `g` fits now. -/
def State.fitsNow (s : State) (p g len : Nat) : Bool :=
  decide (64 ≤ p) || !(s.gateList p).live || s.fitsWindow p g len (s.openLeft p g)

/-- Whether a copy never fits a list (R360). -/
def State.neverFits (s : State) (p g len : Nat) (l : GList) : Bool := !s.fitsWindow p g len (l.window g)

end Sys2Proof.Machine
end

