-- ==== Sys2Proof/Machine/Macsec.lean ====
section
/-! DEFINITION. MACsec (R446 to R452): the SC, SA and counter entries, validation of a received frame, protection of a copy.
The SecTAG layout, PN recovery and nonce are those of IEEE 802.1AE-2018, which R446 names (PRESUMED where it does not spell
them out). -/

namespace Sys2Proof.Machine

/-- Where an entry stands: target 0 receive SC, 1 transmit SC, 2 SA, 3 counters; 64 bytes each. -/
def mscEntA (q t i : Nat) : Nat := q * 0x100000 + t * 0x10000 + i * 64
def State.mscEnt (s : State) (q t i : Nat) : List Byte := readBytes s.sec.msc (mscEntA q t i) 64
def State.mscPut (s : State) (q t i : Nat) (bs : List Byte) : State :=
  { s with sec := { s.sec with msc := writeBytes s.sec.msc (mscEntA q t i) bs } }

/-- Count in word `w` of counter entry `i`: 0 to 255 receive SCs, 256 to 511 transmit SCs. -/
def State.mscCount (s : State) (q i w : Nat) : State :=
  let b := s.mscEnt q 3 i
  s.mscPut q 3 i (putBytes b (4 * w) (leBytes 4 (satAdd 32 (leAt b (4 * w) 4) 1)))

def scValid (e : List Byte) : Bool := decide (leAt e 8 1 % 2 = 1)
def scOwner (e : List Byte) : Nat := leAt e 9 1 % 16
def scOffset (e : List Byte) : Nat := [0, 30, 50].getD (leAt e 8 1 / 32 % 4) 0
def saXpn (e : List Byte) : Bool := decide (bitsOf (leAt e 0 1) 2 2 = 1)
def saKey (e : List Byte) : List Byte := slice e 32 (if bitsOf (leAt e 0 1) 3 3 = 1 then 32 else 16)
def saPn (e : List Byte) : Nat := leAt e 8 8

/-- The highest PN of an SA (R450). -/
def saTop (e : List Byte) : Nat := if saXpn e then 2 ^ 64 - 1 else 2 ^ 32 - 1

/-- The first failure is captured (R447), with its order, lane, SC index and PN. -/
def State.mscCap (s : State) (p order i pn : Nat) : State :=
  let q := p / 4
  if s.b (mscA q 0x04C) 31 then s
  else
    ((s.wr (mscA q 0x04C) (word (2 ^ 31 + order * 2 ^ 24 + p % 4 * 2 ^ 16 + i))).wr (mscA q 0x050) (word pn)).report (mscPage q) 0 0x6801

/-- R450: an SA's next PN rises; the threshold is reported once for it. -/
def State.pnThreshold (s : State) (q i : Nat) : State :=
  let e := s.mscEnt q 2 i
  let thr := if saXpn e then 2 ^ s.f (mscA q 0x044) 13 8 else 2 ^ s.f (mscA q 0x044) 4 0
  let key := q * 256 + i
  if thr ≤ saPn e ∧ s.sec.thrSaid.contains key = false then
    { s with sec := { s.sec with thrSaid := s.sec.thrSaid ++ [key] } }.setB (mscA q 0x040) 0 true |>.report (mscPage q) 1 0x6802
  else s

/-- The nonce of a frame: SCI and PN, or for XPN the salt combined with SSCI and PN. -/
def mscNonce (sa sci : List Byte) (pn : Nat) : List Byte :=
  if saXpn sa then
    List.zipWith (fun a b => a ^^^ b) (slice sa 16 12) (beBytes 4 (leAt sa 4 4) ++ beBytes 8 pn)
  else sci ++ beBytes 4 (pn % 2 ^ 32)

/-- The full PN of a frame from its low 32 bits, by the next PN expected (XPN). -/
def fullPn (xpn : Bool) (next low : Nat) : Nat :=
  if xpn then
    let hi := next / 2 ^ 32
    if bitsOf next 31 31 = 1 ∧ bitsOf low 31 31 = 0 then (hi + 1) * 2 ^ 32 + low else hi * 2 ^ 32 + low
  else low

/-- What validation answers: the frame's bytes (FCS aside), the owner of the SC that decrypted it, none when it came in
clear; or a drop. -/
inductive MscRx where
  | pass (bytes : List Byte) (owner : Option Nat)
  | drop
  deriving DecidableEq, Repr

/-- R447 on a frame without its FCS received on port `p`, under the word of MSC_PORT_CFG that stood when the frame began
(R458). DEDUCED: a receive SA whose next PN would pass its highest becomes invalid too (R450); a receive SC has no count of it. -/
def State.mscReceive (s : State) (p : Nat) (cfg : Word) (bs : List Byte) : MscRx × State :=
  let q := p / 4
  let l := p % 4
  let et := beAt bs 12 2
  if bit cfg 0 = false ∨ et = 0x888E ∨ et = 0x8808 then (.pass bs none, s)
  else if et ≠ 0x88E5 then
    let s := (s.bump (mscA q (0x070 + 4 * l))).pmc (mscPage q) 4
    if bit cfg 1 then (.drop, (s.mscCap p 1 0 0).pmc (mscPage q) 7) else (.pass bs none, s)
  else
    let tci := (bs.getD 14 0).toNat
    let an := tci % 4
    let hasSci := decide (bitsOf tci 5 5 = 1)
    let low := beAt bs 16 4
    let sci := if hasSci then slice bs 20 8 else slice bs 6 6 ++ [0, 1]
    let tagEnd := if hasSci then 28 else 20
    let fail := fun (s : State) (o i pn : Nat) => (MscRx.drop, ((s.mscCap p o i pn).pmc (mscPage q) 4).pmc (mscPage q) 7)
    match (List.range 64).find? (fun c => scValid (s.mscEnt q 0 (64 * l + c)) && decide (leAt (s.mscEnt q 0 (64 * l + c)) 0 8 = beVal sci)) with
    | none => fail (s.bump (mscA q (0x080 + 4 * l))) 2 0 low
    | some c =>
      let i := 64 * l + c
      let sc := s.mscEnt q 0 i
      let saI := leAt sc (16 + an) 1
      let sa := s.mscEnt q 2 saI
      if bitsOf (leAt sc 20 1) an an = 0 ∨ leAt sa 0 1 % 2 = 0 ∨ leAt sa 1 1 % 16 ≠ scOwner sc then
        fail (s.mscCount q i 2) 3 i low
      else
        let pn := fullPn (saXpn sa) (saPn sa) low
        if bitsOf (leAt sc 8 1) 1 1 = 1 ∧ pn < saPn sa - leAt sc 12 4 then fail (s.mscCount q i 3) 4 i low
        else
          let body := bs.drop tagEnd
          let enc := decide (bitsOf tci 3 3 = 1)
          let clear := if enc then scOffset sc else body.length - 16
          let aad := bs.take tagEnd ++ body.take clear
          match Crypto.gcmOpen (saKey sa) (mscNonce sa sci pn) aad (body.drop clear) with
          | none => fail (s.mscCount q i 1) 5 i low
          | some plain =>
            let top := saTop sa
            let sa' := if top < pn + 1 then putBytes sa 0 [BitVec.ofNat 8 (leAt sa 0 1 - 1)] else sa
            let s := (s.mscCount q i 0).mscPut q 2 saI (putBytes sa' 8 (leBytes 8 (max (saPn sa) (min top (pn + 1)))))
            (.pass (bs.take 12 ++ body.take clear ++ plain) (some (scOwner sc)), (s.pnThreshold q saI).pmc (mscPage q) 4)

/-! ### Transmit (R449, R450) -/

/-- How a copy of domain `d` leaves port `p`: in clear, protected by an SC and SA with the PN it takes, or dropped. -/
inductive MscTx where
  | clear
  | protect (sc sa pn : Nat)
  | drop
  deriving DecidableEq, Repr

/-- The SA a transmit SC names when it can protect a copy of domain `d`. -/
def State.mscTxSa (s : State) (q i d : Nat) : Option Nat :=
  let sc := s.mscEnt q 1 i
  let saI := leAt sc (16 + leAt sc 10 1 % 4) 1
  let sa := s.mscEnt q 2 saI
  if scValid sc && decide (scOwner sc = d) && decide (leAt sa 0 1 % 4 = 3) && decide (leAt sa 1 1 % 16 = d) then some saI else none

/-- R449 for a copy of domain `d` at port `p`: a protected copy takes its PN. -/
def State.mscTransmit (s : State) (p d : Nat) (eapol : Bool) : MscTx × State :=
  let q := p / 4
  let l := p % 4
  if s.b (mscA q (0x060 + 4 * l)) 0 = false ∨ eapol then (.clear, s)
  else
    let sel := s.rd (mscA q (0x100 + 64 * l + 4 * d))
    let i := 64 * l + fld sel 5 0
    match (if bit sel 8 then s.mscTxSa q i d else none) with
    | some saI =>
      let sa := s.mscEnt q 2 saI
      let pn := saPn sa
      if pn < saTop sa then
        (.protect i saI pn, ((s.mscPut q 2 saI (putBytes sa 8 (leBytes 8 (pn + 1)))).pnThreshold q saI).pmc (mscPage q) 4)
      else
        let s := (s.mscPut q 2 saI (putBytes sa 0 [BitVec.ofNat 8 (leAt sa 0 1 - 1)])).mscCount q (256 + i) 3
        (.protect i saI pn, s.pmc (mscPage q) 4)
    | none =>
      let s := s.pmc (mscPage q) 4
      if s.b (mscA q (0x060 + 4 * l)) (16 + d) then (.drop, (s.mscCount q (256 + i) 2).mscCap p 6 i 0)
      else (.clear, s)

/-- Bytes a protected copy grows by: SecTAG (with or without SCI) and ICV. -/
def State.mscGrow (s : State) (q sc : Nat) : Nat := if bitsOf (leAt (s.mscEnt q 1 sc) 8 1) 2 2 = 1 then 32 else 24

/-- The bytes of a protected frame (FCS aside), under the SC, SA entry and PN it took; and its counters. -/
def State.mscProtect (s : State) (p sc sa pn : Nat) (bs : List Byte) : List Byte × State :=
  let q := p / 4
  let c := s.mscEnt q 1 sc
  let a := s.mscEnt q 2 sa
  let fl := leAt c 8 1
  let enc := decide (bitsOf fl 1 1 = 1)
  let withSci := decide (bitsOf fl 2 2 = 1)
  let body := bs.drop 12
  let clear := if enc then scOffset c else body.length
  let tci := bitsOf fl 3 3 * 64 + bitsOf fl 2 2 * 32 + bitsOf fl 4 4 * 16 + (if enc then 12 else 0) + leAt c 10 1 % 4
  let sl := if body.length < 48 then body.length else 0
  let sci := beBytes 8 (leAt c 0 8)
  let head := bs.take 12 ++ beBytes 2 0x88E5 ++ [BitVec.ofNat 8 tci, BitVec.ofNat 8 sl] ++ beBytes 4 (pn % 2 ^ 32) ++
    (if withSci then sci else [])
  let aad := head ++ body.take clear
  let sealed_ := Crypto.gcmSeal (saKey a) (mscNonce a (if withSci then sci else slice bs 6 6 ++ [0, 1]) pn) aad (body.drop clear)
  (head ++ body.take clear ++ sealed_, s.mscCount q (256 + sc) (if enc then 1 else 0))

end Sys2Proof.Machine
end

