-- ==== Sys2Proof/Machine/Traffic.lean ====
section
/-! DEFINITION. The traffic managers (chapter 13): eligibility, selection by gate group, phase, round robin and DRR (R317 to
R320), drops of head copies (R321 to R323), shapers (R313 to R316), flow control (R325), sampling (R326, R327). -/

namespace Sys2Proof.Machine

/-! ### Queues of a port -/

/-- The traffic manager of a port's queues. -/
def tmgOf (p : Nat) : Nat := if p < 64 then p / 16 else 4

/-- A copy's length as enqueued (R314); while its frame is still arriving, the length of R357. -/
def State.copyLen (s : State) (cid : Nat) : Nat :=
  let c := s.copy cid
  let f := s.frame c.fid
  if c.done then ((f.wireLen : Int) + c.delta).toNat else s.f (macA f.inPort 0x044) 13 0 + 64

/-! ### Cut-through (R96) -/

/-- Whether a copy may start before its frame has arrived whole. -/
def State.mayCut (s : State) (c : Copy) (p g : Nat) : Bool :=
  let f := s.frame c.fid
  decide (p < 64 ∧ f.inPort < 64 ∧ f.pass = 1) && s.b (macA p 0x050) g &&
  decide (s.portMbps p ≤ s.portMbps f.inPort) &&
  (match s.tmg.tx.find? (fun e => decide (e.1 = p)) with
    | some e => decide ((s.copy e.2.copy).queue.getD 0 / 8 % 8 ≠ g)
    | none => true) &&
  (match s.tmg.yielded.find? (fun e => decide (e.1 = p)) with
    | some e => decide ((s.copy e.2.copy).queue.getD 0 / 8 % 8 ≠ g)
    | none => true) &&
  (List.range 2).all (fun k =>
    let x := s.tmg.sel.at {} (2 * p + k)
    decide (x.copy = 0 ∨ x.copy = c.id ∨ x.queue / 8 % 8 ≠ g)) &&
  s.fitsNow p g (s.copyLen c.id)

/-! ### Eligibility (R317, R318) -/

/-- Whether a queue's head copy may start: whole, or cut-through; and it fits the open time left. -/
def State.headFits (s : State) (p g q : Nat) : Bool :=
  match s.onQueue q with
  | [] => false
  | cid :: _ =>
    let c := s.copy cid
    if c.done then s.fitsNow p g (s.copyLen cid) else s.mayCut c p g

/-- Whether a port, a group and a queue are paused (R102, R103, R324). -/
def State.paused (s : State) (p g q : Nat) : Bool :=
  decide (p < 64) && (s.b (macA p 0x048) 1 || (s.b (macA p 0x048) (8 + g) && !s.qFlag q 2))

def State.queueOk (s : State) (p g i : Nat) : Bool :=
  let q := qid p g i
  !s.paused p g q && s.gateOpen p g && s.headFits p g q && (!s.qFlag q 3 || decide (0 < s.bucket (qA q + 48)))

def State.queueCommitted (s : State) (p g i : Nat) : Bool :=
  s.qFlag (qid p g i) 3 && decide (0 < s.bucket (qA (qid p g i) + 44))

/-- Eligible queues of a group. -/
def State.eligible (s : State) (p g : Nat) : List Nat := (List.range 8).filter (fun i => s.queueOk p g i)

/-- The phase a group's shaper allows it: none when it may not be served, else whether it is in excess (R318). -/
def State.groupPhase (s : State) (p g : Nat) : Option Bool :=
  match s.gMode p g with
  | 1 => if 0 < s.bucket (gA p g + 24) then some (decide (s.bucket (gA p g + 20) ≤ 0)) else none
  | 2 => if 0 ≤ s.bucket (gA p g + 20) then some false else none
  | _ => some false

/-- Whether a port's link takes no copy for its queues (R322): a front port that is down; and a lost traffic manager. -/
def State.portStopped (s : State) (p : Nat) : Bool := s.portDown p || s.regionDown (53 + tmgOf p)

/-! ### Selection (R319) -/

/-- A group's drr_frames in force (R312, R313). -/
def State.drrFrames (s : State) (p g : Nat) : Bool := decide (leAt (s.gShape (8 * p + g)) 0 1 / 4 % 2 = 1)
/-- The DRR cost of the head of a queue: bytes, or one frame (R314). -/
def State.drrCost (s : State) (p g i : Nat) : Nat :=
  match s.onQueue (qid p g i) with
  | [] => 0
  | cid :: _ => if s.drrFrames p g then 1 else s.copyLen cid
def State.drrQuantum (s : State) (p g i : Nat) : Nat :=
  let n := s.qLE (qid p g i) 2 2 % 4096
  if s.drrFrames p g then n else 64 * n
def State.drrDeficit (s : State) (p g i : Nat) : Nat := s.qLE (qid p g i) 52 4 % 2 ^ 24

/-- The first of a set of queues after one, cyclically. -/
def nextAfter (set : List Nat) (i : Nat) : Nat :=
  ((List.range 8).map (fun k => (i + 1 + k) % 8)).find? (fun j => set.contains j) |>.getD i

/-- The DRR rounds of R319 over eligible queues: the queue served, the pointer, and the deficits that have changed. -/
def drr (cost quantum : Nat → Nat) (es : List Nat) : Nat → Nat → List Nat → Option (Nat × List Nat)
  | 0, _, _ => none
  | n + 1, q, defs =>
    if es.contains q ∧ cost q ≤ defs.getD q 0 then some (q, setAt defs q (defs.getD q 0 - cost q))
    else
      let q' := nextAfter es q
      drr cost quantum es n q' (setAt defs q' (defs.getD q' 0 + quantum q'))

/-- pick(g): the queue of a group and what its start will charge. -/
def State.pickQueue (s : State) (p g : Nat) (excess : Bool) : Option TxSel :=
  let es := s.eligible p g
  let head := fun (i : Nat) => ((s.onQueue (qid p g i)).head?).getD 0
  match es.filter (fun i => s.queueCommitted p g i) with
  | c :: cs =>
    let i := nextAfter (c :: cs) (s.tmg.rr.at 7 (8 * p + g))
    some { copy := head i, queue := qid p g i, excess, rr := some i }
  | [] =>
    if es.isEmpty then none
    else
      match drr (s.drrCost p g) (s.drrQuantum p g) es 2100 (s.tmg.ptr.at 0 (8 * p + g)) ((List.range 8).map (s.drrDeficit p g)) with
      | none => none
      | some (i, defs) =>
        some { copy := head i, queue := qid p g i, excess, ptr := i,
               defs := ((List.range 8).filter (fun j => decide (defs.getD j 0 ≠ s.drrDeficit p g j))).map (fun j => (qid p g j, defs.getD j 0)) }

/-- select(port, class): committed groups from 7 down, then groups in excess. -/
def State.choose (s : State) (p : Nat) (express : Bool) : Option TxSel :=
  [false, true].findSome? (fun excess =>
    ([7, 6, 5, 4, 3, 2, 1, 0] : List Nat).findSome? (fun g =>
      if s.expressGroup p g = express ∧ s.groupPhase p g = some excess then s.pickQueue p g excess else none))

/-! ### Drops at the head (R321, R323, R360, R361) -/

/-- Whether a copy is older than its queue's residency limit. -/
def State.tooOld (s : State) (q : Nat) (c : Copy) : Bool := decide (usec (s.qLE q 4 4 % 2 ^ 20) < s.clk - c.enq)

/-- A residency drop: counted, the first captured. -/
def State.residencyDrop (s : State) (p q cid : Nat) : State :=
  let e := tmgOf p
  let c := s.copy cid
  let s := s.bump (tmgA e 0x050)
  let w := 2 ^ 31 + c.domain * 2 ^ 24 + c.version * 2 ^ 20 + q
  let s := if s.b (tmgA e 0x04C) 31 then s else (s.wr (tmgA e 0x04C) (word w)).report (tmgPage e) 0 0x5801 w
  s.dropCopy (tmgPage e) cid 0x16

/-- R361: a copy that never fits the active list, nor the pending one. -/
def State.noFit (s : State) (p g : Nat) (cid : Nat) : Bool :=
  let c := s.copy cid
  let len := s.copyLen cid
  let l := s.gateList p
  decide (p < 64) && c.done && l.live && s.neverFits p g len l &&
    (!(s.gPend p).live || s.neverFits p g len (s.gPend p))

def State.noFitDrop (s : State) (p g cid : Nat) : State :=
  let e := tmgOf p
  let s := s.bump (tgsA e 0x050)
  let w := 2 ^ 31 + p % 16 * 2 ^ 24 + g * 2 ^ 20 + s.copyLen cid
  let s := if s.b (tgsA e 0x044) 31 then s else (s.wr (tgsA e 0x044) (word w)).report (tgsPage e) 0 0x5C01 w
  s.dropCopy (tmgPage e) cid 0x15

/-- Drop heads of a queue until one is within its limit and can fit, or the queue is empty. A copy in transmission has left
its queue. -/
def State.pruneQueue (p g : Nat) (q : Nat) : Nat → State → State
  | 0, s => s
  | n + 1, s =>
    match s.onQueue q with
    | [] => s
    | cid :: _ =>
      if s.tooOld q (s.copy cid) then State.pruneQueue p g q n (s.residencyDrop p q cid)
      else if s.noFit p g cid then State.pruneQueue p g q n (s.noFitDrop p g cid)
      else s

/-- Queues of a port that hold a copy. -/
def State.busyQueues (s : State) (p : Nat) : List Nat :=
  (s.tmg.queues.filter (fun e => decide (e.1 / 64 = p) && decide (e.1 < 4352))).map (fun e => e.1)

def State.prunePort (s : State) (p : Nat) : State :=
  forEach (s.busyQueues p) s (fun s q => State.pruneQueue p (q / 8 % 8) q ((s.onQueue q).length + 1) s)

/-- What reading a copy's chain finds (R292, R300): none when it reads whole, else the reason and the cell's handle; with the
cells that were read from their twins. -/
def State.readChain (s : State) : Nat → Option Nat → (Option (Nat × Nat) × List Nat)
  | 0, _ => (none, [])
  | _, none => (none, [])
  | n + 1, some h =>
    let d := s.cell h
    let ok := s.descOk h
    let twin := match d.twin with | some t => s.descOk t | none => false
    if ok = false ∧ twin = false then (some (if s.cellFrozen h then 0x19 else 0x18, h), [])
    else
      let (r, k) := s.readChain n d.next
      (r, if ok then k else h :: k)

/-- A copy's chain, from its head. -/
def State.copyChain (s : State) (c : Copy) : Option (Nat × Nat) × List Nat := s.readChain 65 c.headH

/-- BPM reports the slot of a broken descriptor to SPR (R487 cause 4); the slot is isolated as a frozen one. -/
def State.brokenSlot (s : State) (h : Nat) : State :=
  if handlePool h < 5 then s
  else
    let u := cellSlot h
    if s.region (64 + u) ≠ 0 ∨ s.declareOk (64 + u) 4 = false then s
    else
      (((s.setB (hbcA (u / 32) 0x068) (u % 32) true).discardQueue u).declareRec (64 + u) 4 u 0).slotDrained u

/-- R323 order 3 on a copy at its selection: true when it reads whole; else it is dropped. -/
def State.chainCheck (s : State) (p cid : Nat) : Bool × State :=
  let c := s.copy cid
  let (r, k) := s.copyChain c
  let s := forEach k s (fun s h => s.countTwin cid h)
  match r with
  | none => (true, s)
  | some (reason, h) =>
    let s := if reason = 0x19 then s.bump (bpmA 0x120) else (s.bump (bpmA 0x124)).intDrop 4 c.e p 0 0 0
    let s := if reason = 0x18 then s.brokenSlot h else s
    (false, s.dropCopy (tmgPage (tmgOf p)) cid reason)

/-- A selection with its checks: a copy whose chain is broken is dropped and the choice is made again. -/
def State.selectFor (p : Nat) (express : Bool) : Nat → State → State
  | 0, s => s
  | n + 1, s =>
    match s.choose p express with
    | none => s
    | some x =>
      let (ok, s) := s.chainCheck p x.copy
      if ok then { s with tmg := { s.tmg with sel := s.tmg.sel.put {} (2 * p + b2n (!express)) x } }
      else State.selectFor p express n (State.prunePort s p)

/-- Withdraw a selection: nothing is charged (R320). -/
def State.withdraw (s : State) (p : Nat) (express : Bool) : State :=
  let k := 2 * p + b2n (!express)
  if (s.tmg.sel.at {} k).copy = 0 then s
  else { s with tmg := { s.tmg with sel := s.tmg.sel.put {} k {} } }.pmc (tmgPage (tmgOf p)) 7

/-- Withdraw the selections of a port whose queues have stopped being eligible. -/
def State.withdrawStale (s : State) (p : Nat) : State :=
  forEach [true, false] s (fun s express =>
    let x := s.tmg.sel.at {} (2 * p + b2n (!express))
    if x.copy = 0 then s
    else if (s.onQueue x.queue).head? = some x.copy ∧ s.queueOk p (x.queue / 8 % 8) (x.queue % 8) = true ∧
        (s.groupPhase p (x.queue / 8 % 8)).isSome = true ∧ s.expressGroup p (x.queue / 8 % 8) = express then s
    else s.withdraw p express)

/-- Whether the head copies of a port's queues wait for their gate to leave them room, as a selection finds them: TGS counts
each change from false to true (R417, R418). -/
def State.waitingForFit (s : State) (p : Nat) : State :=
  forEach (s.busyQueues p) s (fun s q =>
    let c := s.copy ((s.onQueue q).headD 0)
    let g := q / 8 % 8
    let now := c.done && s.gateOpen p g && !s.fitsNow p g (s.copyLen c.id)
    if now = c.waitFit then s
    else
      let s := s.setCopy { c with waitFit := now }
      if now then s.pmc (tgsPage (tmgOf p)) 7 else s)

/-- TMG selects for a port and class; a selection held is provisional and is made anew. -/
def State.tmgSelect (s : State) (p : Nat) (express : Bool) : State :=
  if p = 64 ∨ s.portStopped p = true then s
  else State.selectFor p express (s.copies.length + 1) (((s.withdraw p express).prunePort p).waitingForFit p)

def execTmgSelect (port : AnyPort) (express : Bool) (s : State) : Host.Outcome State Fault Refusal :=
  answer s (s.tmgSelect port.val express)

/-- R321: TMG visits a queue. -/
def execResidencyVisit (queue : Fin 5120) (s : State) : Host.Outcome State Fault Refusal :=
  let p := queue.val / 64
  answer s (if s.regionDown (53 + tmgOf p) = true ∨ p = 64 ∨ 68 ≤ p then s
    else (State.pruneQueue p (queue.val / 8 % 8) queue.val ((s.onQueue queue.val).length + 1) s).withdrawStale p)

/-! ### Shapers (R313, R315, R316) -/

/-- Staged shaper settings of a queue come into force (R313). -/
def State.loadQShape (s : State) (q : Nat) : State :=
  if s.qLE q 32 1 % 2 = 0 then s
  else { s with tmg := { s.tmg with qShp := s.tmg.qShp.put [] q (s.winRd (qA q + 16) 16) } }.winPut (qA q + 32) 1 0

/-- Those of a group; a change of mode empties its buckets. -/
def State.loadGShape (s : State) (p g : Nat) : State :=
  let a := gA p g
  let b0 := s.winLE a 1
  if bitsOf b0 3 3 = 0 then s
  else
    let old := s.gMode p g
    let s := { s with tmg := { s.tmg with gShp := s.tmg.gShp.put [] (8 * p + g) (s.winRd a 20) } }.winPut a 1 (b0 - 8)
    if b0 % 4 = old then s else (s.winPut (a + 20) 4 0).winPut (a + 24) 4 0

/-- A refill of a queue's shaper. -/
def State.refillQueue (s : State) (q : Nat) : State :=
  let s := s.loadQShape q
  let c := s.qShape q
  if c.isEmpty then s
  else
    let s := s.setBucket (qA q + 44) (min ((256 * (leAt c 8 4 % 2 ^ 24) : Nat) : Int) (s.bucket (qA q + 44) + ((leAt c 0 4 % 2 ^ 24 : Nat) : Int)))
    s.setBucket (qA q + 48) (min ((256 * (leAt c 12 4 % 2 ^ 24) : Nat) : Int) (s.bucket (qA q + 48) + ((leAt c 4 4 % 2 ^ 24 : Nat) : Int)))

/-- A refill of a group's shaper. -/
def State.refillGroup (s : State) (p g : Nat) : State :=
  let s := s.loadGShape p g
  let c := s.gShape (8 * p + g)
  let a := gA p g
  let tc := s.bucket (a + 20)
  let cinc : Int := ((leAt c 4 4 % 2 ^ 24 : Nat) : Int)
  let cbs : Int := ((256 * (leAt c 12 4 % 2 ^ 24) : Nat) : Int)
  let pbs : Int := ((256 * (leAt c 16 4 % 2 ^ 24) : Nat) : Int)
  match s.gMode p g with
  | 1 => (s.setBucket (a + 20) (min cbs (tc + cinc))).setBucket (a + 24) (min pbs (s.bucket (a + 24) + ((leAt c 8 4 % 2 ^ 24 : Nat) : Int)))
  | 2 =>
    if s.gateOpen p g = false then s
    else if s.groupActive p g = true ∨ tc < 0 then s.setBucket (a + 20) (max (-pbs) (min cbs (tc + cinc)))
    else if 0 < tc then s.setBucket (a + 20) 0
    else s
  | _ => s

/-- R315: every 100 ns the shapers of a traffic manager's ports refill. Only a queue or group with a written configuration
has a shaper. -/
def State.refillAll (s : State) (e : Nat) : State :=
  let mine := fun (p : Nat) => decide (tmgOf p = e)
  let qs := (s.win.filter (fun x => decide (0x2000000 ≤ x.1 ∧ x.1 < 0x2044000 ∧ x.1 % 64 = 32))).map (fun x => (x.1 - 0x2000000) / 64)
  let qs := (qs ++ (s.tmg.qShp.map (fun x => x.1)).filter (fun q => !qs.contains q)).filter (fun q => mine (q / 64))
  let gs := (s.win.filter (fun x => decide (0x2100000 ≤ x.1 ∧ x.1 < 0x2104400 ∧ x.1 % 32 = 0 ∧ bitsOf x.2.toNat 3 3 = 1))).map (fun x => (x.1 - 0x2100000) / 32)
  let gs := (gs ++ (s.tmg.gShp.map (fun x => x.1)).filter (fun k => !gs.contains k)).filter (fun k => mine (k / 8))
  let s := forEach qs s (fun s q => s.refillQueue q)
  let s := forEach gs s (fun s k => s.refillGroup (k / 8) (k % 8))
  forEach ((s.tmg.sel.map (fun x => x.1 / 2)).filter mine) s (fun s p => s.withdrawStale p)

def execShaperRefill (group : Group) (s : State) : Host.Outcome State Fault Refusal :=
  answer s (if s.regionDown (53 + group.val) then s else s.refillAll group.val)

/-! ### Flow control repeat (R325) -/

/-- Half the timer has passed with a priority asserted: the request is repeated. -/
def State.fcRepeat (s : State) (p : Nat) : State :=
  let e := p / 16
  let i := p % 16
  let on := s.f (tmgA e (0x240 + 4 * i)) 7 0
  if on = 0 ∨ s.f (tmgA e (0x200 + 4 * i)) 1 0 = 0 then s else s.fcRequest p on (s.f (tmgA e (0x200 + 4 * i)) 31 16)

def execFcRepeatTimer (port : Port) (s : State) : Host.Outcome State Fault Refusal := answer s (s.fcRepeat port.val)

/-! ### Sampling (R326, R327) -/

/-- Minimum, maximum and sum with one value more. -/
def addSample (first : Bool) (m : Nat × Nat × Nat) (v : Nat) : Nat × Nat × Nat :=
  if first then (v, v, v) else (min m.1 v, max m.2.1 v, satAdd 48 m.2.2 v)

/-- One sample of a queue. -/
def State.sampleQueue (s : State) (e q : Nat) : State :=
  let x := s.tmg.samples.at {} q
  let age := match s.onQueue q with
    | [] => 0
    | cid :: _ => (s.clk - (s.copy cid).enq) / 25
  let cells := s.qCells q
  let copies := s.qLE q 40 4 % 2 ^ 24
  let prof := s.qLE q 0 1 / 16 % 8
  let metric := bitsOf (s.fw (tmgA e 0x048)).toNat (2 * prof + 1) (2 * prof)
  let v := if metric = 1 then cells else if metric = 2 then copies else age
  let b := ((List.range 7).filter (fun j => decide (fld (s.fw (tmgA e (0x300 + 32 * prof + 4 * j))) 23 0 ≤ v))).length
  let first := decide (x.n = 0)
  let x := { x with n := x.n + 1, cells := addSample first x.cells cells, copies := addSample first x.copies copies,
                    age := addSample first x.age age, bins := setAt x.bins b (x.bins.getD b 0 + 1) }
  { s with tmg := { s.tmg with samples := s.tmg.samples.put {} q x } }

/-- A round starts: every sampled queue of the group in ascending ID; or the start is skipped while a round runs (`late`). -/
def State.sampleRound (s : State) (e : Nat) (late : Bool) : State :=
  if s.b (tmgA e 0x044) 31 = false ∨ s.regionDown (53 + e) = true then s
  else if late then
    ((s.bump (tmgA e 0x05C)).setB (tmgA e 0x040) 0 true).report (tmgPage e) 2 0x5803
  else
    let qs := (s.win.filter (fun x => decide (0x2000000 ≤ x.1 ∧ x.1 < 0x2044000 ∧ x.1 % 64 = 0 ∧ bitsOf x.2.toNat 1 1 = 1))).map
      (fun x => (x.1 - 0x2000000) / 64)
    forEach (qs.filter (fun q => decide (tmgOf (q / 64) = e))) s (fun s q => s.sampleQueue e q)

def execSampleRoundStart (group : Group) (late : Bool) (s : State) : Host.Outcome State Fault Refusal :=
  answer s (s.sampleRound group.val late)

end Sys2Proof.Machine
end

