-- ==== Sys2Proof/Machine/Transmit.lean ====
section
/-! DEFINITION. Transmission (R96 to R100, R105, R313 to R322, R337 to R341, R386 to R388, R406, R449): start and end of a
copy at a port, preemption, hand-over at ports 65 to 67, link loss. -/

namespace Sys2Proof.Machine

def State.tx (s : State) (p : Nat) : Option TxState := (s.tmg.tx.find? (fun e => decide (e.1 = p))).map (fun e => e.2)
def State.setTx (s : State) (p : Nat) (t : Option TxState) : State :=
  let m := s.tmg.tx.filter (fun e => decide (e.1 ≠ p))
  { s with tmg := { s.tmg with tx := match t with | some x => SMap.ins p x m | none => m } }
def State.suspended (s : State) (p : Nat) : Option TxState := (s.tmg.yielded.find? (fun e => decide (e.1 = p))).map (fun e => e.2)
def State.setSuspended (s : State) (p : Nat) (t : Option TxState) : State :=
  let m := s.tmg.yielded.filter (fun e => decide (e.1 ≠ p))
  { s with tmg := { s.tmg with yielded := match t with | some x => SMap.ins p x m | none => m } }

/-- SDS_LANE_CTL.loop of a port's lanes (R108): 1 near-end, 2 far-end. -/
def State.portLoop (s : State) (p : Nat) : Nat := s.f (sdsA (p / 4) (0x048 + 4 * (p % 4))) 21 20

/-- What a port's transmitter sends (R108): out on its lanes; in near-end loop to its own receiver; in far-end loop, where the
lanes send what they receive, nowhere. -/
def State.sendWire (s : State) (p : Nat) (o : Out) : State :=
  match s.portLoop p, o with
  | 1, .frame _ bs _ => s.setMac p { s.mac p with loop := (s.mac p).loop ++ [bs] }
  | 1, .macControl _ bs => s.setMac p { s.mac p with loop := (s.mac p).loop ++ [bs] }
  | 1, _ => s
  | 2, _ => s
  | _, _ => s.emit o

/-- The gate group of a copy. -/
def Copy.group (c : Copy) : Nat := c.queue.getD 0 / 8 % 8

/-! ### Preemption (R105, R358) -/

/-- Bytes of a transmission that have left by now. -/
def State.sentBytes (s : State) (p : Nat) (t : TxState) : Nat := t.sent + (s.clk - t.since) * 4 * s.portMbps p / 8000

/-- The transmission of a port yields with `sent` of its bytes gone; none when that is no legal preemption point (R105): the
fragment lacks its minimum length, or fewer than 64 bytes would remain. -/
def State.yieldAt (s : State) (p : Nat) (t : TxState) (sent : Nat) : Option State :=
  if t.express = true ∨ s.preemptActive p = false ∨ sent < t.sent + s.minFrag p - 4 ∨ s.copyLen t.copy < sent + 64 then none
  else some ((s.setTx p none).setSuspended p (some { t with sent, since := s.clk }))

/-- A preemptable frame yields at its first legal preemption point from now on. -/
def State.preempt (s : State) (p : Nat) : Option State :=
  match s.tx p with
  | none => none
  | some t => s.yieldAt p t (max (s.sentBytes p t) (t.sent + s.minFrag p - 4))

/-- A suspended frame continues when its gate is open and its bytes left fit (R358). -/
def State.resume (s : State) (p : Nat) : State :=
  match s.suspended p, s.tx p with
  | some t, none =>
    let g := (s.copy t.copy).group
    let left := s.copyLen t.copy - t.sent
    if s.b (macA p 0x048) 1 = true ∨ s.b (macA p 0x048) (8 + g) = true ∨ s.gateOpen p g = false ∨ s.fitsNow p g left = false then s
    else (s.setSuspended p none).setTx p (some { t with since := s.clk, frags := t.frags + 1 })
  | _, _ => s

/-- A gate of a transmitting group is closed while bytes still leave (R359): the frame counts, once, and a preemptable one is
preempted. -/
def State.overrun (s : State) (p : Nat) : State :=
  match s.tx p with
  | none => s
  | some t =>
    if s.gateOpen p (s.copy t.copy).group then s
    else
      let e := p / 16
      let s := if t.counted then s
        else
          let s := (s.setTx p (some { t with counted := true })).bump (tgsA e 0x058)
          if s.b (tgsA e 8) 4 then s else s.report (tgsPage e) 4 0x5C05 p
      (s.preempt p).getD s

/-- A gate closes at an entry boundary (R358): a frame whose bytes have all left is done; a preemptable one ends its fragment
with its mCRC by the close, at the last legal point; what still leaves overruns (R359). -/
def State.gateCloses (s : State) (p : Nat) : State :=
  match s.tx p with
  | none => s
  | some t =>
    if s.gateOpen p (s.copy t.copy).group = true ∨ s.copyLen t.copy ≤ s.sentBytes p t then s
    else (s.yieldAt p t (min (s.sentBytes p t - 4) (s.copyLen t.copy - 64))).getD (s.overrun p)

/-! ### Cells at transmission (R386, R300) -/

/-- The cells of a copy in order. -/
def State.copyCells (s : State) (c : Copy) : List Nat := s.chainCells 65 c.headH

/-- Why a cell of a copy fails, by its index: lost (0x19), or its check value differs from what is computed over its bytes or
from what `upset` says the MAC computes (0x18): reason, carried, seen. -/
def State.cellFault (s : State) (i h : Nat) (upset : Option (Nat × Word)) : Option (Nat × Nat × Nat) :=
  match s.readable h with
  | none => some (0x19, 0, 0)
  | some g =>
    let want := (s.cell g).check
    let seen := match upset with
      | some (j, v) => if j = i then v.toNat else crc32c (s.cellBytes g)
      | none => crc32c (s.cellBytes g)
    if seen = want then none else some (0x18, want, seen)

/-- The first cell from index `i` that fails. -/
def State.firstFault (s : State) (upset : Option (Nat × Word)) : Nat → List Nat → Option (Nat × Nat × Nat × Nat)
  | _, [] => none
  | i, h :: rest =>
    match s.cellFault i h upset with
    | some (r, a, b) => some (i, r, a, b)
    | none => s.firstFault upset (i + 1) rest

/-- Count and capture a failing cell. -/
def State.cellFailed (s : State) (c : Copy) (x : Nat × Nat × Nat × Nat) : State :=
  if x.2.1 = 0x19 then s.bump (bpmA 0x120) else s.intDrop 1 c.e c.port x.1 x.2.2.1 x.2.2.2

/-- The bytes of a copy's first `n` cells: its edited head, then its tail cells; without the FCS once it is whole. -/
def State.copyBytes (s : State) (c : Copy) (n : Nat := 64) : List Byte :=
  let cells := (s.copyCells c).take n
  let bytes := fun (h : Nat) => s.cellBytes ((s.readable h).getD h)
  let all := match cells with
    | [] => c.head
    | h :: rest => bytes h ++ c.head.drop 256 ++ rest.flatMap bytes
  if c.done ∧ 64 ≤ n then all.take (all.length - 4) else all

/-- A copy's cells are read, those not asked for yet. -/
def State.readCells (s : State) (cid : Nat) : State :=
  let c := s.copy cid
  let hs := s.copyCells c
  let s := forEach (hs.drop c.readN) s (fun s h => s.readImage cid h)
  s.setCopy { s.copy cid with readN := hs.length }

/-! ### One-step correction (R340, R341) -/

/-- A stamp in units of 2^−32 ns. -/
def stampFine (sec ns frac : Nat) : Int := (((sec * 1000000000 + ns) * 2 ^ 32 + frac : Nat) : Int)

/-- The innermost IP header before byte `o` of a copy: its version and place, by the copy's header records, or else by its
final EtherType. -/
def State.ipBefore (s : State) (c : Copy) (o : Nat) : Option (Nat × Nat) :=
  let recs := (c.hdrs.map (fun h => h.1)).filter (fun a => decide (a < o))
  match recs.foldl (fun ip a => match ipAt c.head ip a with | some v => some (v, a) | none => ip) none with
  | some x => some x
  | none =>
    let t := s.tagEnd (s.frame c.fid) { bytes := c.head, hdrs := c.hdrs, dEnd := none, delta := c.delta }
    (ipAt c.head none (t + 2)).map (fun v => (v, t + 2))

/-- The PTP header of a copy, its offset and what carries it: 1 UDP over IPv4, 2 IPv6, 0 else. -/
def State.ptpHeader (s : State) (c : Copy) : Option (Nat × Nat) :=
  let id := s.f (tsuA 0x280) 5 0
  if id = 0 then none
  else
    match c.hdrs.find? (fun h => decide (h.2 = id)) with
    | none => none
    | some (o, _) =>
      match s.ipBefore c o with
      | some (4, p) => some (o, b2n (decide (beAt c.head (p + 9) 1 = 17 ∧ p + beAt c.head p 1 % 16 * 4 + 8 = o)))
      | some _ => some (o, 2)
      | none => some (o, 0)

/-- What the MAC writes into a PTP message as it leaves: the bytes, and whether it was corrected. -/
def State.ptpWrite (s : State) (p : Nat) (t : TxState) (c : Copy) (bs : List Byte) : List Byte × State :=
  let cfg := s.rd (tsuA (0x300 + 4 * p))
  let f := s.frame c.fid
  match s.ptpHeader c with
  | none => (bs, s)
  | some (o, ovr) =>
    let ty := (bs.getD o 0).toNat % 16
    let noSum := fun (b : List Byte) => if ovr = 1 then putBytes b (o - 2) [0, 0] else b
    let sync := bit cfg 5 && decide (ty = 0) && decide (f.src = 64) && decide (bitsOf (bs.getD (o + 6) 0).toNat 1 1 = 0)
    if sync then
      let up := if 2 ^ 31 ≤ t.frac then 1 else 0
      let x := ({ sec := t.sec, ns := t.ns } : TimeBase).addNs up
      (noSum (putBytes bs (o + 34) (beBytes 6 x.sec ++ beBytes 4 x.ns)), (s.bump (tsuA 0x284)).pmc 4 7)
    else if bit cfg 4 = false ∨ 3 < ty then (bs, s)
    else if f.stampTb ≠ t.tb ∨ f.stampEp ≠ t.ep ∨ 64 ≤ f.src ∨ ovr = 2 ∨ t.prot.isSome = true ∨ 256 < o + 16 then
      (bs, s.bump (tsuA 0x288))
    else
      let d := (stampFine t.sec t.ns t.frac - stampFine f.stampSec f.stampNs f.stampFrac) / 65536
      let v := fromSigned 64 (toSigned 64 (beAt bs (o + 8) 8) + d)
      (noSum (putBytes bs (o + 8) (beBytes 8 v)), (s.bump (tsuA 0x284)).pmc 4 7)

/-! ### Transmit timestamps (R339) -/

/-- Show the head of a port's timestamp FIFO in TSU_TXTS[p]. -/
def State.showTxts (s : State) (p : Nat) : State :=
  let a := tsuA (0x400 + 16 * p)
  match s.tsu.txts.at [] p with
  | [] => (((s.wr a 0).wr (a + 4) 0).wr (a + 8) 0).wr (a + 12) 0
  | x :: _ =>
    let w := 2 ^ 31 + b2n x.ovf * 2 ^ 30 + x.tb * 2 ^ 28 + x.epoch * 2 ^ 24 + x.ring
    (((s.wr a (word w)).wr (a + 4) (word x.desc)).wr (a + 8) (word x.ns)).wr (a + 12) (word x.sec)

/-- A stamp enters the port's FIFO of 8, or is lost. -/
def State.pushTxts (s : State) (p : Nat) (t : TxState) (ring desc : Nat) : State :=
  let q := s.tsu.txts.at [] p
  if 8 ≤ q.length then
    let s := { s with tsu := { s.tsu with txLost := s.tsu.txLost.put false p true } }
    (s.bump (tsuA 0x28C)).report 4 5 0x1004
  else
    let x : TxStamp := { ring, desc, tb := t.tb, epoch := t.ep, ns := t.ns, sec := t.sec % 2 ^ 32, ovf := s.tsu.txLost.at false p }
    { s with tsu := { s.tsu with txts := s.tsu.txts.put [] p (q ++ [x]), txLost := s.tsu.txLost.put false p false } }.showTxts p |>.pmc 4 4

/-! ### Delivery counts (R406, R409, R413) -/

/-- A copy of `n` octets with destination `da` is delivered at port `p`. -/
def State.txCount (s : State) (p n : Nat) (da : List Byte) : State :=
  let cls := if beAt da 0 6 = 0xFFFFFFFFFFFF then 0x30 else if beAt da 0 1 % 2 = 1 then 0x2F else 0x2E
  let s := ((s.slot p 0x2C).slot p 0x2D n).slot p cls
  { s with sta := { s.sta with bwTx := s.sta.bwTx.upd 0 p (fun x => x + n) } }

/-! ### Start -/

/-- Charge the shapers that govern a copy, and its group's round robin or deficits (R315, R316, R319). -/
def State.chargeStart (s : State) (p : Nat) (x : TxSel) : State :=
  let g := x.queue / 8 % 8
  let cost : Int := ((256 * (s.copyLen x.copy + s.portOvh p) : Nat) : Int)
  let s := if s.qFlag x.queue 3 then
      (s.setBucket (qA x.queue + 44) (s.bucket (qA x.queue + 44) - cost)).setBucket (qA x.queue + 48) (s.bucket (qA x.queue + 48) - cost)
    else s
  let a := gA p g
  let s := match s.gMode p g with
    | 1 => (s.setBucket (a + 20) (s.bucket (a + 20) - cost)).setBucket (a + 24) (s.bucket (a + 24) - cost)
    | 2 => s.setBucket (a + 20) (max (-((256 * (leAt (s.gShape (8 * p + g)) 16 4 % 2 ^ 24) : Nat) : Int)) (s.bucket (a + 20) - cost))
    | _ => s
  match x.rr with
  | some i => { s with tmg := { s.tmg with rr := s.tmg.rr.put 7 (8 * p + g) i } }
  | none =>
    let s := { s with tmg := { s.tmg with ptr := s.tmg.ptr.put 0 (8 * p + g) x.ptr } }
    forEach x.defs s (fun s d => s.winPut (qA d.1 + 52) 4 (d.2 % 2 ^ 24))

/-- The place of a selection in the order of service: committed groups first, higher groups first. -/
def TxSel.rank (x : TxSel) : Nat := 8 * b2n x.excess + (7 - x.queue / 8 % 8)

/-- A copy whose first cell has verified and that MACsec lets go starts. -/
def State.startCopy (s : State) (p : Nat) (express : Bool) (x : TxSel) (prot : Option (Nat × Nat × Nat)) : State :=
  let c := s.copy x.copy
  let s := (s.chargeStart p x).takeOff c false
  let c := s.copy x.copy
  let b := s.portTb p
  let t := s.stamp b (s.txAdj p)
  let s := s.capOffer 1 p p (fun _ => true) (s.copyInfo c 0)
  let s := if c.done then s else s.slot p 0x33
  let t : TxState := { copy := c.id, express, cut := !c.done, since := s.clk, tb := b, ep := t.epoch, ns := t.ns, sec := t.sec,
                       frac := t.frac, prot }
  ((s.readCells c.id).setTx p (some t)).pmc (tmgPage (tmgOf p)) 4

/-- The selected copy of a port and class starts, is withdrawn, or fails at its first cell. `upset`: a cell over which the
MAC computes another value than it carries. -/
def State.startSelected (s : State) (p : Nat) (express : Bool) (upset : Option (Nat × Word)) : State :=
  let s := s.withdrawStale p
  let k := 2 * p + b2n (!express)
  let x := s.tmg.sel.at {} k
  if x.copy = 0 then s
  else
    match s.choose p express with
    | none => s.withdraw p express
    | some y =>
      if y.rank < x.rank ∧ y.queue / 8 % 8 ≠ x.queue / 8 % 8 then s.withdraw p express
      else
        let c := s.copy x.copy
        let s := { s with tmg := { s.tmg with sel := s.tmg.sel.put {} k {} } }
        let first := s.firstFault upset 0 ((s.copyCells c).take 1)
        if 64 ≤ p then
          match first with
          | some r => (s.cellFailed c r).dropCopy (tmgPage 4) x.copy r.2.1
          | none => s.startCopy p true x none
        else
          let (m, s') := s.mscTransmit p c.domain (decide (beAt c.head 12 2 = 0x888E))
          let grow := match m with | .protect sc _ _ => s.mscGrow (p / 4) sc | _ => 0
          if c.done = true ∧ m ≠ .drop ∧ s.f (macA p 0x044) 13 0 < max 64 (s.copyLen x.copy) + grow then
            s.dropCopy (macPage p) x.copy 0x02
          else if m = .drop then s'.dropCopy (mscPage (p / 4)) x.copy 0x17
          else
            match first with
            | some r => (s.cellFailed c r).dropCopy (macPage p) x.copy r.2.1
            | none =>
              match m with
              | .protect sc sa pn => s'.startCopy p express x (some (sc, sa, pn))
              | _ => s'.startCopy p express x none

/-- Whether the crossing behind a port can take a copy (R328): port 66's when no recirculated frame waits for P4's admission
and P4's staging has room, so that copies behind that admission stay on the queues; port 65's while the island runs (R475,
R479). -/
def State.crossingFree (s : State) (p : Nat) : Bool :=
  if p = 65 then s.isl.run && !s.isl.hold else decide (p ≠ 66) || (!s.frames.any (fun e => decide (e.2.place = .staged ∧ e.2.inPort = 66)) &&
    decide (s.stageHeld 4 + cellsOf (s.copyLen (s.tmg.sel.at {} (2 * p)).copy) ≤ 8192))

/-- R319, R386: the next transmission of a port and class. A control frame that waits goes first (R104); an express copy
preempts; a suspended frame continues before any new preemptable one (R358). Once tx_en is cleared no copy starts (R100). -/
def State.txStart (s : State) (p : Nat) (express : Bool) (upset : Option (Nat × Word)) : State :=
  if p = 64 ∨ s.portStopped p = true ∨ s.crossingFree p = false ∨ (p < 64 ∧ !(s.mac p).ctlOut.isEmpty) then s
  else if p < 64 ∧ s.b (macA p 0x040) 1 = false then (if express then s else s.resume p)
  else
    match s.tx p with
    | some t =>
      if express = false ∨ t.express = true ∨ (s.tmg.sel.at {} (2 * p)).copy = 0 then s
      else match s.preempt p with
        | none => s
        | some s => s.startSelected p true upset
    | none =>
      if express = false ∧ (s.suspended p).isSome = true then s.resume p
      else s.startSelected p express upset

def execTxCopyStart (port : AnyPort) (express : Bool) (upset : Option (Nat × Word)) (s : State) :
    Host.Outcome State Fault Refusal := answer s (s.txStart port.val express upset)

/-! ### Link loss (R100, R322) -/

/-- A link-down at a port's queues: they are flushed when TMG_PORT_CFG.flush is 1, and the flush is logged. -/
def State.flushPort (s : State) (p : Nat) : State :=
  if s.b (tmgPortA p) 8 = false then s
  else
    let ids := (s.busyQueues p).flatMap s.onQueue
    let e := tmgOf p
    let s := (s.withdraw p true).withdraw p false
    let s := forEach ids s (fun s cid => (s.bump (tmgA e 0x054)).dropCopy (tmgPage e) cid 0x1F)
    s.report (tmgPage e) 1 0x5802 p

/-- The copies in transmission at a port are ended at once (R100). -/
def State.abortTx (s : State) (p r : Nat) : State :=
  let ts := (match s.tx p with | some t => [t] | none => []) ++ (match s.suspended p with | some t => [t] | none => [])
  let s := (s.setTx p none).setSuspended p none
  forEach ts s (fun s t =>
    (if t.stomp then s.endCopy t.copy else s.dropCopy (macPage p) t.copy r).idleCredit p (s.copy t.copy).group)

/-- A frame boundary of the transmit MAC, where no copy is in progress, preempted or not: a clear of tx_en (R100) and the
express groups (R111) come into effect. -/
def State.txBoundary (s : State) (p : Nat) : State :=
  if 64 ≤ p then s
  else
    let m := s.mac p
    let want := s.b (macA p 0x040) 1
    let busy := (s.tx p).isSome || (s.suspended p).isSome
    let s := if busy then s else s.load (macA p 0x064)
    if want = m.txEn ∨ (busy = true ∧ want = false) then s
    else
      let s := s.setMac p { m with txEn := want }
      if want = true ∨ s.b (macA p 0x048) 0 = false then s else s.flushPort p

/-! ### End -/

/-- Port 66: the copy re-enters P4's staging for its next pass (R149, R154). -/
def State.recirculate (s : State) (c : Copy) : State :=
  let f := s.frame c.fid
  let bs := s.copyBytes c ++ slice f.bytes (f.bytes.length - 4) 4
  let g : Frame :=
    { id := s.nextId, src := f.src, inPort := 66, grp := 4, wireLen := bs.length, complete := true, lenKnown := true,
      pass := f.pass + 1, domain := f.domain, version := f.version, prot := f.prot, admitted := true, stampTb := f.stampTb,
      stampEp := f.stampEp, stampNs := f.stampNs, stampSec := f.stampSec, stampFrac := f.stampFrac, tsReq := f.tsReq, startNode := f.acts.recirc, entryPcp := some (f.entryPcp.getD f.parse.pcp), place := .staged, ord := s.nextId,
      md := f.md.filter (fun e => decide (e.1 = 0x19)) }
  ({ s.setFrame g with nextId := s.nextId + 1 }.stageBytes g.id bs).endCopy c.id

/-- A copy leaves whole at port 65 or 67: consumed by the island record interface or the warden. -/
def State.consume (s : State) (p : Nat) (c : Copy) : State :=
  let f := s.frame c.fid
  let bs := s.copyBytes c
  let s := (s.txCount p (bs.length + 4) c.head).deliver (txPage p) c.version
  let s := if p = 67 then
      { s with sec := { s.sec with inbox := s.sec.inbox ++ [{ dom := c.domain, port := f.src, front := decide (f.src < 64), bytes := bs }] } }
    else { s with isl := { s.isl with inbox := s.isl.inbox ++ [bs] } }
  s.endCopy c.id

/-- The bytes of a copy as the MAC sends them, corrected (R340, R341), padded by `pad` and protected (R449), before the FCS. -/
def State.wireBytes (s : State) (p : Nat) (t : TxState) (c : Copy) (bs : List Byte) (pad : Nat) : List Byte × State :=
  let (bs, s) := s.ptpWrite p t c bs
  let bs := bs ++ List.replicate pad 0
  match t.prot with
  | none => (bs, s)
  | some (sc, sa, pn) => s.mscProtect p sc sa pn bs

/-- A stomped copy leaves with the inverse of the FCS of what is sent (R98): the bytes of `n` cells, at most `lim` of them on
the wire, without the ICV that a protected copy would have ended with; counted as stomped only. -/
def State.sendStomped (s : State) (p : Nat) (t : TxState) (c : Copy) (n : Nat := 64) (lim : Nat := 65536) : State :=
  let (bs, s) := s.wireBytes p t c (s.copyBytes c n) 0
  let bs := (if t.prot.isNone then bs else bs.take (bs.length - 16)).take lim
  let fcs := leBytes 4 (2 ^ 32 - 1 - crc32 bs)
  ((s.sendWire p (.frame p (bs ++ fcs) true)).slot p 0x32).endCopy c.id

/-- A whole copy leaves at a front port. -/
def State.sendWhole (s : State) (p : Nat) (t : TxState) (c : Copy) : State :=
  let f := s.frame c.fid
  let bs := s.copyBytes c
  let pad := 60 - bs.length
  let (out, s) := s.wireBytes p t c bs pad
  let wire := out ++ leBytes 4 (crc32 out)
  let s := if pad = 0 then s else s.slot p 0x35
  let s := if 2 ≤ t.frags then s.slot p 0x34 else s
  let s := match f.tsReq with
    | some (ring, desc) => s.pushTxts p t ring desc
    | none => s
  (((s.sendWire p (.frame p wire false)).txCount p wire.length out).deliver (txPage p) c.version).endCopy c.id |>.pmc (macPage p) 7

/-- A copy in transmission fails past its first cell: counted under its reason, and stomped. -/
def State.stompNow (s : State) (p r : Nat) (t : TxState) (c : Copy) (n : Nat := 64) (lim : Nat := 65536) : State :=
  ((s.countDrop (macPage p) p r).capDrop p (s.copyInfo c r)).leave (macPage p) c.version r |>.sendStomped p t c n lim

/-- Whether a cut-through copy reaches byte MAC_MAX_LEN + 1 of its egress port (R99) with what is held of it. -/
def State.cutTooLong (s : State) (p : Nat) (t : TxState) (c : Copy) : Bool :=
  let grow := match t.prot with | some (sc, _, _) => s.mscGrow (p / 4) sc | none => 0
  t.cut && decide (s.f (macA p 0x044) 13 0 < (if c.done then max 64 (s.copyLen c.id) else (s.copyBytes c).length) + grow)

/-- The end of a transmission at a front port. -/
def State.endFront (s : State) (p : Nat) (t : TxState) (c : Copy) (upset : Option (Nat × Word)) (underrun : Bool) : State :=
  if t.stomp then s.sendStomped p t c
  else if underrun then (s.intDrop 3 c.e p 0 0 0).stompNow p 0x18 t c
  else
    match s.firstFault upset 1 ((s.copyCells c).drop 1) with
    | some r => (s.cellFailed c r).stompNow p r.2.1 t c r.1
    | none =>
      if s.cutTooLong p t c then s.stompNow p 0x02 t c 64 (s.f (macA p 0x044) 13 0)
      else s.sendWhole p t c

/-- The last byte of a port's transmission leaves (R406); a suspended frame then goes on when it may. A copy whose frame is
still arriving ends only by a stomp, an underrun (R41) or its length (R99); one whose cells HBM has still to read waits for
them. -/
def State.txEnd (s : State) (p : Nat) (upset : Option (Nat × Word)) (underrun : Bool) : State :=
  match s.tx p with
  | none => s
  | some t =>
    let c := s.copy t.copy
    if c.done = false ∧ t.stomp = false ∧ underrun = false ∧ (64 ≤ p ∨ s.cutTooLong p t c = false) then s
    else
      let s := if t.stomp || underrun then s else s.readCells c.id
      if s.reading c.id = true ∧ t.stomp = false ∧ underrun = false then s
      else
      let s := s.setTx p none
      let s := if p < 64 then s.endFront p t c upset underrun
        else
          match s.firstFault upset 0 (s.copyCells c) with
          | some r => (s.cellFailed c r).dropCopy (tmgPage 4) c.id r.2.1
          | none => if p = 66 then s.recirculate c else s.consume p c
      (s.idleCredit p c.group).txBoundary p

def execTxCopyEnd (port : AnyPort) (upset : Option (Nat × Word)) (underrun : Bool) (s : State) :
    Host.Outcome State Fault Refusal := answer s (s.txEnd port.val upset underrun)

end Sys2Proof.Machine
end

