-- ==== Sys2Proof/Machine/HostDma.lean ====
section
/-! DEFINITION. Host DMA of frames (R73 to R81, R387): transmit rings into P4 as port 64, and copies toward port 64 into
receive rings. -/

namespace Sys2Proof.Machine

/-- Whether the device may master the host's memory for ring control entry `i` (R52, R81, R83). -/
def State.ringDma (s : State) (i : Nat) : Bool := s.hostOpen && s.ringOn i

/-! ### Transmit (R78, R79) -/

/-- The descriptors of the frame at head: those up to the first eof, or up to the first that is followed by a sof of another
frame (the flag); none while its eof has not been handed over. DESIGN CHOICE: R79 states no check that the first has sof, and
the frame starts at head whether or not it has. -/
def State.txDescs (s : State) (i : Nat) : Nat → Nat → List (List Byte) → Option (List (List Byte) × Bool)
  | 0, _, _ => none
  | n + 1, j, acc =>
    let d := s.hostRd (s.descAddr i j) 32
    if acc.isEmpty = false ∧ bitsOf (leAt d 10 1) 1 1 = 1 then some (acc, true)
    else if bitsOf (leAt d 10 1) 2 2 = 1 then some (acc ++ [d], false)
    else s.txDescs i n (j + 1) (acc ++ [d])

/-- The failing check of R79 order 1: 1 descriptor CRC, 2 len 0, 3 sof before the previous eof; 0 none. -/
def txBad (crcChk early : Bool) (ds : List (List Byte)) : Nat :=
  if crcChk && ds.any (fun d => decide (crc16 (d.take 30) ≠ leAt d 30 2)) then 1
  else if ds.any (fun d => decide (leAt d 8 2 = 0)) then 2
  else if early then 3
  else 0

/-- A frame of transmit ring control entry `i` is taken and discarded under a reason (R79), and offered to the drop sessions
(R367) with the length it would have with its FCS; it has no version yet. -/
def State.txDiscard (s : State) (i : Nat) (data : List Byte) (reason : Nat) : State :=
  let c : CapInfo := { inPort := 64, reason, domain := s.ringDomain i, version := 0, len := some (data.length + 4), bytes := data }
  ((((s.slot 64 0x23).led 1 1 64 0).countDrop 1 64 reason).capDrop 64 c).led 1 1 64 2

/-- A checked frame enters P4 as port 64 under the ring's domain, with the FCS the device appends. -/
def State.txEnter (s : State) (i : Nat) (sof data : List Byte) (at_ : Nat) : State :=
  let fl := leAt sof 10 1
  let body := data ++ List.replicate (60 - data.length) 0
  let bs := body ++ leBytes 4 (crc32 body)
  let f : Frame :=
    { id := s.nextId, after := s.frontMark 1, src := 64, inPort := 64, grp := 4, wireLen := bs.length, complete := true, lenKnown := true,
      domain := s.ringDomain i, place := .staged, ord := s.nextId,
      direct := if bitsOf fl 5 5 = 1 then some (leAt sof 12 2 % 8192) else none,
      tsReq := if bitsOf fl 3 3 = 1 then some (i - 1024, at_) else none }
  let s := (s.slot 64 0x23).led 1 1 64 0
  { s.setFrame f with nextId := s.nextId + 1 }.stageBytes f.id bs

/-- A frame is read from transmit ring control entry `i`: its descriptors are written back with done, head passes them, and
it enters P4 or is discarded at the first check it fails. It waits while staging has no room for it. -/
def State.txFetch (s : State) (i : Nat) : State :=
  if s.ringDma i = false ∨ s.quiesced = true ∨ s.ringEmpty i = true then s
  else
    match s.txDescs i (s.ringFree i) 0 [] with
    | none => s
    | some (ds, early) =>
      let data := ds.flatMap (fun d => s.hostRd (leAt d 0 8) (leAt d 8 2))
      let sof := ds.headD []
      let bad := txBad (s.ringFlag i 2) early ds
      if bad = 0 ∧ s.stageFits 4 0 (max 60 data.length + 4) = false then s
      else
        let idx := s.ringHead i % s.ringSize i
        let n := ds.length
        let s := forEach ((List.range n).zip ds) s (fun s e =>
          s.hostWr (s.descAddr i e.1 + 10) [BitVec.ofNat 8 (leAt e.2 10 1) ||| 1])
        let s := (((s.advHead i n).ringComplete i n).pmc 1 4 n)
        if bad ≠ 0 then
          let r := i - 1024
          let s := (s.setRingFlag i 0 false).setB (hifA (0x180 + 4 * (r / 32))) (r % 32) true
          (s.report 1 2 0x0405 r bad).txDiscard i data 0x18
        else if data.length < 60 ∧ bitsOf (leAt sof 10 1) 4 4 = 0 then s.txDiscard i data 0x01
        else if 15996 < data.length then s.txDiscard i data 0x02
        else s.txEnter i sof data idx

def execHostTxFetch (ring : Fin 1024) (s : State) : Host.Outcome State Fault Refusal := answer s (s.txFetch (1024 + ring.val))

/-! ### Receive (R74, R75, R80, R387) -/

/-- A descriptor as the device writes it back: addr preserved, bytes 8 to 29, and their CRC-16. -/
def State.putDesc (s : State) (a : Nat) (mid : List Byte) : State :=
  let b := s.hostRd a 8 ++ slice mid 0 22
  s.hostWr a (b ++ leBytes 2 (crc16 b))

/-- Bytes 8 to 29 of a filled receive descriptor (R74). -/
def rxDesc (f : Frame) (len : Nat) (first last : Bool) : List Byte :=
  let ts := decide (f.src < 64)
  leBytes 2 len ++ leBytes 1 (1 + 2 * b2n first + 4 * b2n last + 8 * b2n ts) ++ leBytes 1 f.domain ++ leBytes 2 f.src ++
  leBytes 1 f.version ++ leBytes 1 (if ts then f.stampTb else 0) ++ leBytes 4 (if ts then f.stampNs else 0) ++
  leBytes 4 (if ts then f.stampSec else 0) ++ leBytes 2 (f.mdGet 0x11) ++ leBytes 4 0

/-- R80 step 2: `n` filled descriptors go back free, and head passes them. -/
def State.giveBack (s : State) (i n : Nat) : State :=
  (forEach (List.range n) s (fun s j => s.putDesc (s.descAddr i j) (leBytes 2 0 ++ [0x11]))).advHead i n

/-- Frame data into the buffers of the ring's next descriptors. -/
def State.fillBufs (s : State) (i : Nat) (data : List Byte) (n : Nat) : State :=
  forEach (List.range n) s (fun s j =>
    s.hostWr (s.hostRd (s.descAddr i j) 8 |> leVal) ((data.drop (j * s.ringBuf i)).take (s.ringBuf i)))

/-- A copy is dropped under 0x1B at port 64, and the ring's drops rises. -/
def State.ringDrop (s : State) (i cid : Nat) : State :=
  (s.winPut (ringA i + 24) 4 (satAdd 32 (s.winLE (ringA i + 24) 4) 1)).dropCopy 1 cid 0x1B

/-- The copy at the head of the line toward receive ring `i` is written, or dropped: 0x1B while the ring takes none, has no
free descriptor or runs dry part way (R80, R81); 0x18 or 0x19 when its chain is broken (R292) or a cell fails (R300, R387). It
waits for the reads of its cells from HBM. `upset`: a cell over which
HIF computes another value than it carries. DESIGN CHOICE: a ring whose buf_size is still 0 (never written, below its range;
the spec gives no behaviour) takes no frame, as one without a free descriptor, but without underrun. -/
def State.rxDeliver (s : State) (i : Nat) (upset : Option (Nat × Word)) : State :=
  match s.onQueue (8192 + i) with
  | [] => s
  | cid :: _ =>
    let c := s.copy cid
    let f := s.frame c.fid
    let free := s.ringFree i
    let size := s.ringBuf i
    if c.done = false then s
    else if s.ringDma i = false ∨ free = 0 ∨ size = 0 then s.ringDrop i cid
    else
      let (whole, s) := s.chainCheck 64 cid
      let s := if whole then s.readCells cid else s
      if whole = false ∨ s.reading cid = true then s
      else
      let body := s.copyBytes c
      let data := if s.ringFlag i 3 then body ++ leBytes 4 (crc32 body) else body
      let fail := s.firstFault upset 0 (s.copyCells c)
      let good := match fail with
        | none => data.length
        | some (j, _) => if j = 0 then 0 else (s.copyBytes c j).length
      let need := (data.length + size - 1) / size
      if need ≤ free ∨ good < free * size then
        match fail with
        | some x =>
          let n := good / size
          (((s.fillBufs i data n).giveBack i n).cellFailed c x).dropCopy 1 cid x.2.1
        | none =>
          let s := s.capOffer 1 64 64 (fun _ => true) (s.copyInfo c 0)
          let s := s.fillBufs i data need
          let len := fun (j : Nat) => min size (data.length - j * size)
          let put := fun (s : State) (j : Nat) =>
            s.putDesc (s.descAddr i j) (rxDesc f (len j) (decide (j = 0)) (decide (j + 1 = need)))
          let s := forEach ((List.range need).drop 1 ++ [0]) s put
          let s := ((s.advHead i need).txCount 64 (body.length + 4) c.head).deliver (txPage 64) c.version
          (((s.takeOff c false).endCopy cid).ringComplete i 1).pmc 1 4 need
      else
        let s := (s.fillBufs i data free).giveBack i free
        let s := (s.setRingFlag i 4 true).setB (hifA (0x100 + 4 * (i / 32))) (i % 32) true
        (s.report 1 1 0x0402 i).ringDrop i cid

def execHostRxDeliver (ring : Fin 1024) (upset : Option (Nat × Word)) (s : State) : Host.Outcome State Fault Refusal :=
  answer s (s.rxDeliver ring.val upset)

end Sys2Proof.Machine
end

