-- ==== Sys2Proof/Machine/TimeGates.lean ====
section
/-! DEFINITION. Commands of the time gates (R351 to R359): commit, cancel, takeover, entry boundaries, disabling, and what a
change of a time base does to the lists. -/

namespace Sys2Proof.Machine

/-- The list that a bank holds for a commit: TGS_BASE_*, TGS_CYCLE, tb, len and the bank's entries (R352). -/
def State.readList (s : State) (p : Nat) : GList :=
  let bank := 1 - s.f (tgsPortA p 0x18) 28 28
  let n := s.f (tgsPortA p 0) 26 16
  let base := (s.f (tgsPortA p 4) 15 0 * 2 ^ 32 + (s.rd (tgsPortA p 8)).toNat) * 1000000000 + s.f (tgsPortA p 0x0C) 29 0
  { base, start := base, cycle := (s.rd (tgsPortA p 0x10)).toNat, tb := s.f (tgsPortA p 0) 2 1, bank,
    entries := (List.range n).map (fun e =>
      let b := s.winRd (gateListA p bank e) 8
      (leAt b 0 4, leAt b 4 1, leAt b 5 1 % 4)) }

/-- R351 order 2: an entry with op 3 or a reserved bit, or no entry with an interval. -/
def State.listBad (s : State) (p : Nat) (g : GList) : Bool :=
  let raw := (List.range g.entries.length).map (fun e => s.winRd (gateListA p g.bank e) 8)
  raw.any (fun b => decide (3 ≤ leAt b 5 1) || decide (leAt b 6 2 ≠ 0)) || g.entries.all (fun e => decide (e.1 = 0))

/-- Capture a late start (1) or a refusal (2 strict, 3 invalid) and report it. -/
def State.listEvent (s : State) (p kind cycles : Nat) : State :=
  let e := p / 16
  let w := 2 ^ 31 + p % 16 * 2 ^ 24 + kind * 2 ^ 16 + min cycles 65535
  let s := s.capture (tgsA e 0x048) w
  if kind = 1 then s.report (tgsPage e) 1 0x5C02 w else s.report (tgsPage e) 2 0x5C03 w

/-- A list whose start lies less than 2 µs ahead: refused under strict, else started late at the first cycle start at least
2 µs ahead (R351 rows 4 and 5). -/
def State.pendLate (s : State) (p : Nat) (g : GList) (now : Nat) : State :=
  if s.b (tgsPortA p 0) 3 then (s.setF (tgsPortA p 0x18) 5 4 2).listEvent p 2 0
  else
    let up := fun (x : Int) => (x + (g.cycle : Int) - 1) / (g.cycle : Int)
    let n := up ((now : Int) + 2000 - g.base)
    let skipped := (n - up ((now : Int) - g.base)).toNat
    let s := s.setPend p { g with start := ((g.base : Int) + n * g.cycle).toNat }
    let s := ((s.setF (tgsPortA p 0x18) 5 4 1).setB (tgsPortA p 0x18) 3 true).bump (tgsA (p / 16) 0x054)
    s.listEvent p 1 skipped

/-- R351: a commit that the register checks have let pass (order 1). -/
def State.commitList (s : State) (p : Nat) : State :=
  let s := (s.setB (tgsPortA p 0) 8 false).setB (tgsPortA p 0x18) 3 false
  let g := s.readList p
  let now := s.nowNs g.tb
  if s.listBad p g then (s.setF (tgsPortA p 0x18) 5 4 3).listEvent p 3 0
  else if now + 2000 ≤ g.base then (s.setPend p g).setF (tgsPortA p 0x18) 5 4 1
  else s.pendLate p g now

def execGclCommit (port : Port) (s : State) : Host.Outcome State Fault Refusal :=
  answer s (s.hostFar (tgsPortA port.val 0) (s.rd (tgsPortA port.val 0) ||| word 256) (fun _ s => s.commitList port.val))

/-- Put the gate and hold states of an entry into force. -/
def State.setGates (s : State) (p entry states : Nat) (hold : Bool) : State :=
  ((s.setF (tgsPortA p 0x18) 15 8 states).setF (tgsPortA p 0x18) 26 16 entry).setB (tgsPortA p 0x18) 2 hold

/-- Gates have changed: selections that they leave ineligible are withdrawn, idle credit goes (R316), a suspended frame may go
on. -/
def State.gatesMoved (s : State) (p : Nat) : State :=
  forEach (List.range 8) ((s.withdrawStale p).resume p) (fun s g => s.idleCredit p g)

/-- R353: the pending list becomes active at entry 0, once its start time has come. -/
def State.takeList (s : State) (p : Nat) : State :=
  let g := s.gPend p
  if g.live = false ∨ s.nowNs g.tb < g.start ∨ s.regionDown 61 = true then s
  else
    let g := { g with seen := ((g.start : Int) - g.base) / g.cycle }
    let s := (s.setAct p g).setPend p {}
    let s := match g.segs with
      | (i, _, _, st, op) :: _ => s.setGates p i st (decide (op = 1))
      | [] => s
    let s := (s.wr (tgsPortA p 0x1C) 1).report (tgsPage (p / 16)) 3 0x5C04 p g.bank
    (s.overrun p).gatesMoved p

def execGclTakeover (port : Port) (s : State) : Host.Outcome State Fault Refusal := answer s (s.takeList port.val)

/-- R352: cancel discards the pending list, unless its start time has come: then it has taken over already. -/
def State.cancelList (s : State) (p : Nat) : State :=
  let s := (s.setB (tgsPortA p 0) 9 false).takeList p
  s.setPend p {}

def execGclCancel (port : Port) (s : State) : Host.Outcome State Fault Refusal :=
  answer s (s.hostFar (tgsPortA port.val 0) (s.rd (tgsPortA port.val 0) ||| word 512) (fun _ s => s.cancelList port.val))

/-- R350, R356: the entry in force at the present time is shown; every op passed on the way to it acts on the hold state. -/
def State.gateBoundary (s : State) (p : Nat) : State :=
  let s := s.takeList p
  match s.gateNow p with
  | none => s
  | some (i, st, hold, n) =>
    let l := s.gAct p
    let c := (s.rd (tgsPortA p 0x1C)).toNat
    let s := (s.setGates p i st hold).setAct p { l with seen := n }
    let s := (s.wr (tgsPortA p 0x1C) (word (satAdd 32 c (n - l.seen).toNat))).pmc (tgsPage (p / 16)) 4
    (s.gateCloses p).gatesMoved p

def execGateEntryBoundary (port : Port) (s : State) : Host.Outcome State Fault Refusal := answer s (s.gateBoundary port.val)

/-- R354: both lists are discarded; the gates take TGS_ADMIN. -/
def State.disableGates (s : State) (p : Nat) : State :=
  let s := (s.setAct p {}).setPend p {}
  ((s.setGates p 0 (s.f (tgsPortA p 0x14) 7 0) false).overrun p).gatesMoved p

def execGateEngineDisable (port : Port) (s : State) : Host.Outcome State Fault Refusal :=
  answer s (s.hostFar (tgsPortA port.val 0) (setBit (s.rd (tgsPortA port.val 0)) 0 false) (fun _ s => s.disableGates port.val))

/-- A write of TGS_ADMIN acts at once while no list is active. -/
def State.adminGates (s : State) (p : Nat) : State :=
  if (s.gAct p).live then s else ((s.setF (tgsPortA p 0x18) 15 8 (s.f (tgsPortA p 0x14) 7 0)).overrun p).gatesMoved p

/-- R355: the lists of a base that has been set or stepped. -/
def State.gatesReposition (s : State) (b : Nat) : State :=
  let s := forEach (s.tgs.pend.filter (fun e => decide (e.2.tb = b))) s (fun s e =>
    let now := s.nowNs b
    if now + 2000 ≤ e.2.start then s else (s.setPend e.1 {}).pendLate e.1 e.2 now)
  forEach (s.tgs.act.filter (fun e => decide (e.2.tb = b))) s (fun s e =>
    let p := e.1
    let l := e.2
    let (n, x) := l.place (s.nowNs b)
    let segs := l.segs.take (l.begun x)
    match segs.getLast? with
    | none => s
    | some (i, _, _, st, _) =>
      (((s.setGates p i st (holdAfter false segs)).setAct p { l with seen := n }).overrun p).gatesMoved p)

end Sys2Proof.Machine
end

