-- ==== Sys2Proof/Machine/Ports.lean ====
section
/-! DEFINITION. Quads, lanes, links and MACs (chapter 4): link start-up, received frames and their checks, late claims (R125),
pause and PFC, preemption verify. -/

namespace Sys2Proof.Machine

/-! ### Lanes and links (R85 to R91) -/

def laneCtlA (q l : Nat) : Nat := sdsA q (0x048 + 4 * l)
def laneStA (q l : Nat) : Nat := sdsA q (0x058 + 4 * l)

/-- The lane whose SDS_LANE_CTL fields govern lane `l`: the lowest of its port (R86). -/
def State.govLane (s : State) (q l : Nat) : Nat :=
  match s.f (sdsA q 0x040) 1 0 with | 1 => l / 2 * 2 | 2 => 0 | _ => l

/-- The lanes that lane `l` governs; none when a lower lane governs it. -/
def State.governed (s : State) (q l : Nat) : List Nat := (List.range 4).filter (fun m => decide (s.govLane q m = l))

/-- Whether a lane is enabled, by the lane that governs it. -/
def State.laneOn (s : State) (q l : Nat) : Bool := s.b (laneCtlA q (s.govLane q l)) 0

/-- The lanes of a carried port. -/
def State.portLanes (s : State) (p : Nat) : List Nat :=
  (List.range (match s.quadMode p with | 1 => 2 | 2 => 4 | _ => 1)).map (fun i => p % 4 + i)

/-- The alignment bit of a multi-lane port in SDS_QUAD_STATUS. -/
def alignBit (p : Nat) : Nat := if p % 4 = 2 then 5 else 4

/-- The conditions of R91 on a port. -/
def State.linkOk (s : State) (p : Nat) : Bool :=
  let q := p / 4
  let c := s.rd (laneCtlA q (p % 4))
  let lanes := s.portLanes p
  s.carried p && s.b (sdsA q 0x044) 0 &&
  lanes.all (fun l => s.laneOn q l && s.b (laneStA q l) 0 && s.b (laneStA q l) 1 && s.b (laneStA q l) 2) &&
  (decide (lanes.length = 1) || s.b (sdsA q 0x044) (alignBit p)) &&
  (decide (fld c 9 8 = 0) || lanes.all (fun l => (s.lane (4 * q + l)).fecLock)) &&
  (!bit c 12 || decide (fld c 6 4 < 2) || lanes.all (fun l => decide (s.f (laneStA q l) 6 4 = 2))) &&
  (!(bit c 13 || bit c 14) || decide (fld c 6 4 ≠ 0) || (s.b (laneStA q (p % 4)) 8 && !(s.lane p).anRefuse)) &&
  decide (s.f (macA p 0x048) 5 4 ≠ 1)

/-- Preemption is active when enabled and verified, or verify is disabled (R105). Verify is initial, no longer disabled, once
enabled. -/
def State.preemptEval (s : State) (p : Nat) : State :=
  let c := s.rd (macA p 0x064)
  let s := if bit c 0 = false ∨ bit c 1 = true then s.setF (macA p 0x068) 2 0 0
    else if s.f (macA p 0x068) 2 0 = 0 then (s.setF (macA p 0x068) 2 0 1).setMac p { s.mac p with verifyTries := 0 }
    else s
  s.setB (macA p 0x068) 4 (bit c 0 && (bit c 1 || decide (s.f (macA p 0x068) 2 0 = 3)))

/-- The verify procedure starts anew (R105). -/
def State.verifyRestart (s : State) (p : Nat) : State :=
  let c := s.rd (macA p 0x064)
  let s := s.setMac p { s.mac p with verifyTries := 0 }
  (s.setF (macA p 0x068) 2 0 (if bit c 0 && !bit c 1 then 1 else 0)).preemptEval p

/-- A link change is shown and reported (R91). -/
def State.linkEvent (s : State) (p : Nat) : State :=
  (s.irq (sdsPage (p / 4)) (p % 4)).report (macPage p) 0 0x4401 (s.rd (macA p 0x048)).toNat

/-- R91: the link conditions have held for 1 ms. -/
def State.linkUp (s : State) (p : Nat) : State :=
  if s.b (macA p 0x048) 0 = true ∨ s.linkOk p = false ∨ s.regionDown (37 + p / 4) = true then s
  else ((s.setB (macA p 0x048) 0 true).verifyRestart p).linkEvent p

def execLinkUp (port : Port) (s : State) : Host.Outcome State Fault Refusal := answer s (s.linkUp port.val)

/-- A link goes down (R91, R100, R322): the copy in progress is dropped under 0x1F, queues are flushed when so set. -/
def State.linkLost (s : State) (p : Nat) : State :=
  if s.b (macA p 0x048) 0 = false then s
  else ((((s.setB (macA p 0x048) 0 false).linkEvent p).abortTx p 0x1F).txBoundary p).flushPort p

/-- A condition of a port fails at lane `l` of its quad: 0 signal, 1 CDR lock, 2 block lock, 3 alignment, 4 FEC lock; signal
carries the locks with it. -/
def State.linkFail (s : State) (p l what : Nat) : State :=
  let q := p / 4
  let a := laneStA q l
  let s := match what with
    | 0 => ((s.setB a 0 false).setB a 1 false).setB a 2 false
    | 1 => (s.setB a 1 false).setB a 2 false
    | 2 => s.setB a 2 false
    | 3 => s.setB (sdsA q 0x044) (alignBit p) false
    | 4 => s.setLane (4 * q + l) { s.lane (4 * q + l) with fecLock := false }
    | _ => s
  s.linkLost p

/-- MAC_STATUS.fault changes: 1 local, 2 remote (R112); a local fault takes the link down. -/
def State.macFault (s : State) (p v : Nat) : State :=
  let old := s.f (macA p 0x048) 5 4
  let s := s.setF (macA p 0x048) 5 4 v
  let s := if old = 0 ∧ v ≠ 0 then s.report (macPage p) 1 0x4402 else s
  if v = 1 then s.linkLost p else s

/-- R91: a condition of a port's link no longer holds; `lost` is the lane of its quad that has lost it and
what it has lost (5: local fault of the MAC). -/
def execLinkDown (port : Port) (lost : Fin 4 × Fin 6) (s : State) : Host.Outcome State Fault Refusal :=
  answer s (if s.carried port.val = false ∨ (s.portLanes port.val).contains lost.1.val = false then s
    else if lost.2.val = 5 then s.macFault port.val 1 else s.linkFail port.val lost.1.val lost.2.val)

def execRemoteFaultReceived (port : Port) (fault : Fin 3) (s : State) : Host.Outcome State Fault Refusal :=
  answer s (if s.carried port.val then s.macFault port.val fault.val else s)

/-- A lane gains signal, CDR lock, block lock, alignment or FEC lock (R91). -/
def State.laneLock (s : State) (q l what : Nat) : State :=
  if s.laneOn q l = false then s
  else
    let a := laneStA q l
    match what with
    | 0 => s.setB a 0 true
    | 1 => (s.setB a 1 true).clocksBack [4 * q + s.govLane q l]
    | 2 => s.setB a 2 true
    | 3 => if s.f (sdsA q 0x040) 1 0 = 0 then s else s.setB (sdsA q 0x044) (alignBit (s.govLane q l)) true
    | _ => s.setLane (4 * q + l) { s.lane (4 * q + l) with fecLock := true }

def execLaneLockAcquired (quad : Quad) (lane : Fin 4) (what : Fin 5) (s : State) : Host.Outcome State Fault Refusal :=
  answer s (s.laneLock quad.val lane.val what.val)

/-- The effect of SDS_LANE_CTL.en as stored (R86, R108): start-up of the lanes it governs begins, or they stop with their
link; on a lane that another governs it is ignored. -/
def State.laneEnable (s : State) (q l : Nat) (was : Bool) : State :=
  let c := s.rd (laneCtlA q l)
  if bit c 0 = was ∨ s.govLane q l ≠ l then s
  else if bit c 0 then
    let train := if bit c 12 = true ∧ 2 ≤ fld c 6 4 then 16 else 0
    let s := s.clocksBack [128 + q, 64 + 4 * q + l]
    forEach (s.governed q l) (s.setB (sdsA q 0x044) 0 true) (fun s m =>
      (s.setLane (4 * q + m) { hadSignal := (s.lane (4 * q + m)).hadSignal }).wr (laneStA q m) (word train))
  else
    let s := forEach (s.governed q l) (s.linkLost (4 * q + l)) (fun s m => (s.wr (laneStA q m) 0).setLane (4 * q + m) {})
    let s := s.setMac (4 * q + l) { s.mac (4 * q + l) with loop := [], far := none }
    if (List.range 4).any (s.laneOn q) then s.setB (sdsA q 0x044) (alignBit l) false else s.wr (sdsA q 0x044) 0

def execLaneEnableChange (quad : Quad) (lane : Fin 4) (en : Bool) (s : State) : Host.Outcome State Fault Refusal :=
  let a := laneCtlA quad.val lane.val
  let was := s.b a 0
  answer s (s.hostFar a (setBit (s.rd a) 0 en) (fun _ s => s.laneEnable quad.val lane.val was))

/-- R85, R87: ports that a mode leaves uncarried lose their enables and their status, and with it their pause timers, their
requests and their verify procedure. A frame in reception still ends. -/
def State.quadModeSet (s : State) (q : Nat) : State :=
  forEach (List.range 4) s (fun s i =>
    let p := 4 * q + i
    if s.carried p then s
    else
      let m := s.mac p
      let s := forEach [0x048, 0x068, 0x078] (s.setF (macA p 0x040) 1 0 0) (fun s o => s.wr (macA p o) 0)
      ((s.setMac p { rx := m.rx, txEn := m.txEn, armed := m.armed }).abortTx p 0x1F).txBoundary p)

def execQuadModeChange (quad : Quad) (mode : Fin 4) (s : State) : Host.Outcome State Fault Refusal :=
  answer s (s.hostFar (sdsA quad.val 0x040) (word mode.val) (fun _ s => s.quadModeSet quad.val))

/-- R90: negotiation completes on a 1.25 Gb/s lane; a partner with only half duplex is refused. -/
def State.autoneg (s : State) (q l speed : Nat) (half : Bool) : State :=
  let c := s.rd (laneCtlA q (s.govLane q l))
  if bit c 0 = false ∨ fld c 6 4 ≠ 0 ∨ (bit c 13 = false ∧ bit c 14 = false) then s
  else if half then s.setLane (4 * q + l) { s.lane (4 * q + l) with anRefuse := true }
  else
    let s := (s.setLane (4 * q + l) { s.lane (4 * q + l) with anRefuse := false }).setB (laneStA q l) 8 true
    if bit c 14 then s.setF (laneStA q l) 13 12 speed else s

def execAutonegComplete (quad : Quad) (lane : Fin 4) (speed : Fin 3) (half : Bool) (s : State) :
    Host.Outcome State Fault Refusal := answer s (s.autoneg quad.val lane.val speed.val half)

/-- R90: training in progress ends as done. -/
def execTrainingDone (quad : Quad) (lane : Fin 4) (s : State) : Host.Outcome State Fault Refusal :=
  let a := laneStA quad.val lane.val
  let i := 4 * quad.val + lane.val
  answer s (if s.f a 6 4 = 1 then (s.setF a 6 4 2).setLane i { s.lane i with trainLogged := false } else s)

/-- R90, R109: it fails at its timeout; the event is logged on the first failure after an enable or a success. -/
def State.trainingFailed (s : State) (q l : Nat) : State :=
  let i := 4 * q + l
  if s.f (laneStA q l) 6 4 ≠ 1 then s
  else
    let said := (s.lane i).trainLogged
    let s := ((s.setF (laneStA q l) 6 4 3).setLane i { s.lane i with trainLogged := true }).irq (sdsPage q) (5 + l)
    if said then s else s.raise (sdsPage q) 0x4003

def execTrainingTimeout (quad : Quad) (lane : Fin 4) (s : State) : Host.Outcome State Fault Refusal :=
  answer s (s.trainingFailed quad.val lane.val)

/-- R90: 100 ms after a failure the lane trains again, while en stays. -/
def execTrainingRestart (quad : Quad) (lane : Fin 4) (s : State) : Host.Outcome State Fault Refusal :=
  let a := laneStA quad.val lane.val
  answer s (if s.laneOn quad.val lane.val = true ∧ s.f a 6 4 = 3 then s.setF a 6 4 1 else s)

/-- R109: a quad PLL loses lock; the links of the quad go down with their clocks. -/
def State.pllLost (s : State) (q : Nat) : State :=
  if s.b (sdsA q 0x044) 0 = false then s
  else
    let s := s.setB (sdsA q 0x044) 0 false
    if (List.range 4).any (s.laneOn q) then
      let s := s.report (sdsPage q) 4 0x4002
      forEach ((List.range 4).filter (s.laneOn q)) s (fun s l => s.linkFail (4 * q + s.govLane q l) l 1)
    else s

def execSerdesPllLockLost (quad : Quad) (s : State) : Host.Outcome State Fault Refusal := answer s (s.pllLost quad.val)

/-! ### Pause and PFC (R101 to R104) -/

/-- MAC_STATUS.pfc_paused: groups of the priorities whose timers run. -/
def State.pfcShow (s : State) (p : Nat) : State :=
  s.setF (macA p 0x048) 15 8 ((s.mac p).pfc.foldl (fun a e => a ||| 2 ^ (e.2 % 8)) 0)

/-- A pause frame with quanta `n` (R102). -/
def State.pauseLoad (s : State) (p n : Nat) : State :=
  ((s.setMac p { s.mac p with pause := n }).setB (macA p 0x048) 1 (decide (n ≠ 0))).withdrawStale p

/-- A PFC frame (R103): each priority selected takes its timer and the gate group MAC_PFC_MAP gives it now. -/
def State.pfcLoad (s : State) (p enable : Nat) (timers : Nat → Nat) : State :=
  let s := forEach ((List.range 8).filter (fun pr => decide (bitsOf enable pr pr = 1))) s (fun s pr =>
    let g := s.f (macA p 0x060) (3 * pr + 2) (3 * pr)
    let m := s.mac p
    s.setMac p { m with pfc := m.pfc.put 0 pr (if timers pr = 0 then 0 else timers pr * 8 + g) })
  (s.pfcShow p).withdrawStale p

/-- Whether a MAC control frame acts (R101). -/
def State.ctrlActs (s : State) (p : Nat) (bs : List Byte) : Bool :=
  let own := s.f (macA p 0x05C) 15 0 * 2 ^ 32 + (s.rd (macA p 0x058)).toNat
  (decide (beAt bs 0 6 = 0x0180C2000001) || decide (beAt bs 0 6 = own)) &&
  ((decide (beAt bs 14 2 = 1) && s.b (macA p 0x054) 0) || (decide (beAt bs 14 2 = 0x0101) && s.b (macA p 0x054) 1))

/-- A MAC control frame that passes R94 is consumed (R101). -/
def State.rxControl (s : State) (p : Nat) (bs : List Byte) : State :=
  let s := s.slot p 0x29
  if s.ctrlActs p bs = false then s
  else
    let s := s.slot p 0x2A
    if beAt bs 14 2 = 1 then s.pauseLoad p (beAt bs 16 2)
    else s.pfcLoad p (beAt bs 16 2) (fun pr => beAt bs (18 + 2 * pr) 2)

/-- Whether frames reach a port's MAC: powered, not in the Lull state, link up, receive enabled. -/
def State.rxOpen (s : State) (p : Nat) : Bool :=
  s.alive && !s.quiesced && s.carried p && s.b (macA p 0x048) 0 && (s.mac p).rxEn && !s.regionDown (37 + p / 4)

/-- Whether a port's receiver hears its partner and not its own transmitter (R108). -/
def State.rxWire (s : State) (p : Nat) : Bool := s.rxOpen p && decide (s.portLoop p ≠ 1)

/-- A whole pause frame that passes the checks of R94. -/
def execPauseFrameReceived (port : Port) (own : Bool) (quanta : BitVec 16) (s : State) : Host.Outcome State Fault Refusal :=
  let da := if own then beBytes 2 (s.f (macA port.val 0x05C) 15 0) ++ beBytes 4 (s.rd (macA port.val 0x058)).toNat
    else beBytes 6 0x0180C2000001
  answer s (if s.rxWire port.val then
    s.rxControl port.val (da ++ List.replicate 6 0 ++ beBytes 2 0x8808 ++ beBytes 2 1 ++ beBytes 2 quanta.toNat) else s)

/-- A whole PFC frame that passes the checks of R94. -/
def execPfcFrameReceived (port : Port) (enable : BitVec 8) (timers : List (BitVec 16)) (s : State) :
    Host.Outcome State Fault Refusal :=
  answer s (if s.rxWire port.val then
    s.rxControl port.val (beBytes 6 0x0180C2000001 ++ List.replicate 6 0 ++ beBytes 2 0x8808 ++ beBytes 2 0x0101 ++
      beBytes 2 enable.toNat ++ timers.flatMap (fun t => beBytes 2 t.toNat)) else s)

def execPauseTimerExpire (port : Port) (s : State) : Host.Outcome State Fault Refusal := answer s (s.pauseLoad port.val 0)

def execPfcTimerExpire (port : Port) (prio : Fin 8) (s : State) : Host.Outcome State Fault Refusal :=
  let m := s.mac port.val
  answer s ((s.setMac port.val { m with pfc := m.pfc.put 0 prio.val 0 }).pfcShow port.val)

/-- R104: the oldest request goes out at a frame or fragment boundary. DESIGN CHOICE: also while the port is paused, since R104
gives no exception and R102 stops what TMG selects. -/
def State.ctrlSend (s : State) (p : Nat) : State :=
  match (s.mac p).ctlOut with
  | [] => s
  | f :: rest =>
    let send := fun (s : State) => ((s.setMac p { s.mac p with ctlOut := rest }).sendWire p (.macControl p f)).slot p 0x31
    if s.portDown p then s
    else match s.tx p with
      | none => send s
      | some _ => (match s.preempt p with | some s => send s | none => s)

def execPauseFrameSend (port : Port) (s : State) : Host.Outcome State Fault Refusal := answer s (s.ctrlSend port.val)

/-! ### Preemption verify (R105) -/

def execPreemptVerifySend (port : Port) (s : State) : Host.Outcome State Fault Refusal :=
  let p := port.val
  let m := s.mac p
  let v := s.f (macA p 0x068) 2 0
  answer s (if s.b (macA p 0x048) 0 = true ∧ s.b (macA p 0x064) 0 = true ∧ s.b (macA p 0x064) 1 = false ∧
      (v = 1 ∨ v = 2) ∧ m.verifyTries < 3 then
    ((s.setMac p { m with verifyTries := m.verifyTries + 1 }).setF (macA p 0x068) 2 0 2).sendWire p (.mPacket p false) else s)

def execPreemptVerifyResponse (port : Port) (s : State) : Host.Outcome State Fault Refusal :=
  let p := port.val
  answer s (if s.f (macA p 0x068) 2 0 = 2 then (s.setF (macA p 0x068) 2 0 3).preemptEval p else s)

def execPreemptVerifyTimeout (port : Port) (s : State) : Host.Outcome State Fault Refusal :=
  let p := port.val
  answer s (if s.f (macA p 0x068) 2 0 = 2 ∧ (s.mac p).verifyTries = 3 then
    (s.setF (macA p 0x068) 2 0 4).report (macPage p) 2 0x4403 else s)

/-! ### Received frames (R92 to R95) -/

/-- A frame boundary of the receive MAC: MAC_CTL.rx_en comes into effect. -/
def State.rxBoundary (s : State) (p : Nat) : State :=
  let m := s.mac p
  if m.rx.isSome then s else s.setMac p { m with rxEn := s.b (macA p 0x040) 0 }

/-- A frame counts as begun (R409, R389 account 1). -/
def State.rxBegun (s : State) (p : Nat) : State := ((s.slot p 0x23).led (macPage p) 1 p 0).pmc (macPage p) 4

/-- A new frame in staging. -/
def State.newRx (s : State) (p : Nat) (r : RxFrame) : Nat × State :=
  let (b, e, sec, ns, frac) := r.stamp
  let f : Frame := { id := s.nextId, after := r.after, src := p, inPort := p, grp := p / 16, place := .staged, ord := s.nextId,
                     clearReq := fld r.msc 31 16, stampTb := b, stampEp := e, stampSec := sec, stampNs := ns, stampFrac := frac }
  (f.id, { s.setFrame f with nextId := s.nextId + 1 })

/-- The word of MSC_PORT_CFG for a port. -/
def State.mscPort (s : State) (p : Nat) : Word := s.rd (mscA (p / 4) (0x060 + 4 * (p % 4)))

/-- Whether a frame is held at the MAC until its end: a MAC control frame, or any frame under a port word with MACsec enabled. -/
def heldAtMac (cfg : Word) (bs : List Byte) : Bool := decide (beAt bs 12 2 = 0x8808) || bit cfg 0

/-- The reason for a full FIFO (R95): 0x20 when the debug port has halted the port's pipeline while the frame arrived. -/
def RxFrame.fullReason (r : RxFrame) : Nat := if r.full ≠ 0 then r.full else if r.halt then 0x20 else 0x05

/-- R92: a frame begins; its bytes pass to the core from byte 64 on. `loop`: the rest of it when it is one that the port has
sent itself. -/
def State.rxBegin (s : State) (p : Nat) (bs : List Byte) (loop : Option (List Byte)) : State :=
  if s.rxOpen p = false then s
  else
    let b := s.portTb p
    let t := s.stamp b (s.rxAdj p)
    let r : RxFrame := { bytes := bs, after := s.frontMark (macPage p), msc := s.mscPort p, halt := s.halted (s.pipeOf p), stamp := (b, t.epoch, t.sec, t.ns, t.frac), loop }
    let r := { r with begun := decide (14 ≤ bs.length) && decide (beAt bs 12 2 ≠ 0x8808) }
    let s := if r.begun then s.rxBegun p else s
    if bs.length < 64 ∨ heldAtMac r.msc bs = true then s.setMac p { s.mac p with rx := some r }
    else if s.stageFits (p / 16) 0 bs.length = false then s.setMac p { s.mac p with rx := some { r with full := r.fullReason } }
    else
      let (fid, s) := s.newRx p r
      (s.setMac p { s.mac p with rx := some { r with fid := some fid } }).stageBytes fid bs

/-- A frame begins at a port's receiver (R108): in near-end loop it is the oldest frame the port has sent, cut where the
sender of the command cuts; in far-end loop it is also being sent back. -/
def State.rxStart (s : State) (p : Nat) (bs : List Byte) : State :=
  if (s.mac p).rx.isSome then s
  else
    match s.portLoop p with
    | 1 =>
      match (s.mac p).loop with
      | [] => s
      | f :: rest => (s.setMac p { s.mac p with loop := rest }).rxBegin p (f.take bs.length) (some (f.drop bs.length))
    | 2 => (s.setMac p { s.mac p with far := some bs }).rxBegin p bs none
    | _ => s.rxBegin p bs none

def execRxFrameStart (port : Port) (bytes : List Byte) (s : State) : Host.Outcome State Fault Refusal :=
  answer s (s.rxStart port.val bytes)

/-- A frame in reception is dropped under the reason the MAC records; one that the core has already dropped, at ingress or in
every group it goes to, is not counted again (R12). -/
def State.rxDrop (s : State) (p : Nat) (r : RxFrame) (reason : Nat) : State :=
  let s := if r.begun then s else s.rxBegun p
  match r.fid with
  | none => (s.countDrop (macPage p) p reason).led (macPage p) 1 p 2
  | some fid =>
    let f := s.frame fid
    if f.place = .gone ∨ f.verdict ≠ 0 then s
    else if s.allEnded f then s.setVerdict fid reason
    else s.dropFrame (macPage p) fid reason

/-- R93: byte MAC_MAX_LEN + 1 arrives; `codeErr`: the frame holds a code error, which comes first in R94. -/
def State.rxOversize (s : State) (p : Nat) (codeErr : Bool) : State :=
  match (s.mac p).rx with
  | none => s
  | some r =>
    if r.stopped then s
    else
      let reason := if codeErr then 0x04 else if r.full ≠ 0 then r.full else 0x02
      let s := s.setMac p { s.mac p with rx := some { r with stopped := true, begun := true } }
      s.rxDrop p r reason

def execRxOversize (port : Port) (codeErr : Bool) (s : State) : Host.Outcome State Fault Refusal :=
  answer s (s.rxOversize port.val codeErr)

/-- The frame passes every check: its rest enters the core and it is whole. -/
def State.rxPass (s : State) (p : Nat) (r : RxFrame) (all rest : List Byte) (owner : Option Nat) (sec : Nat) (reasm : Bool) : State :=
  let s := if reasm then s.slot p 0x2B else s
  let (fid, s, more) := match r.fid with
    | some fid => (fid, s, rest)
    | none => let (fid, s) := s.newRx p r; (fid, s, all)
  let f := s.frame fid
  let s := if f.place = .gone ∨ f.verdict ≠ 0 then s else s.stageBytes fid more
  let f := s.frame fid
  let s := s.setFrame { f with complete := true, wireLen := all.length, secLen := sec, scOwner := owner,
                               clearReq := if owner.isSome then 0 else f.clearReq }
  (s.rxCount fid).gcFrame fid

/-- A frame of which the MAC discards the rest ends: it counts as received when a parser had admitted it (R406, R409). -/
def State.rxCutShort (s : State) (p : Nat) (r : RxFrame) (all : List Byte) : State :=
  match r.fid with
  | none => s
  | some fid => if (s.frame fid).admitted then s.rxSlots p all.length all else s

/-- Forget a frame that the MAC has dropped, once it has ended; its late claims are not evaluated (R125). -/
def State.rxForget (s : State) (r : RxFrame) : State :=
  match r.fid with
  | none => s
  | some fid => (s.setFrame { s.frame fid with late := [] }).gcFrame fid

/-- The last bytes of a frame that is about to be dropped at its end have entered staging, where they fit; its length is
known (R367, R370). -/
def State.rxTail (s : State) (p : Nat) (r : RxFrame) (all : List Byte) (reason : Nat) : State :=
  match r.fid with
  | none => s
  | some fid =>
    let f := s.frame fid
    let rest := all.drop r.bytes.length
    if f.place = .gone ∨ f.place = .sent ∨ f.verdict ≠ 0 then s
    else
      let s := if reason = 0x05 ∨ reason = 0x20 ∨ s.stageFits (p / 16) r.bytes.length rest.length = false then s
        else s.stageBytes fid rest
      s.setFrame { s.frame fid with complete := true, wireLen := all.length }

/-- The MAC drops a frame at its end. -/
def State.rxLose (s : State) (p : Nat) (r : RxFrame) (all : List Byte) (reason : Nat) : State :=
  (((s.rxCutShort p r all).rxTail p r all reason).rxDrop p r reason).rxForget r

/-- R94: the end of a frame, with its last bytes. `full`: a beat found the synchronizer FIFO full; `reasm`: 1 reassembled
from fragments, 2 with a bad mCRC, count or start (R105). -/
def State.rxEnd (s : State) (p : Nat) (rest : List Byte) (codeErr full : Bool) (reasm : Nat) : State :=
  match (s.mac p).rx with
  | none => s
  | some r =>
    let rest := r.loop.getD rest
    let all := r.bytes ++ rest
    let n := all.length
    let s0 := s.setMac p { s.mac p with rx := none }
    let fits : Bool := match r.fid with
      | some fid =>
        let f := s.frame fid
        decide (f.place = .gone) || decide (f.verdict ≠ 0) || s.stageFits (p / 16) r.bytes.length rest.length
      | none => decide (beAt all 12 2 = 0x8808) || s.stageFits (p / 16) 0 n
    let s1 :=
      if r.stopped then (s0.rxCutShort p r all).rxForget r
      else if codeErr then s0.rxLose p r all 0x04
      else if n < 64 then s0.rxLose p r all 0x01
      else if full = true ∨ r.full ≠ 0 ∨ fits = false then s0.rxLose p r all r.fullReason
      else if s.f (macA p 0x044) 13 0 < n then s0.rxLose p r all 0x02
      else if reasm = 2 ∨ leVal (all.drop (n - 4)) ≠ crc32 (all.take (n - 4)) then s0.rxLose p r all 0x03
      else
        let reas := decide (reasm = 1)
        if beAt all 12 2 = 0x8808 then s0.rxControl p all
        else if heldAtMac r.msc all then
          match s0.mscReceive p r.msc (all.take (n - 4)) with
          | (.drop, s) => s.rxDrop p r 0x17
          | (.pass bs owner, s) =>
            let s := if r.begun then s else s.rxBegun p
            let whole := if owner.isSome then bs ++ leBytes 4 (crc32 bs) else all
            s.rxPass p r whole [] owner (n - whole.length) reas
        else
          let s := if r.begun then s0 else s0.rxBegun p
          s.rxPass p r all rest none 0 reas
    s1.rxBoundary p

/-- Codewords that the FEC decoders of a port's lanes, lowest lane first, have corrected and failed to correct since the last
frame ended there (R89, R108). -/
def State.fecCount (s : State) (p : Nat) (fec : List (Nat × Nat)) : State :=
  let q := p / 4
  if s.carried p = false ∨ s.f (laneCtlA q (p % 4)) 9 8 = 0 then s
  else forEach ((s.portLanes p).zip fec) s (fun s e =>
    if s.laneOn q e.1 then ((s.addCnt (sdsA q (0x078 + 4 * e.1)) e.2.1).addCnt (sdsA q (0x088 + 4 * e.1)) e.2.2).pmc (sdsPage q) 7 e.2.1
    else s)

/-- In far-end loop the frame that ends has been sent back (R108). -/
def State.farEnd (s : State) (p : Nat) (rest : List Byte) : State :=
  match (s.mac p).far with
  | none => s
  | some bs => (s.setMac p { s.mac p with far := none }).emit (.frame p (bs ++ rest) false)

/-- `codes`: whether a code error was found, and the lanes' codewords counted since the frame before (R89). -/
def execRxFrameEnd (port : Port) (rest : List Byte) (codes : Bool × List (Nat × Nat)) (full : Bool) (reasm : Fin 3) (s : State) :
    Host.Outcome State Fault Refusal :=
  answer s (((s.fecCount port.val codes.2).farEnd port.val rest).rxEnd port.val rest codes.1 full reasm.val)

/-- R111: a change of MAC_CTL.rx_en acts at the next frame boundary. -/
def execMacRxEnableChange (port : Port) (en : Bool) (s : State) : Host.Outcome State Fault Refusal :=
  let a := macA port.val 0x040
  answer s (s.hostFar a (setBit (s.rd a) 0 en) (fun _ s => s.rxBoundary port.val))

/-- R100: a clear of tx_en acts at the next frame boundary. -/
def execMacTxDisable (port : Port) (s : State) : Host.Outcome State Fault Refusal :=
  let a := macA port.val 0x040
  answer s (s.hostFar a (setBit (s.rd a) 1 false) (fun _ s => s.txBoundary port.val))

/-! ### Late claims (R125) -/

/-- The late claims of a whole frame are compared with the bytes present, in parse order; the first that fails is recorded,
and drops a tenant's frame under 0x07 unless it has been dropped already (R12). -/
def State.lateCheck (s : State) (k : Nat) : State :=
  match s.frames.find? (fun e => decide (e.2.pipe = k) && e.2.complete && !e.2.late.isEmpty) with
  | none => s
  | some e =>
    let f := e.2
    let s := s.setFrame { f with late := [] }
    match f.late.find? (fun l => decide (f.wireLen - 4 < l.claim)) with
    | none => s.gcFrame f.id
    | some l =>
      let s := (s.bump (prsA k 0x054)).malCapture k f true l.kind 0x07 l.node l.start l.claim
      if f.domain = 0 ∨ f.place = .gone ∨ f.verdict ≠ 0 then s.gcFrame f.id
      else if s.allEnded f then s.setVerdict f.id 0x07
      else s.dropFrame (prsPage k) f.id 0x07

def execLateClaimCheck (pipe : Group) (s : State) : Host.Outcome State Fault Refusal := answer s (s.lateCheck pipe.val)

end Sys2Proof.Machine
end

