-- ==== Sys2Proof/Machine/Spares.lean ====
section
/-! DEFINITION. Containment and repairs (chapter 21): what the isolation of each region destroys (R488 to R490), declarations
(R487), and the repair queue's commands, starts and completions (R491 to R499). -/

namespace Sys2Proof.Machine

/-! ### Isolation (R488 to R490) -/

/-- Frames for which a test holds, oldest first. -/
def State.framesWhere (s : State) (p : Frame → Bool) : List Nat := (s.frames.filter (fun e => p e.2)).map (fun e => e.1)

/-- The numbers of source k that group e has not passed out. -/
def State.openNumbers (s : State) (e k : Nat) : List Nat :=
  let next := s.rsqNext e k
  (List.range ((s.seqNext k e + 2 ^ 20 - next) % 2 ^ 20)).map (fun i => (next + i) % 2 ^ 20)

/-- Frames with a number toward group e not yet passed out. -/
def State.openFrames (s : State) (e : Nat) : List Nat :=
  (s.glf.unacked.filter (fun c => c.wait.any (fun w => decide (w.1 = e) && (s.openNumbers e c.k).contains w.2))).map (fun c => c.fid) ++
  (s.rsq.held.filter (fun c => decide (c.e = e))).map (fun c => c.fid)

/-- A frame whose cells have all been sent is dropped: it counts once at a port, and its shares end uncounted. -/
def State.markAt (s : State) (page port fid r : Nat) : State :=
  let f := s.frame fid
  if f.verdict ≠ 0 then s
  else ((s.countDrop page port r).capDrop port (f.info r)).setFrame { f with verdict := r }

def State.markLost (s : State) (page fid : Nat) : State := s.markAt page (s.frame fid).src fid 0x1A

/-- A frame ends wherever it is: it counts once at a port, and what it has in every group ends with it. -/
def State.endFrame (s : State) (page port i r : Nat) : State :=
  let s := if (s.frame i).place = .sent then s.markAt page port i r else s.dropFrameAt page port i r
  let s := forEach (List.range 5) s (fun s e =>
    if (s.eframe e i).isSome ∨ (s.openFrames e).contains i = true ∨ s.copies.any (fun c => decide (c.2.fid = i ∧ c.2.e = e)) = true
    then s.verdictEnd e i else s)
  s.gcFrame i

/-- A pipeline is lost: the frames in its stages. -/
def State.losePipeline (s : State) (k : Nat) : State :=
  let s := (s.setB (pipA k 0x040) 1 true).setB (pipA k 0x040) 0 false
  forEach (s.framesWhere (fun f => decide (f.pipe = k) && (match f.place with | .stage _ => true | _ => false))) s
    (fun s i => s.dropFrame (pipPage k) i 0x1A)

/-- The rest of a frame, part of which has been sent to group `e`, will never be: what it has there ends, cells of it that are
still held being discarded as they come out. -/
def State.cutShare (s : State) (e fid : Nat) : State :=
  let held := s.rsq.held.any (fun c => decide (c.e = e ∧ c.fid = fid))
  let s :=
    if (s.frame fid).sentN = 0 ∨ s.rsq.dead.contains (e, fid) = true ∨ ((s.eframe e fid).isNone ∧ held = false) then s
    else (s.verdictEnd e fid).markDead e fid
  if held then s else { s with rsq := { s.rsq with dead := s.rsq.dead.filter (fun x => decide (x ≠ (e, fid))) } }

/-- A staging is lost: every frame with cells in it, each outstanding number of its source, and what it still held. -/
def State.loseStaging (s : State) (k : Nat) : State :=
  let s := forEach (s.framesWhere (fun f => decide (f.grp = k ∧ f.place ≠ .gone ∧ f.place ≠ .sent ∧ f.place ≠ .receiving))) s
    (fun s i => s.dropFrame 15 i 0x1A)
  let s := forEach (List.range 5) s (fun s e =>
    let open_ := s.openNumbers e k
    let lost := open_.filter (fun n => !s.isHeld e k n && !s.isLost e k n)
    let fids := (lost.filterMap (fun n => s.sentCell k e n)).map (fun c => c.fid)
    let s := forEach fids.eraseDups s (fun s i => s.markLost 15 i)
    if open_.isEmpty then s else s.loseRun e k 0x1A open_ lost)
  let gone := s.glf.unacked.filter (fun c => decide (c.k = k))
  let s := { s with glf := { s.glf with unacked := s.glf.unacked.filter (fun c => decide (c.k ≠ k)),
                                        flights := s.glf.flights.filter (fun c => decide (c.k ≠ k)),
                                        acks := s.glf.acks.filter (fun a => decide (a.1 ≠ k)) } }
  let s := forEach gone (s.setUnacked k 0) (fun s c =>
    let f := s.frame c.fid
    ((s.setFrame { f with stg := f.stg - 1 }).stageSub k 1 2).gcFrame c.fid)
  forEach (s.framesWhere (fun f => decide (f.grp = k ∧ 0 < f.stg))) s (fun s i =>
    let s := forEach (maskGroups (s.frame i).groups) s (fun s e => s.cutShare e i)
    let s := (s.releaseStage i).unqueue i
    (s.setFrame { s.frame i with place := .gone }).gcFrame i)

/-- A policing group is lost: the frames in it. -/
def State.losePol (s : State) (k : Nat) : State :=
  forEach (s.framesWhere (fun f => decide (f.grp = k ∧ f.place = .police))) s (fun s i => s.dropFrame (polPage k) i 0x1A)

/-- A resequencer or egress edit is lost: the frames and shares in it and on their way to it; stagings treat every cell toward
it as acknowledged. -/
def State.loseEgress (s : State) (e : Nat) : State :=
  let fids := ((s.eframes.filter (fun x => decide (x.e = e))).map (fun x => x.fid) ++ s.openFrames e).eraseDups
  let s := forEach fids s (fun s i => if s.rsq.dead.contains (e, i) then s else s.dropShare (rsqPage e) e i 0x1A)
  let s := forEach (List.range 5) s (fun s k =>
    let open_ := s.openNumbers e k
    let s := forEach open_ s (fun s n => 
      let page := if s.pastFront e k n then polPage k else rsqPage e
      let s := if s.isLost e k n then s else (s.led page 5 (k * 5 + e) 2).returnCredit page k e n
      s.ackCell k e n)
    if open_.isEmpty then s else s.setF (rsqA e (0x050 + 4 * k)) 19 0 (s.seqNext k e))
  let s := { s with rsq := { s.rsq with held := s.rsq.held.filter (fun c => decide (c.e ≠ e)),
                                        dead := s.rsq.dead.filter (fun x => decide (x.1 ≠ e)),
                                        lost := s.rsq.lost.filter (fun x => decide (x.e ≠ e)) },
                    glf := { s.glf with flights := s.glf.flights.filter (fun c => decide (c.e ≠ e)),
                                        acks := s.glf.acks.filter (fun a => decide (a.2.1 ≠ e)) } }
  let s := forEach fids s (fun s i => s.gcFrame i)
  forEach (List.range 5) s (fun s k => s.rsqShow e k)

/-- The copies queued at a port are dropped under 0x1A. -/
def State.loseQueues (s : State) (page p : Nat) : State :=
  let ids := (s.busyQueues p).flatMap s.onQueue
  let s := (s.withdraw p true).withdraw p false
  forEach ids s (fun s i => s.dropCopy page i 0x1A)

/-- Every frame in the device is dropped at its ingress port: a device-critical loss (R490). -/
def State.loseAll (s : State) : State :=
  forEach (s.framesWhere (fun f => decide (f.place ≠ .gone ∧ f.place ≠ .receiving))) s (fun s i => s.endFrame sprPage (s.frame i).src i 0x1A)

/-- The gates of every port with a list go by TGS_ADMIN now (region 61). -/
def State.loseTime (s : State) : State :=
  forEach ((s.tgs.act.filter (fun e => e.2.live)).map (fun e => e.1)) s (fun s p => (s.overrun p).gatesMoved p)

/-- An HBM slot declared otherwise than by its controller is isolated as a frozen one. -/
def State.loseSlot (s : State) (u : Nat) : State :=
  if s.slotFrozen u then s
  else ((s.setB (hbcA (u / 32) 0x068) (u % 32) true).discardQueue u).slotDrained u

/-- What the isolation of region `r` does at once. -/
def State.isolate (s : State) (r : Nat) : State :=
  if r < 5 then s.losePipeline r
  else if r < 10 then s.loseStaging (r - 5)
  else if r < 15 then s.losePol (r - 10)
  else if r < 20 then s.planeFault (r - 15) 3 7 7
  else if r < 30 then s.loseEgress ((r - 20) % 5)
  else if r = 30 ∨ r = 35 ∨ r = 36 then s.loseAll
  else if r < 37 then s
  else if r < 53 then forEach (List.range 4) s (fun s i => s.linkLost (4 * (r - 37) + i))
  else if r < 58 then
    let e := r - 53
    forEach (if e < 4 then (List.range 16).map (fun i => 16 * e + i) else [65, 66, 67]) s (fun s p => s.loseQueues (tmgPage e) p)
  else if r = 58 then s.stopHostDma
  else if r = 59 then s.loseQueues 11 67
  else if r = 61 then s.loseTime
  else if 64 ≤ r then s.loseSlot (r - 64)
  else s

/-- SPR declares a region faulty (R487): a lost pipeline is covered when it can be (R155), the region is recorded and
isolated. -/
def State.declareFault (s : State) (r cause where_ row : Nat) : State :=
  if s.declareOk r cause = false then s
  else
    let s := if r < 4 ∧ s.canCover r = true then s.startTakeover r false else s
    (s.declareRec r cause where_ row).isolate r

/-! ### Rows that declare -/

/-- Whether a region runs, so that it can stall or lose its clock. -/
def State.regionRuns (s : State) (r : Nat) : Bool :=
  s.pmu.por && s.regionExists r && decide (s.region r = 0 ∨ s.region r = 3 ∨ s.region r = 4)

/-- R487 cause 1: a handshake of the region has not completed within SPR_CTL.stall, at a stage or crossing. -/
def execRegionStallTimeout (region : Fin 128) (at_ : BitVec 8) (s : State) : Host.Outcome State Fault Refusal :=
  answer s (if s.regionRuns region.val && !(decide (region.val < 5) && s.halted region.val) then
    s.declareFault region.val 1 at_.toNat 0 else s)

/-- The regions that a clocked domain belongs to (R39, R486). -/
def State.domRegions (s : State) (n : Nat) : List Nat :=
  let slots := fun (t : Nat) (p : Nat → Bool) =>
    ((List.range 32).filter (fun u => s.pcValid t u && p (s.pcPhys t u))).map (fun u => 64 + 32 * t + u)
  if n < 64 then [37 + n / 4]
  else if n < 128 then [37 + (n - 64) / 4]
  else if n < 144 then [37 + (n - 128)]
  else if n < 160 then [37 + (n - 144)]
  else if n < 192 then slots ((n - 160) / 16) (fun pc => decide (pc / 2 = (n - 160) % 16))
  else if n < 194 then slots (n - 192) (fun _ => true)
  else if n < 196 then [58]
  else if n < 201 ∨ n = 207 then [61]
  else if n = 205 then [60]
  else []

/-- R487 cause 2: a domain's loss bit has stayed set for 1 ms. -/
def execClockLossHeld (domain : Fin 212) (s : State) : Host.Outcome State Fault Refusal :=
  let n := domain.val
  answer s (if s.b (clkA (0x220 + 4 * (n / 32))) (n % 32) then
    forEach (s.domRegions n) s (fun s r => if s.regionRuns r then s.declareFault r 2 0 0 else s) else s)

/-- R248: ack_to has passed since the cell numbered `seq` toward e was last sent under this rule. The first time it is resent
on the next active slot, in addition to a resend it may still await under R247; the second time region 36 is reported. -/
def State.ackTimeout (s : State) (k e seq : Nat) : State :=
  match s.glf.unacked.find? (fun c => decide (c.k = k) && c.wait.contains (e, seq)) with
  | none => s
  | some c =>
    if c.resends = 0 then
      let put := fun (s : State) (c' : SentCell) =>
        { s with glf := { s.glf with unacked := replFirst (fun x => decide (x = c)) (fun _ => c') s.glf.unacked } }
      let s := match s.slotFrom (c.slot + 1) with
        | some j =>
          let c' := { c with slot := j, plane := s.slotPlane j, resends := 1 }
          (put s c').fly c' true
        | none => put s { c with again := some (c.again == some true), resends := 1 }
      s.planeErr c.plane k e
    else if c.resends = 1 then
      let l := replFirst (fun x => decide (x = c)) (fun x => { x with resends := 2 }) s.glf.unacked
      let s := { s with glf := { s.glf with unacked := l } }
      let s := s.report 15 5 0x3C06
      s.declareFault 36 4 0 0
    else s

def execAckTimeoutResend (staging group : Group) (seq : BitVec 20) (s : State) : Host.Outcome State Fault Refusal :=
  answer s (s.ackTimeout staging.val group.val seq.toNat)

/-- A meter's word reads uncorrectable (R499): its buckets go to 0, the tokens lost counting as cut, and its row is to be
remapped; once its macro has no spare row left, region 35 is declared under cause 3. -/
def State.meterBad (s : State) (k m : Nat) : State :=
  let row := Config.sramRow 35 (8192 * k + m)
  let s := (s.led (polPage k) 9 (meterInst k 0) 2 (s.tc k m)).led (polPage k) 9 (meterInst k 1) 2 (s.tp k m)
  let s := s.setBuckets k m 0 0
  if s.spr.rows.at 0 (fld row 31 12) = 8 then s.declareFault 35 3 0 (fld row 11 0) else s.request 4 35 row.toNat

/-- A meter's refill falls due; `meter.2`: its word reads uncorrectable. -/
def execMeterRefill (pol : Group) (meter : Fin 8192 × Bool) (s : State) : Host.Outcome State Fault Refusal :=
  let m := meter.1.val
  answer s ((if meter.2 = true ∧ m < meterCount pol.val then s.meterBad pol.val m else s).meterRefill pol.val m)

/-! ### SPR_CMD (R503) -/

def State.sprCmd (s : State) (op r : Nat) (f : State → State) : State :=
  s.hostWriteWith (sprA 0x04C) (word (r * 256 + op)) true (fun _ s => f s)

def execSprCmdDeclare (region : Fin 128) (s : State) : Host.Outcome State Fault Refusal :=
  answer s (s.sprCmd 1 region.val (fun s => s.declareFault region.val 5 0 0))

/-- Op 2: a region test, or the plane test of a plane. -/
def State.askTest (s : State) (r : Nat) : State := s.request (if 15 ≤ r ∧ r < 20 then 1 else 0) r 0

def execSprCmdTest (region : Fin 128) (s : State) : Host.Outcome State Fault Refusal :=
  answer s (s.sprCmd 2 region.val (fun s => s.askTest region.val))

/-- The head request is approved. -/
def State.approveHead (s : State) : State :=
  match s.spr.queue with
  | [] => s
  | r :: rest => { s with spr := { s.spr with queue := { r with ok := true } :: rest } }.showHead 0

def execSprCmdApprove (s : State) : Host.Outcome State Fault Refusal := answer s (s.sprCmd 3 0 State.approveHead)

def execSprCmdDeny (s : State) : Host.Outcome State Fault Refusal :=
  answer s (s.sprCmd 4 0 (fun s => (s.refuseRepair 1).popRepair))

def execSprCmdRetire (slot : Fin 64) (s : State) : Host.Outcome State Fault Refusal :=
  answer s (s.sprCmd 5 (64 + slot.val) (fun s => s.request 7 (64 + slot.val) slot.val))

/-- Whether the head request awaits approval. -/
def State.headAsks (s : State) : Bool := s.b (sprA 0x050) 31 && decide (s.f (sprA 0x050) 30 28 = 1)

/-- R492: SPR_CTL.approve has passed without an answer. -/
def execApprovalTimeout (s : State) : Host.Outcome State Fault Refusal :=
  answer s (if s.headAsks then ((s.bump (sprA 0x06C)).refuseRepair 1).popRepair else s)

/-! ### Repairs (R491 to R499) -/

/-- The value that at least three of the other four copies of a bank word hold. -/
def State.otherMajority (s : State) (c bank w : Nat) : Option (List Byte) :=
  let ws := ((List.range 5).filter (fun d => decide (d ≠ c) && !s.unreadable d (bank * 131072 + w * 128))).map (fun d => s.bankRd d (bank * 131072 + w * 128) 128)
  ws.find? (fun v => decide (3 ≤ (ws.filter (fun x => decide (x = v))).length))

/-- The warden's finding on kind 3 (R493): every word written equals the majority of the other four copies. -/
def State.remapAllowed (s : State) (c bank : Nat) : Bool := (List.range 1024).all (fun w => (s.otherMajority c bank w).isSome)

/-- Spare physical banks 96 to 99 of a copy: the lowest not yet used. -/
def State.spareBankOf (s : State) (c : Nat) : Option Nat :=
  (List.range 4).find? (fun i => decide (bitsOf (s.spr.spareBank.at 0 c) i i = 0))

/-- R498: the bank's words go from the majority into the spare, and the map of copy c takes it. -/
def State.remapBank (s : State) (c bank : Nat) : State :=
  match s.spareBankOf c with
  | none => s
  | some i =>
    let words := (List.range 1024).map (fun w => (s.otherMajority c bank w).getD [])
    let s := s.setF (tblA (0x400 + 96 * c + 4 * (bank / 4))) (8 * (bank % 4) + 6) (8 * (bank % 4)) (96 + i)
    let s := { s with spr := { s.spr with spareBank := s.spr.spareBank.upd 0 c (fun m => m + 2 ^ i) } }
    let s := s.setF (sprA 0x0C0) (4 * c + 10) (4 * c + 8) (s.f (sprA 0x0C0) (4 * c + 10) (4 * c + 8) - 1)
    forEach ((List.range 1024).zip words) (s.bump (sprA 0x074)) (fun s e => s.bankWr c (bank * 131072 + e.1 * 128) e.2)

/-- R499: a row of a macro moves to one of its 8 spare rows. -/
def State.remapRow (s : State) (m : Nat) : State :=
  let n := s.spr.rows.at 0 m + 1
  let s := { s with spr := { s.spr with rows := s.spr.rows.put 0 m n } }
  let s := (s.bump (sprA 0x070)).bumpF (sprA 0x0C4) 31 16
  if n = 8 then (s.bumpF (sprA 0x0C4) 15 0).sparesOut else s

/-- The head leaves the queue refused for a reason. -/
def State.headRefused (s : State) (reason : Nat) : State := (s.refuseRepair reason).popRepair
def State.headDone (s : State) : State := s.repaired.popRepair

/-- SPR starts the head request when no repair runs, none is awaited from the host, and (for an automatic one) SPR_CTL.en is
1; kinds 3 and 6 pass the warden first. -/
def State.repairStart (s : State) : State :=
  match s.spr.queue with
  | [] => s
  | q :: _ =>
    let u := q.region - 64
    if s.b (sprA 0x040) 8 = true ∨ (q.pol = 1 ∧ q.ok = false) ∨ (q.pol = 0 ∧ s.b (sprA 0x044) 0 = false) then s
    else
      match q.kind with
      | 0 => (s.setRegion q.region 3).showHead 3
      | 1 =>
        let p := q.region - 15
        if s.b (glfA 0x040) 8 then s
        else if s.planeState p = 2 ∨ s.planeState p = 4 then ((s.testPlane p none).setRegion q.region 3).showHead 3
        else s.showHead 3
      | 2 =>
        if s.b (hbcA (u / 32) 0x06C) (u % 32) = false then s.headRefused 3
        else if (s.spareOf (u / 32)).isSome then (s.startSpare u).showHead 3
        else (s.noSpare u).headRefused 4
      | 3 =>
        if (s.spareBankOf (q.arg / 65536)).isNone then s.sparesOut.headRefused 4
        else if s.remapAllowed (q.arg / 65536) (q.arg % 128) = false then s.headRefused 2
        else s.showHead 3
      | 4 => if s.spr.rows.at 0 (q.arg / 4096) = 8 then s.sparesOut.headRefused 4 else s.showHead 3
      | 5 =>
        let pc := q.arg % 32
        if s.pcInService (u / 32) pc then s.headRefused 3
        else if s.b (hbcA (u / 32) 0x078) 31 then s
        else (s.startPpr (u / 32) q.arg).showHead 3
      | 6 => s.showHead 3
      | _ => { s with bpm := { s.bpm with retiring := s.bpm.retiring ++ [u] } }.showHead 3

def execRepairStart (s : State) : Host.Outcome State Fault Refusal := answer s s.repairStart

/-- A region test passes: the region is good; a covered pipeline reads repaired and awaits release (R491). -/
def State.testPassed (s : State) (r : Nat) : State :=
  if r < 4 ∧ s.covering = true ∧ s.coveredGroup = r then (s.setRegion r 4).refreshDegrade
  else if r < 5 then ((s.setB (pipA r 0x040) 1 false).setB (pipA r 0x040) 0 true).regionGood r
  else if 64 ≤ r then s.slotBack (r - 64)
  else s.regionGood r

/-- The running repair ends: with its own result where the block that does it reports one, else with `pass`. -/
def State.repairComplete (s : State) (pass : Bool) : State :=
  match s.spr.queue with
  | [] => s
  | q :: _ =>
    let u := q.region - 64
    if s.b (sprA 0x040) 8 = false then s
    else
      match q.kind with
      | 0 =>
        if pass = true ∧ (q.region < 64 ∨ s.b (hbcA (u / 32) 0x06C) (u % 32) = true) then (s.testPassed q.region).headDone
        else ((s.setRegion q.region (s.faultState q.region)).headRefused 5).declareFault q.region 6 0 0
      | 1 =>
        let p := q.region - 15
        if s.planeState p = 3 then s
        else if s.planeState p ≤ 1 then (s.regionGood q.region).headDone
        else (s.setRegion q.region (s.faultState q.region)).headRefused 5
      | 2 => s.spareTested u pass
      | 3 => if pass then (s.remapBank (q.arg / 65536) (q.arg % 128)).headDone else s.headRefused 4
      | 4 => if pass then (s.remapRow (q.arg / 4096)).headDone else s.headRefused 4
      | 5 =>
        let t := u / 32
        let pc := q.arg % 32
        if s.b (hbcA t 0x078) 31 then s
        else if s.f (hbcA t 0x078) 1 0 ≠ 1 then s.headRefused 5
        else
          let more := (s.spr.queue.drop 1).any (fun r => decide (r.kind = 5 ∧ (r.region - 64) / 32 = t ∧ r.arg % 32 = pc))
          if more then s.headDone
          else if pass then (s.setSpareMask t (s.spareMask t ||| 2 ^ pc)).headDone
          else s.headRefused 5
      | 6 => (s.setReserve q.arg true).headDone
      | _ =>
        if s.slotBusy u then s
        else if s.bpm.testSpare.at 0 u ≠ 0 then s.spareTested u pass
        else if (s.spareOf (u / 32)).isSome then s.startSpare u
        else (s.noSpare u).headDone

def execRepairComplete (pass : Bool) (s : State) : Host.Outcome State Fault Refusal := answer s (s.repairComplete pass)

end Sys2Proof.Machine
end

