-- ==== Sys2Proof/Machine/Clock.lean ====
section
/-! DEFINITION. The self-timed core's governor, AVSBus master and cadence monitors (chapter 2). Readings, loads and the
regulator's answers come from outside and are the commands' operands. -/

namespace Sys2Proof.Machine

/-- The governor's mode and limits in force (R48). -/
def State.govMode (s : State) : Nat := s.ff (clkA 0x044) 17 16
def State.vmax (s : State) : Nat := s.ff (clkA 0x048) 25 16
def State.vmin (s : State) : Nat := s.ff (clkA 0x048) 9 0

/-- The last voltage requested, issued or waiting. -/
def State.lastReq (s : State) : Option Nat := s.gov.next.orElse (fun _ => s.gov.vset)

/-- The voltage the governor works from: its last request, else vmax after a Lull exit (R46), else the regulator's start
(R45). -/
def State.vNow (s : State) : Nat :=
  s.lastReq.getD (if s.gov.fromMax then s.vmax else min 850 (max 750 Config.regulatorStart))

/-- Issue a Voltage write-and-commit. -/
def State.avsIssue (s : State) (v : Nat) : State :=
  ({ s with gov := { s.gov with vset := some v, writing := some v, reading := false, tries := 0, next := none } }.setF
    (clkA 0x070) 9 0 v).emit (.avsWrite v)

/-- Whether the AVSBus master may write voltages: not in fixed mode, enabled, no fault (R44, R48). -/
def State.avsWrites (s : State) : Bool := decide (s.govMode ≠ 0) && s.b (clkA 0x078) 0 && !s.b (clkA 0x074) 31

/-- Ask for a voltage: after a transaction in progress (R43). -/
def State.requestV (s : State) (v : Nat) : State :=
  if s.avsWrites = false then s
  else if s.gov.writing.isSome ∨ s.gov.reading = true then { s with gov := { s.gov with next := some v } }
  else s.avsIssue v

/-- The bus is busy with a read of the device's own, as the sender says; the spec does not say when reads are made. -/
def State.avsReading (s : State) (reading : Bool) : State :=
  if reading = true ∧ s.gov.writing.isNone ∧ s.b (clkA 0x078) 0 = true then { s with gov := { s.gov with reading := true } } else s

/-- The lowest reading over the regions, and the lowest-numbered region that has it. -/
def State.slowest (s : State) : Nat × Nat :=
  (List.range 37).foldl (fun (a : Nat × Nat) r =>
    let c := s.f (clkA (0x100 + 4 * r)) 11 0
    if c < a.1 then (c, r) else a) (0x1000, 0)

/-! ### The interval (R42) -/

/-- CLK_STATUS.at_vmax clears when the lowest reading reaches the cadence required at the last interval (R48). -/
def State.atVmaxEnd (s : State) : State := if s.gov.creq ≤ s.slowest.1 then s.setB (clkA 0x040) 18 false else s

/-- Governed mode: one step up, one down, or none. After a Lull exit the first request goes out though it is vmax itself,
since the regulator has started anew. -/
def State.govern (s : State) (creq : Nat) : State :=
  let cmin := s.slowest.1
  let v := s.vNow
  let hyst := s.f (clkA 0x050) 23 16
  let s := if cmin < creq ∧ v = s.vmax ∧ s.b (clkA 0x040) 18 = false
    then (s.setB (clkA 0x040) 18 true).report 2 4 0x0805 else s
  let v' := if cmin < creq then min (v + s.ff (clkA 0x04C) 7 0) s.vmax
    else if creq + hyst < cmin then max (v - s.ff (clkA 0x04C) 23 16) s.vmin
    else v
  if v' = v ∧ (s.lastReq.isSome ∨ s.gov.fromMax = false) then s else s.requestV v'

/-- The end of a governor interval with its load (in 1/256); settings written since come into force (R48). DESIGN CHOICE: R48
names no point at which CLK_GOV_GUARD, CLK_GOV_BAND_THR and CLK_GOV_BAND_TGT take effect, and they are read as written. -/
def State.govInterval (s : State) (load : Nat) : State :=
  let thr := s.rd (clkA 0x054)
  let band := b2n (decide (fld thr 7 0 ≤ load)) + b2n (decide (fld thr 15 8 ≤ load)) + b2n (decide (fld thr 23 16 ≤ load))
  let creq := max (s.f (clkA 0x050) 11 0) (s.f (clkA (0x058 + 4 * band)) 11 0)
  let s := s.wr (clkA 0x068) (word (band * 65536 + load))
  let s := { s.setB (clkA 0x040) 17 s.gov.guardSeen with gov := { s.gov with guardSeen := false, creq } }.atVmaxEnd
  let s := match s.govMode with
    | 1 => s.govern creq
    | 2 =>
      let v := min s.vmax (max s.vmin (s.ff (clkA 0x06C) 9 0))
      if s.lastReq = some v then s else s.requestV v
    | _ => s
  forEach [0x044, 0x048, 0x04C, 0x06C] s (fun s o => s.load (clkA o))

/-- With the load, whether the regulator bus is busy with a read of its own (see `State.avsReading`). -/
def execGovernorIntervalEnd (load : BitVec 8 × Bool) (s : State) : Host.Outcome State Fault Refusal :=
  answer s (if s.alive then (s.avsReading load.2).govInterval load.1.toNat else s)

/-! ### Monitors (R38, R43) -/

/-- The readings of a window: each region's cadence, the lowest, and the alarms of R43. A reading of 0 is a ring that has
stopped; two in a row declare the region (R487). DESIGN CHOICE: 0x0802 and its cause are raised also where no voltage can be
requested (fixed mode, master disabled), as R44 has it under a fault. -/
def State.monitorWindow (s : State) (reads : List (BitVec 12)) : State :=
  let old := fun (r : Nat) => s.f (clkA (0x100 + 4 * r)) 11 0
  let new := fun (r : Nat) => match reads[r]? with | some x => x.toNat | none => old r
  let under := fun (limit : Nat) => (List.range 37).any (fun r => decide (new r < limit))
  let fell := fun (limit : Nat) =>
    (List.range 37).any (fun r => decide (new r < limit) && (decide (limit ≤ old r) || !s.gov.measured))
  let guard := s.f (clkA 0x050) 11 0
  let raise_ := fell guard
  let floorNew := fell 1120 || (under 1120 && !s.b (clkA 0x040) 16)
  let low_ := under guard
  let s := forEach (List.range 37) s (fun s r => s.wr (clkA (0x100 + 4 * r)) (word (new r)))
  let s := { s with gov := { s.gov with measured := true, guardSeen := s.gov.guardSeen || low_ } }
  let (low, at_) := s.slowest
  let s := (s.setF (clkA 0x040) 5 0 at_).atVmaxEnd
  let s := if low < s.f (clkA 0x080) 11 0 then s.wr (clkA 0x080) (word (at_ * 65536 + low)) else s
  let s := if raise_ then (s.requestV s.vmax).report 2 1 0x0802 else s
  let s := if floorNew then (s.setB (clkA 0x040) 16 true).report 2 0 0x0801 else s
  forEach (List.range 37) s (fun s r =>
    let n := if new r = 0 then s.spr.stopped.at 0 r + 1 else 0
    let s := { s with spr := { s.spr with stopped := s.spr.stopped.put 0 r n } }
    if 2 ≤ n ∧ s.regionRuns r = true then s.declareFault r 2 0 0 else s)

/-- With the readings, whether the regulator bus is busy with a read of its own (see `State.avsReading`). -/
def execMonitorWindowEnd (readings : List (BitVec 12) × Bool) (s : State) : Host.Outcome State Fault Refusal :=
  answer s (if s.alive then (s.avsReading readings.2).monitorWindow readings.1 else s)

/-- R48: a write of CLK_MON_CLR.clr 1. -/
def State.monClear (s : State) : State := (s.wr (clkA 0x080) 0xFFF).setB (clkA 0x040) 16 false

def execClkMonClr (s : State) : Host.Outcome State Fault Refusal :=
  answer s (s.hostWriteWith (clkA 0x084) 1 true (fun _ s => s.monClear))

/-! ### AVSBus (R44) -/

/-- No voltage is written any longer. -/
def State.avsFault (s : State) : State :=
  let s := { s with gov := { s.gov with writing := none, reading := false, next := none, tries := 0 } }
  if s.b (clkA 0x074) 31 then s else (s.setB (clkA 0x074) 31 true).report 2 2 0x0803

/-- The transaction in progress has ended well; the voltage that waits for it is asked for now (R43). -/
def State.avsGood (s : State) : State :=
  let next := s.gov.next
  let s := { s with gov := { s.gov with writing := none, reading := false, tries := 0, next := none } }
  match next with
  | some v => s.requestV v
  | none => s

/-- A transaction ends; a failing one is tried again up to 3 times. One that is not in progress has not ended: a write with
none under way, a read during a write. -/
def State.avsDone (s : State) (ok : Bool) (op : AvsOp) : State :=
  if decide (op = .write) ≠ s.gov.writing.isSome then s
  else if ok then
    match op with
    | .voltage v => (s.setF (clkA 0x070) 25 16 v.toNat).avsGood
    | _ => s.avsGood
  else if s.gov.tries < 3 then
    let s := { s with gov := { s.gov with tries := s.gov.tries + 1, reading := !decide (op = AvsOp.write) } }.bumpF (clkA 0x074) 15 0
    match s.gov.writing with
    | some v => s.emit (.avsWrite v)
    | none => s
  else s.avsFault

def execAvsTransactionComplete (ok : Bool) (op : AvsOp) (s : State) : Host.Outcome State Fault Refusal :=
  answer s (if s.alive then s.avsDone ok op else s)

/-- A Voltage read has differed from the request by more than 10 mV for 100 µs. -/
def execAvsReadbackTimeout (s : State) : Host.Outcome State Fault Refusal :=
  let set := s.f (clkA 0x070) 9 0
  let got := s.f (clkA 0x070) 25 16
  answer s (if s.gov.vset.isSome ∧ (set + 10 < got ∨ got + 10 < set) then s.avsFault else s)

def execAvsFaultClear (s : State) : Host.Outcome State Fault Refusal :=
  answer s (s.hostWriteWith (clkA 0x074) (word (2 ^ 31)) true (fun _ s => s))

/-- Whether a clocked domain runs (R39): none before the core has power, never the island's, not the MAC domains of a lane
that another lane's port uses, not one whose clock was lost. -/
def State.domRuns (s : State) (n : Nat) : Bool :=
  s.alive && decide (n < 208) && (decide (128 ≤ n) || s.carried (n % 64)) && !s.gov.lost.contains n

/-- R49: clock loss is seen in a domain; those of the island (208 to 211) are not visible (R39). -/
def State.clockLoss (s : State) (n : Nat) : State :=
  let a := clkA (0x220 + 4 * (n / 32))
  if 208 ≤ n then s
  else
    let s := { s with gov := { s.gov with lost := n :: s.gov.lost.filter (fun m => decide (m ≠ n)) } }
    if s.b a (n % 32) then s else (s.setB a (n % 32) true).report 2 3 0x0804

def execClockLoss (domain : Fin 212) (s : State) : Host.Outcome State Fault Refusal :=
  answer s (if s.pmu.por then s.clockLoss domain.val else s)

end Sys2Proof.Machine
end

