-- ==== Sys2Proof/Machine/TimeSync.lean ====
section
/-! DEFINITION. Commands of the time-sync unit (chapter 14): set, step and snapshot of the bases, the timestamp FIFOs, the
PPS/event pins. -/

namespace Sys2Proof.Machine

/-! ### Set, step, snapshot (R334, R335) -/

/-- Registers of base `b`. -/
def tbA (b o : Nat) : Nat := tsuA (0x080 + 64 * b + o)

/-- The effect of an accepted TSU_TB_CMD: the base changes, its epoch rises, and every user of it follows at once (R336). -/
def State.tbCmd (s : State) (b op : Nat) : State :=
  let t := s.tb b
  let t' : TimeBase :=
    if op = 1 then
      { t with sec := s.f (tbA b 0x08) 15 0 * 2 ^ 32 + (s.rd (tbA b 0x0C)).toNat, ns := (s.rd (tbA b 0x10)).toNat, frac := 0 }
    else t.addNs (toSigned 32 (s.rd (tbA b 0x14)).toNat)
  let e := (t.epoch + 1) % 16
  let s := s.setTb b { t' with epoch := e }
  let s := { s with tsu := { s.tsu with landed := s.tsu.landed.put 0 b t'.total } }
  let s := s.report 4 6 0x1001 b op e
  let s := if b = 0 then s.frontAfter t'.total |>.frontStepped else s
  let s := if t'.sec = t.sec then s else s.loadPins b
  (s.schedReposition b).gatesReposition b

def State.tbWrite (s : State) (b op : Nat) : State :=
  s.hostWriteWith (tbA b 0x18) (word op) true (fun _ s => s.tbCmd b op)

def execTbSet (base : Tb) (s : State) : Host.Outcome State Fault Refusal := answer s (s.tbWrite base.val 1)
def execTbStep (base : Tb) (s : State) : Host.Outcome State Fault Refusal := answer s (s.tbWrite base.val 2)

/-- R334: the selected bases are latched at one instant. -/
def State.snapshot (s : State) (bases : Nat) : State :=
  forEach ((List.range 4).filter (fun b => decide (bitsOf bases b b = 1))) s (fun s b =>
    let t := s.tb b
    (((s.wr (tbA b 0x1C) (word (t.sec / 2 ^ 32))).wr (tbA b 0x20) (word t.sec)).wr (tbA b 0x24) (word t.ns)).wr (tbA b 0x28)
      (word (t.epoch * 65536 + t.frac / 65536)))

def execTbSnapshot (bases : BitVec 4) (s : State) : Host.Outcome State Fault Refusal :=
  answer s (s.hostWriteWith (tsuA 0x044) (word bases.toNat) true (fun _ s => s.snapshot bases.toNat))

/-! ### Pops (R339, R343) -/

/-- The head of a port's timestamp FIFO is popped. -/
def State.popTxts (s : State) (p : Nat) : State :=
  { s with tsu := { s.tsu with txts := s.tsu.txts.put [] p ((s.tsu.txts.at [] p).drop 1) } }.showTxts p

def execTxtsPop (port : Port) (s : State) : Host.Outcome State Fault Refusal :=
  answer s (s.hostFar (tsuA (0x400 + 16 * port.val)) (word (2 ^ 31)) (fun _ s => s.popTxts port.val))

/-- Registers of pin `n`. -/
def pinA (n o : Nat) : Nat := tsuA (0x200 + 32 * n + o)

/-- Show the head of a pin's event FIFO. -/
def State.showPin (s : State) (n : Nat) : State :=
  let q := s.tsu.pinEv.at [] n
  match q with
  | [] => ((s.wr (pinA n 0x10) 0).wr (pinA n 0x14) 0).wr (pinA n 0x18) 0
  | x :: _ =>
    let w := 2 ^ 31 + b2n x.ovf * 2 ^ 30 + b2n x.falling * 2 ^ 28 + x.epoch * 2 ^ 24 + q.length
    ((s.wr (pinA n 0x10) (word x.ns)).wr (pinA n 0x14) (word x.sec)).wr (pinA n 0x18) (word w)

def State.popPin (s : State) (n : Nat) : State :=
  { s with tsu := { s.tsu with pinEv := s.tsu.pinEv.put [] n ((s.tsu.pinEv.at [] n).drop 1) } }.showPin n

def execPinEventPop (pin : Tb) (s : State) : Host.Outcome State Fault Refusal :=
  answer s (s.hostWriteWith (pinA pin.val 0x18) (word (2 ^ 31)) true (fun _ s => s.popPin pin.val))

/-! ### Pins (R342, R343) -/

/-- Mode and base of a pin in force. -/
def State.pinMode (s : State) (n : Nat) : Nat := s.ff (pinA n 0) 1 0
def State.pinTb (s : State) (n : Nat) : Nat := s.ff (pinA n 0) 5 4

/-- How many ns ago the latest pulse instant of an output pin was. -/
def State.pinSince (s : State) (n : Nat) : Nat :=
  let period := s.ff (pinA n 0x04) 29 0
  ((s.tb (s.pinTb n)).ns + period - s.ff (pinA n 0x08) 29 0 % period) % period

/-- A pulse begins or ends on an output pin; TSU_PIN_CTL.inv inverts the level the pin is driven to (R345). -/
def State.setPin (s : State) (n : Nat) (high : Bool) : State :=
  { s with tsu := { s.tsu with pinHigh := s.tsu.pinHigh.put false n high } }.emit (.pin n (high != bit (s.fw (pinA n 0)) 12))

/-- The pin rises in the cycle of its base in which a pulse instant falls; the instant itself is remembered. An instant that
the last set or step has passed over yields no pulse (R336). -/
def State.pinRise (s : State) (n : Nat) : State :=
  let b := s.pinTb n
  if s.alive = false ∨ s.pinMode n ≠ 1 ∨ s.tsu.pinHigh.at false n = true ∨ 5 ≤ s.pinSince n ∨
      (s.tb b).total < s.tsu.landed.at 0 b + s.pinSince n then s
  else
    let t := (s.tb (s.pinTb n)).addNs (-(s.pinSince n : Int))
    let s := s.setPin n true
    { s with tsu := { s.tsu with pinRose := s.tsu.pinRose.put {} n { t with frac := 0 } } }

def execPinPulseRise (pin : Tb) (s : State) : Host.Outcome State Fault Refusal := answer s (s.pinRise pin.val)

/-- The pin falls once its width, rounded down to 8 ns, has passed since its rise. -/
def State.pinFall (s : State) (n : Nat) : State :=
  let r := s.tsu.pinRose.at {} n
  let t := s.tb (s.pinTb n)
  let width := s.ff (pinA n 0x0C) 29 0 / 8 * 8
  let past : Int := ((t.sec : Int) - (r.sec : Int)) * 1000000000 + (t.ns : Int) - (r.ns : Int)
  if s.alive = false ∨ s.tsu.pinHigh.at false n = false ∨ (s.pinMode n = 1 ∧ r.epoch = t.epoch ∧ past < (width : Int)) then s
  else s.setPin n false

def execPinPulseFall (pin : Tb) (s : State) : Host.Outcome State Fault Refusal := answer s (s.pinFall pin.val)

/-- An edge on a pin in input mode: `falling` at the ball, `width` ns of the pulse it begins or ends; the inverted sense
applies. Under 10 ns it is ignored; from 10 to 16 ns a free value says whether it is stamped. -/
def State.pinEdge (s : State) (n : Nat) (falling : Bool) (width : Nat) : State :=
  let ctl := s.fw (pinA n 0)
  let fall := falling != bit ctl 12
  if s.alive = false ∨ s.pinMode n ≠ 2 ∨ bit ctl (if fall then 9 else 8) = false ∨ width < 10 then s
  else
    let (d, s1) := s.draw
    let (seen, s) := if width < 16 then (decide (Config.freeValue d % 2 = 1), s1) else (true, s)
    if seen = false then s
    else
      let t := s.tb (s.pinTb n)
      let q := s.tsu.pinEv.at [] n
      let s : State := if 16 ≤ q.length then
          ({ s with tsu := { s.tsu with pinLost := s.tsu.pinLost.put false n true } }.bump (tsuA 0x290)).report 4 4 0x1003
        else
          let x : PinStamp := { ns := t.ns, sec := t.sec % 2 ^ 32, epoch := t.epoch, falling := fall, ovf := s.tsu.pinLost.at false n }
          let s := { s with tsu := { s.tsu with pinEv := s.tsu.pinEv.put [] n (q ++ [x]), pinLost := s.tsu.pinLost.put false n false } }
          let s := if q.isEmpty then s.irq 4 n else s
          (s.showPin n).pmc 4 4
      if s.b (mirA 0x058) 4 = true ∧ s.f (mirA 0x058) 9 8 = (n : Nat) then s.capTrigger else s

def execPinInputEdge (pin : Tb) (falling : Bool) (width : Nat) (s : State) : Host.Outcome State Fault Refusal :=
  answer s (s.pinEdge pin.val falling width)

/-- R346: the time-sync PLL loses lock. -/
def execTsPllLockLost (s : State) : Host.Outcome State Fault Refusal :=
  answer s (if s.b (tsuA 0x040) 0 then (s.setB (tsuA 0x040) 0 false).report 4 7 0x1002 else s)

end Sys2Proof.Machine
end

