-- ==== Sys2Proof/Machine/CaptureRing.lean ====
section
/-! DEFINITION. The capture ring's commands (R370 to R377): records written from the capture queues, and unfreezing. -/

namespace Sys2Proof.Machine

/-- The records the ring holds (R372). -/
def State.capSize (s : State) : Nat := 10240 * s.f (mirA 0x04C) 11 0

/-- MIR_STATUS.full (R374): with wrap 0, WR − RD equals R; its setting is reported. A frozen ring does not become full: freezing
takes precedence (R377). -/
def State.capFull (s : State) : State :=
  if s.b (mirA 0x040) 0 then s
  else
  let full := !s.b (mirA 0x044) 1 && decide (((s.rd (mirA 0x050)) - (s.rd (mirA 0x054))).toNat = s.capSize ∧ s.capSize ≠ 0)
  let was := s.b (mirA 0x040) 1
  let s := s.setB (mirA 0x040) 1 full
  if full && !was then s.report mirPage 3 0x6004 else s

/-- The next capture queue in round robin that holds a record. -/
def State.capNext (s : State) : Option Nat :=
  let ks := (s.mir.queues.filter (fun e => !e.2.isEmpty)).map (fun e => e.1)
  (ks.find? (fun k => decide (s.mir.last < k))).orElse (fun _ => ks.head?)

/-- A record with its sequence number and CRC (R370). -/
def capSeal (bs : List Byte) (seq : Nat) : List Byte :=
  let b := putBytes bs 24 (leBytes 4 seq)
  putBytes b 30 (leBytes 2 (crc16 (b.take 30)))

/-- Write a record into the ring at its index: bytes 32 to 191 and 0 to 23, then 24 to 31 (R373), one request to each granule.
It is lost when any of it falls in a frozen pseudo-channel, now or before the requests are served (R375). -/
def State.capPut (s : State) (bs : List Byte) (i : Nat) : State :=
  let places := s.capPlace i
  if places.any (fun x => s.hbmBad x.2) then s.bumpRise (mirA 0x088) mirPage 2 0x6003
  else
    let old := places.map (fun x => (s.hbmRd x.2 1).headD 0)
    let late := (places.drop 24).take 8
    let s := forEach [places.drop 32 ++ places.take 24, late] s (fun s part =>
      let s := forEach (part.map (fun x => x.2 / 256)).eraseDups s (fun s g =>
        s.hbmRequest (256 * g) true [] (.capture i old))
      forEach part s (fun s x => s.hbmWr x.2 [bs.getD x.1 0]))
    (s.bump (mirA 0x080)).pmc mirPage 4

/-- MIR writes the next record: a rule trigger acts before its record, and after the last post-trigger record the ring
freezes. With post 0 the record that fires stays in its queue, no trigger any more. -/
def State.capWrite (s : State) : State :=
  if s.b (mirA 0x044) 0 = false ∨ s.b (mirA 0x040) 0 = true ∨ s.b (mirA 0x040) 1 = true ∨ s.regionDown 33 = true ∨ s.capSize = 0 then s
  else
    match s.capNext with
    | none => s
    | some k =>
      match s.mir.queues.at [] k with
      | [] => s
      | r :: rest =>
        let s := if r.trig = true ∧ s.b (mirA 0x058) 5 = true then s.capTrigger else s
        if s.b (mirA 0x040) 0 then
          { s with mir := { s.mir with queues := s.mir.queues.put [] k ({ r with trig := false } :: rest) } }
        else
          let s := { s with mir := { s.mir with queues := s.mir.queues.put [] k rest, last := k } }
          let seq := (s.rd (mirA 0x050)).toNat
          let s := s.capPut (capSeal r.bytes seq) (seq % s.capSize)
          let s := s.wr (mirA 0x050) (word (seq + 1))
          let s := match s.mir.post with
            | some (n + 1) =>
              let s := { s with mir := { s.mir with post := some n } }
              if n = 0 then s.capFreeze else s
            | _ => s
          s.capFull

def execCaptureRecordWrite (s : State) : Host.Outcome State Fault Refusal := answer s (if s.alive then s.capWrite else s)

/-- R377: a write of 1 to MIR_STATUS.frozen. -/
def execCaptureUnfreeze (s : State) : Host.Outcome State Fault Refusal :=
  answer s (s.hostWriteWith (mirA 0x040) 1 true (fun _ s => s.capFull))

end Sys2Proof.Machine
end

