-- ==== Sys2Proof/Machine/Stats.lean ====
section
/-! DEFINITION. Statistics periods and performance counters (chapter 18): fronts, the latched bank, bandwidth windows,
the global stop. -/

namespace Sys2Proof.Machine

/-! ### Injection (R402 to R405) -/

/-- What a stop of the performance counters is to a front being injected (R419): 1 it stops them, 2 it finds them
stopped, 3 it resumes them, 0 none. -/
def State.pmcPartNow (s : State) : Nat :=
  if s.b (pmcA 0x040) 1 then 1
  else if s.sta.pmcHeld.isEmpty then 0
  else if s.b (pmcA 0x040) 0 then 2
  else 3

/-- STA_CTL.mode, src and period come into force. -/
def State.loadSta (s : State) : State :=
  let s := s.load (staA 0x044)
  (s.setB (staA 0x040) 1 (s.b (staA 0x044) 17)).setB (staA 0x040) 2 (s.b (staA 0x044) 16)

/-- A front is injected at an instant of TB0: under the settings in force, which those written replace. -/
def State.inject (s : State) (t : TimeBase) (soft : Bool) : State :=
  let old := s.b (staA 0x040) 1
  let info := b2n s.sta.stepped * 2 ^ 20 + b2n soft * 2 ^ 21 + s.sta.skipped * 2 ^ 24
  let part := s.pmcPartNow
  let s := (s.loadSta.load (staA 0x400)).setB (staA 0x040) 0 true
  { s with sta := { s.sta with passed := [], late := [], ledLate := [], next := [], frontAt := s.clk, frontTb := t,
                               soft := soft, lateSaid := false, oldFree := old, modeChg := old != s.b (staA 0x040) 1,
                               pmcPart := part, skipped := 0, stepped := false, lastFront := some t.total, info := info } }

/-- The latest grid instant of R402 at or before now. -/
def State.gridInstant (s : State) : TimeBase :=
  let t := s.tb 0
  let p := s.ff (staA 0x044) 15 0
  let ms := (t.sec * 1000 + t.ns / 1000000) / max p 1 * max p 1
  { t with sec := ms / 1000, ns := ms % 1000 * 1000000, frac := 0 }

/-- Whether an instant of TB0 is at or before the last front's, or the instant that timed fronts fall after (R404). -/
def State.frontTaken (s : State) (n : Nat) : Bool :=
  [s.sta.after, s.sta.lastFront].any (fun x => match x with | some m => decide (n ≤ m) | none => false)

/-- A timed instant: a front is injected, or the instant is skipped while a front is in flight (R403). -/
def State.timedFront (s : State) : State :=
  let g := s.gridInstant
  if s.alive = false ∨ s.b (staA 0x044) 31 = false ∨ s.b (staA 0x040) 2 = true ∨ s.frontTaken g.total = true then s
  else if s.b (staA 0x040) 0 then
    let s := { s with sta := { s.sta with skipped := min 255 (s.sta.skipped + 1) } }
    (s.frontAfter g.total).report 9 3 0x2404
  else s.inject g false

def execFrontTimedInject (s : State) : Host.Outcome State Fault Refusal := answer s s.timedFront

/-- The effect of an accepted STA_FRONT_CMD.go. -/
def State.softFront (s : State) : State := s.inject (s.tb 0) true

def execFrontSoftwareInject (s : State) : Host.Outcome State Fault Refusal :=
  answer s (s.hostWriteWith (staA 0x048) 1 true (fun _ s => s.softFront))

/-- R405: STA_CTL.en has been written; a change to 1 brings the settings into force, and the first timed front is the next
grid instant. -/
def State.staEnable (s : State) (was : Bool) : State :=
  if was = false ∧ s.b (staA 0x044) 31 = true then s.loadSta.frontAfter (s.tb 0).total else s

def execStaEnableChange (en mode src : Bool) (period : BitVec 16) (s : State) : Host.Outcome State Fault Refusal :=
  let was := s.b (staA 0x044) 31
  answer s (s.hostWriteWith (staA 0x044)
    (word (b2n en * 2 ^ 31 + b2n mode * 2 ^ 17 + b2n src * 2 ^ 16 + period.toNat)) true (fun _ s => s.staEnable was))

/-! ### The front passes a block (R32, R242, R265, R390) -/

/-- Every page of the map (R53). -/
def allPages : List Nat := Blk.all.flatMap (fun b => (List.range b.page0.2).map (fun i => b.page0.1 + i))

/-- The pages a front must have passed before a page: MACs and interfaces, then PRS, PIP, POL, GLF, RSQ, TMG. -/
def frontBefore (page : Nat) : List Nat :=
  match pageOf page with
  | some (.prs, k) => if k = 4 then [1, 7, 11] else (List.range 16).map (fun i => macPage (16 * k + i))
  | some (.pip, k) => [prsPage k]
  | some (.pol, k) => [pipPage k]
  | some (.glf, _) => (List.range 5).map polPage
  | some (.rsq, _) => [15]
  | some (.tmg, e) => [rsqPage e]
  | _ => []

/-- Whether a token ahead of the front is still in the block of a page: a frame in stages 0 to 11; one of a POL's group being
policed, or on its way there in a pipeline; one of an egress group with copies to edit. -/
def State.tokenAhead (s : State) (page : Nat) : Bool :=
  let inPip := fun (f : Frame) => match f.place with | .stage _ => true | _ => false
  match pageOf page with
  | some (.pip, k) => s.frames.any (fun e => decide (e.2.pipe = k) && inPip e.2 && !s.behind e.2)
  | some (.pol, k) => s.frames.any (fun e => decide (e.2.grp = k) && (inPip e.2 || decide (e.2.place = .police)) && !s.behind e.2)
  | some (.tmg, e) => s.eframes.any (fun x => decide (x.e = e) && !x.todo.isEmpty && !s.behind (s.frame x.fid))
  | _ => false

/-- The marks of egress group `e` have been reached: every cell sent before the front has been passed out or lost (R265). -/
def State.marksReached (s : State) (e : Nat) : Bool :=
  s.glf.marks.all (fun m => decide (m.1 % 5 ≠ e) ||
    decide ((s.f (rsqA e (0x050 + 4 * (m.1 / 5))) 19 0 + 2 ^ 20 - m.2) % 2 ^ 20 < 2 ^ 19))

/-- Whether the front can pass a page now. A halted pipeline holds it at its admission (R403). -/
def State.frontReady (s : State) (page : Nat) : Bool :=
  (frontBefore page).all s.sta.passed.contains &&
  !s.tokenAhead page &&
  (match pageOf page with
   | some (.prs, k) => !s.halted k
   | some (.pip, k) => !s.halted k
   | some (.pol, k) => !(s.covering && decide (s.coveredGroup = k)) || s.passed (pipPage 4)
   | some (.rsq, e) => s.marksReached e && (List.range 5).all (s.frontReceived e)
   | _ => true)

/-- Latch a word that restarts at each front. -/
def State.latchWord (s : State) (k v : Nat) : State := { s with sta := { s.sta with next := s.sta.next.put 0 k v } }

/-- The bandwidth words of one side of a port (R413): 0 receive, 1 transmit; a window still open is discarded. -/
def State.latchBw (s : State) (p side : Nat) : State :=
  let x := s.sta.bwPk.at (0, 0) (2 * p + side)
  let s := (s.latchWord (0xA000 + 32 * p + 8 * side) x.1).latchWord (0xA000 + 32 * p + 16 + 8 * side) x.2
  { s with sta := { s.sta with bwPk := s.sta.bwPk.put (0, 0) (2 * p + side) (0, 0),
                               bwRx := if side = 0 then s.sta.bwRx.put 0 p 0 else s.sta.bwRx,
                               bwTx := if side = 1 then s.sta.bwTx.put 0 p 0 else s.sta.bwTx } }

/-- The sample results of a queue (R412). -/
def State.latchSamples (s : State) (q : Nat) (x : QSample) : State :=
  let ws := [x.n, x.cells.1, x.cells.2.1, x.cells.2.2, x.copies.1, x.copies.2.1, x.copies.2.2, x.age.1, x.age.2.1, x.age.2.2] ++ x.bins
  forEach (List.range 18) s (fun s w => s.latchWord (0x400000 + 256 * q + 8 * w) (ws.getD w 0))

/-- What a TMG latches and loads as the front passes its queues (R327, R413). -/
def State.frontTmg (s : State) (e : Nat) : State :=
  let s := forEach (if e = 4 then [64, 65, 66, 67] else (List.range 16).map (fun i => 16 * e + i)) s (fun s p => s.latchBw p 1)
  let s := forEach (s.tmg.samples.filter (fun x => decide (groupOf (x.1 / 64) = e))) s (fun s x => s.latchSamples x.1 x.2)
  let s := { s with tmg := { s.tmg with samples := s.tmg.samples.filter (fun x => decide (groupOf (x.1 / 64) ≠ e)) } }
  let s := (s.setB (tmgA e 0x040) 0 false).load (tmgA e 0x048)
  forEach (List.range 64) s (fun s i => s.load (tmgA e (0x300 + 4 * i)))

/-- What the front does at a page beyond splitting its counts: settings that come into force, values that restart. -/
def State.frontAct (s : State) (page : Nat) : State :=
  let s := s.load (page * 0x1000 + 0x1C)
  let s := if s.sta.pmcPart = 1 then { s with sta := { s.sta with pmcHeld := page :: s.sta.pmcHeld } }
    else if s.sta.pmcPart = 3 then { s with sta := { s.sta with pmcHeld := s.sta.pmcHeld.filter (fun p => decide (p ≠ page)) } }
    else s
  match pageOf page with
  | some (.mac, p) => s.latchBw p 0
  | some (.hif, _) => s.latchBw 64 0
  | some (.isl, _) => s.latchBw 65 0
  | some (.pip, k) => if k = 4 then s.latchBw 66 0 else s
  | some (.sec, _) => s.latchBw 67 0
  | some (.sta, _) => s.load (staA 0x064)
  | some (.pmc, _) => s.load (pmcA 0x044)
  | some (.pol, k) => s.sendFront k
  | some (.rsq, e) =>
    let s := { s with glf := { s.glf with marks := s.glf.marks.filter (fun m => decide (m.1 % 5 ≠ e)),
                                          flights := s.glf.flights.filter (fun x => !(x.front && decide (x.e = e))) } }
    forEach (List.range 5) s (fun s k => (State.skipLost s.rsq.lost.length e k s).rsqShow e k)
  | some (.tmg, e) => s.frontTmg e
  | _ => s

/-- The front passes the block of a page: what the block counts from now on belongs to the next period. -/
def State.frontPass (s : State) (page : Nat) : State :=
  if s.alive = false ∨ s.b (staA 0x040) 0 = false ∨ s.sta.passed.contains page = true ∨ allPages.contains page = false ∨
      s.frontReady page = false then s
  else
    let s := s.frontAct page
    { s with sta := { s.sta with passed := page :: s.sta.passed } }

def execFrontPassBlock (page : Fin 176) (s : State) : Host.Outcome State Fault Refusal := answer s (s.frontPass page.val)

/-- R403: a front is not complete 5 µs after its injection. -/
def State.frontLate (s : State) : State :=
  if s.b (staA 0x040) 0 = false ∨ s.sta.lateSaid = true then s
  else { s with sta := { s.sta with lateSaid := true } }.report 9 2 0x2403

def execFrontLate (s : State) : Host.Outcome State Fault Refusal := answer s s.frontLate

/-! ### Completion (R408 to R412, R419) -/

/-- Whether a bank offset is a performance counter's. -/
def isPmcWord (k : Nat) : Bool := decide (0x20000 ≤ k ∧ k < 0x20000 + 64 * 176)

/-- Put every entry of one array into another. -/
def putAll (m new : SMap Nat) : SMap Nat := new.foldl (fun m e => m.put 0 e.1 e.2) m

/-- Device word `r` of a latch (R410): the port slots summed, or what is counted for the device as a whole. -/
def deviceWord (m : SMap Nat) (r : Nat) : Nat :=
  if r = 0x1C ∨ r = 0x23 then m.at 0 (0x9000 + 8 * r)
  else sumBy (fun p => m.at 0 (p * 0x200 + 8 * r)) (List.range 68) % 2 ^ 48

/-- The bank of a front: what the blocks latched, stopped performance counters keeping the stopping latch. -/
def State.newBank (s : State) : SMap Nat :=
  let keep := decide (2 ≤ s.sta.pmcPart)
  let old := if keep then s.sta.bank.filter (fun e => isPmcWord e.1) else []
  let m := putAll old (s.sta.cnt.filter (fun e => !(keep && isPmcWord e.1)))
  let m := putAll m ((List.range 0x22).map (fun r => (0x9000 + 8 * (r + 1), deviceWord s.sta.cnt (r + 1))))
  putAll m s.sta.next

/-- The live counters after a front: restarted where R405 says so, stopped counters as they stand, with what the blocks
counted after it passed them. -/
def State.newCnt (s : State) : SMap Nat :=
  let restart := s.sta.modeChg || !s.sta.oldFree
  let stays := decide (s.sta.pmcPart = 1 ∨ s.sta.pmcPart = 2)
  let kept := s.sta.cnt.filter (fun e => !restart || (stays && isPmcWord e.1))
  s.sta.late.foldl (fun m e => m.upd 0 e.1 (fun x => if s.b (staA 0x040) 1 then (x + e.2) % 2 ^ 48 else satAdd 48 x e.2)) kept

/-- The stop of the performance counters takes its cut. -/
def State.pmcStopped (s : State) : State :=
  if s.sta.pmcPart = 1 then
    let s := ((s.setB (pmcA 0x040) 0 true).setB (pmcA 0x040) 1 false).setB (pmcA 0x044) 8 false
    (s.wr (pmcA 0x04C) (s.rd (staA 0x04C))).report 10 0 0x2801
  else s

/-! ### Residents at the cut (R389, R390) -/

/-- The key of an account instance. -/
def accKey (code inst : Nat) : Nat := code * 2 ^ 24 + inst

/-- A term of an account in a set of terms. -/
def ledTerm (m : SMap Int) (code inst term : Nat) : Int := m.at 0 (ledKey code inst term)

/-- in − out − drops, and − not-loss for the frame accounts, of an instance (the balance of R389). A resent cell discarded
under 0x1C has no new sequence number, so account 5 carries that term outside the balance. -/
def ledNet (m : SMap Int) (code inst : Nat) : Int :=
  ledTerm m code inst 0 - ledTerm m code inst 1 - ledTerm m code inst 2 -
    (if code = 2 ∨ code = 3 then ledTerm m code inst 3 else 0)

/-- Σ of a POL's buckets whose four bytes lie at byte `off` of each meter. -/
def State.bucketSum (s : State) (k off : Nat) : Nat :=
  sumBy (fun (e : Nat × Byte) => if off ≤ e.1 % 32 ∧ e.1 % 32 < off + 4 then e.2.toNat * 256 ^ (e.1 % 32 - off) else 0)
    (s.win.filter (fun e => decide (meterA k 0 ≤ e.1 ∧ e.1 < meterA k (meterCount k))))

/-- Frames begun at a port and neither admitted nor dropped: those held at its MAC, and those in staging (R389 account 1). -/
def State.begunAt (s : State) (p : Nat) : Nat :=
  b2n (match (s.mac p).rx with | some r => decide (p < 64) && r.begun && !r.stopped && r.fid.isNone | none => false) +
  (s.frames.filter (fun e => decide (e.2.inPort = p ∧ e.2.place = .staged) && !e.2.admitted)).length

/-- Account instances whose resident the state shows, with it. Accounts 5 and 6 have none at a cut. -/
def State.residents (s : State) : List (Nat × Int) :=
  let dr := (List.range 8).map (fun v => (s.drain v : Int))
  (65 :: 67 :: List.range 65).map (fun p => (accKey 1 p, (s.begunAt p : Int))) ++ [(accKey 2 0, dr.foldl (· + ·) 0)] ++
  (List.range 8).map (fun v => (accKey 3 v, (s.drain v : Int))) ++
  (List.range 5).map (fun k => (accKey 4 k, (s.stageHeld k : Int))) ++
  (List.range 7).map (fun p => (accKey 7 p, (s.poolAlloc p : Int))) ++
  (s.tmg.queues.filter (fun e => decide (e.1 < 4352))).map (fun e => (accKey 8 e.1, (e.2.length : Int))) ++
  (List.range 5).flatMap (fun k =>
    [(accKey 9 (2 * k), (s.bucketSum k 24 : Int)), (accKey 9 (2 * k + 1), (s.bucketSum k 28 : Int))])

/-- Queues that an audit must look at though nothing stands on them. -/
def State.quietQueues (s : State) : List Nat :=
  ((s.sta.ledLate.filter (fun e => decide (e.1 / 2 ^ 27 = 8))).map (fun e => e.1 / 8 % 2 ^ 24)).eraseDups.filter
    (fun q => (s.tmg.queues.at [] q).isEmpty)

/-- The residents as the blocks latched them: those of now less what passed after the front. -/
def State.residentsAtCut (s : State) : SMap Int :=
  (s.residents ++ s.quietQueues.map (fun q => (accKey 8 q, (0 : Int)))).foldl (fun m e =>
    m.put 0 e.1 (e.2 - ledNet s.sta.ledLate (e.1 / 2 ^ 24) (e.1 % 2 ^ 24))) []

/-- Add terms. -/
def addTerms (m new : SMap Int) : SMap Int := new.foldl (fun m e => m.upd 0 e.1 (fun x => x + e.2)) m

/-- What the device words rose by since they were last carried over. -/
def State.wordRise (s : State) : SMap Int :=
  (List.range 0x22).foldl (fun (m : SMap Int) r =>
    m.put 0 (r + 1) ((deviceWord s.sta.cnt (r + 1) : Int) - (s.sta.wordBase.at 0 (r + 1) : Int))) []

/-- Pools with a cell that is neither linked nor awaiting a sweep, with how many (R389). -/
def State.unlinkedPools (s : State) : List (Nat × Nat) :=
  if s.b (bpmA 0x040) 2 then []
  else
    let await := if s.b (bpmA 0x040) 1 then s.orphans else []
    let os := (s.orphansAt s.clk).filter (fun h => !await.contains h)
    ((List.range 7).map (fun p => (p, (os.filter (fun h => decide (handlePool h = p))).length))).filter (fun x => decide (x.2 ≠ 0))

/-- The ledger at a front's completion: baseline, a cut for the audit, or an overrun (R391, R392). -/
def State.ledgerCut (s : State) : State :=
  let rise := s.wordRise
  let restart := s.sta.modeChg || !s.sta.oldFree
  let base : SMap Nat := if restart then [] else (List.range 0x22).foldl (fun (m : SMap Nat) r =>
    m.put 0 (r + 1) (deviceWord s.sta.cnt (r + 1))) []
  let led := s.sta.led
  let s := { s with sta := { s.sta with wordBase := base, led := s.sta.ledLate } }
  if (s.fw (staA 0x400)).getLsbD 0 = false then
    { s with sta := { s.sta with ledOn := false, ledWait := [], wordWait := [], spans := false, overran := false } }.setB (staA 0x404) 0 true
  else if s.sta.ledOn ∧ s.b (staA 0x404) 1 = true then
    let s := { s with sta := { s.sta with ledWait := addTerms s.sta.ledWait led, wordWait := addTerms s.sta.wordWait rise } }
    ({ s with sta := { s.sta with overran := true } }.bump (staA 0x42C)).report 9 18 0x2412
  else if s.regionDown 34 then
    { s with sta := { s.sta with overran := true, ledWait := addTerms s.sta.ledWait led, wordWait := addTerms s.sta.wordWait rise } }
  else
    let first := !s.sta.ledOn
    let spans := !first && s.sta.overran
    let s := forEach s.unlinkedPools s (fun s x => { s with sta := { s.sta with bpmFail := s.sta.bpmFail.put 0 x.1 x.2 } })
    let s := { s with sta := { s.sta with ledOn := true, first := first, spans := spans, overran := false, resCut := s.residentsAtCut,
                                          ledCut := addTerms s.sta.ledWait led, ledWait := [],
                                          wordCut := addTerms s.sta.wordWait rise, wordWait := [], cutTb := s.sta.frontTb } }
    (s.setB (staA 0x404) 1 true).setB (staA 0x404) 0 false

/-- A front completes: its latch becomes readable, and the ledger has its cut. -/
def State.frontComplete (s : State) : State :=
  if s.b (staA 0x040) 0 = false ∨ allPages.any (fun p => !s.sta.passed.contains p) = true then s
  else
    let bank := s.newBank
    let cnt := s.newCnt
    let t := s.sta.frontTb
    let s := s.ledgerCut
    let s := { s with sta := { s.sta with bank := bank, cnt := cnt, late := [], next := [], ledLate := [], passed := [] } }
    let s := s.setB (staA 0x040) 0 false
    let s := ((s.wr (staA 0x04C) (word ((s.rd (staA 0x04C)).toNat + 1))).wr (staA 0x050) (word t.ns)).wr (staA 0x054) (word t.sec)
    let s := s.wr (staA 0x058) (word (t.sec / 2 ^ 32 % 2 ^ 16 + t.epoch % 16 * 2 ^ 16 + s.sta.info))
    let s := s.setF (staA 0x05C) 15 0 (min 65535 (4 * (s.clk - s.sta.frontAt)))
    s.pmcStopped.irq 9 0

def execFrontComplete (s : State) : Host.Outcome State Fault Refusal := answer s s.frontComplete

/-! ### The audit (R389 to R394, R398) -/

/-- The residual of an account instance (R389). -/
def State.residual (s : State) (code inst : Nat) : Int :=
  s.sta.resPrev.at 0 (accKey code inst) + ledNet s.sta.ledCut code inst - s.sta.resCut.at 0 (accKey code inst)

/-- The account instances an audit checks: every instance of accounts 1 to 7 and 9, and each queue with anything to check. -/
def State.auditList (s : State) : List (Nat × Nat) :=
  let qs := (s.sta.ledCut.filter (fun e => decide (e.1 / 2 ^ 27 = 8))).map (fun e => e.1 / 8 % 2 ^ 24) ++
    ((s.sta.resCut ++ s.sta.resPrev).filter (fun e => decide (e.1 / 2 ^ 24 = 8))).map (fun e => e.1 % 2 ^ 24)
  ((List.range 65).map (fun p => (1, p)) ++ [(1, 65), (1, 67), (2, 0)]) ++ (List.range 8).map (fun v => (3, v)) ++
  (List.range 5).map (fun k => (4, k)) ++
  (List.range 25).map (fun i => (5, i)) ++ (List.range 100).map (fun i => (6, i)) ++ (List.range 7).map (fun p => (7, p)) ++
  qs.eraseDups.map (fun q => (8, q)) ++ (List.range 10).map (fun i => (9, i))

/-- The device condition of R389: its residual, summed over the reasons that differ. -/
def State.deviceResidual (s : State) : Int :=
  (List.range 0x22).foldl (fun (a : Int) r =>
    let r := r + 1
    let want : Int := if r = 0x1C then (List.range 25).foldl (fun (x : Int) i => x + ledTerm s.sta.ledCut 5 i 3) 0
      else if r = 0x10 then ledTerm s.sta.ledCut 2 0 3
      else ledTerm s.sta.ledCut 0 r 2
    a + ((want - s.sta.wordCut.at 0 r).natAbs : Int)) 0

/-- The failing instances of an audit with their residuals, in the order checked. -/
def State.auditFaults (s : State) : List (Nat × Nat × Int) :=
  let acc := (s.auditList.map (fun a => (a.1, a.2, s.residual a.1 a.2))).filter (fun x => decide (x.2.2 ≠ 0))
  let dev := if s.deviceResidual = 0 then [] else [(2, 0, s.deviceResidual)]
  let pool := (s.sta.bpmFail.map (fun e => (7, e.1, e.2)))
  acc ++ dev ++ pool

/-- The archive record of an audit (R398). -/
def State.archRecord (s : State) (faults : List (Nat × Nat × Int)) : List Byte :=
  let n48 := fun (z : Int) => leBytes 6 (fromSigned 48 z)
  let t := s.sta.cutTb
  let c := s.sta.ledCut
  let repl := ledTerm c 2 0 4
  let b := leBytes 4 (s.rd (staA 0x410)).toNat ++ leBytes 4 t.ns ++ leBytes 6 t.sec ++ leBytes 1 (t.epoch % 16) ++
    leBytes 1 (b2n (!faults.isEmpty) + 2 * b2n s.sta.first + 4 * b2n s.sta.spans) ++
    n48 (ledTerm c 2 0 0 - repl) ++ n48 repl ++ n48 (ledTerm c 2 0 1) ++ n48 (ledTerm c 2 0 2) ++ n48 (ledTerm c 2 0 3) ++
    n48 (s.sta.resCut.at 0 (accKey 2 0)) ++ leBytes 2 (min 65535 faults.length) ++
    leBytes 1 (match faults with | f :: _ => f.1 | [] => 0) ++ List.replicate 7 0
  b ++ leBytes 2 (crc16 b)

/-- Write an archive record: lost, its seq consumed, where the pseudo-channel is frozen. -/
def State.archWrite (s : State) (bs : List Byte) : State :=
  let seq := (s.rd (staA 0x410)).toNat
  let n := s.f (staA 0x40C) 6 0 * 32768
  if s.b (staA 0x400) 2 = false ∨ s.b (staA 0x404) 2 = true ∨ n = 0 then s
  else
    let a := s.f (staA 0x408) 13 0 * 2 ^ 21 + seq % n * 64
    let s := if s.hbmBad a then s.report 9 19 0x2413
      else ((s.hbmRequest a true (s.hbmRd a 64) (.archive seq)).hbmWr (a + 4) (bs.drop 4)).hbmWr a (bs.take 4)
    s.wr (staA 0x410) (word (seq + 1))

/-- The audit engine checks the cut and reports. -/
def State.audit (s : State) : State :=
  if s.b (staA 0x404) 1 = false ∨ s.regionDown 34 = true ∨ s.alive = false then s
  else
    let faults := if s.sta.first then [] else s.auditFaults
    let s := if s.sta.first then s else s.bump (staA 0x424)
    let rec_ := s.archRecord faults
    let s := forEach faults s (fun s x => s.ledgerFault x.1 x.2.1 x.2.2)
    let s := s.archWrite rec_
    let s := if faults.isEmpty = false ∧ s.b (staA 0x400) 1 = true then s.setB (staA 0x404) 2 true else s
    let s := { s with sta := { s.sta with resPrev := s.sta.resCut, ledCut := [], resCut := [], wordCut := [], bpmFail := [] } }
    s.setB (staA 0x404) 1 false

def execLedgerAudit (s : State) : Host.Outcome State Fault Refusal := answer s s.audit

/-- R394: a write of 1 to STA_LED_STATUS.frozen; the next audit writes its record again. -/
def execLedgerUnfreeze (s : State) : Host.Outcome State Fault Refusal :=
  answer s (s.hostWriteWith (staA 0x404) 4 true (fun _ s => s))

/-! ### Bandwidth windows (R413) -/

/-- A window of one side of a port ends: 0 receive, 1 transmit. -/
def State.bwEnd (s : State) (p side : Nat) : State :=
  let n : Nat := if side = 0 then s.sta.bwRx.at 0 p else s.sta.bwTx.at 0 p
  let x := s.sta.bwPk.at (0, 0) (2 * p + side)
  { s with sta := { s.sta with bwPk := s.sta.bwPk.put (0, 0) (2 * p + side) (max x.1 n, n),
                               bwRx := if side = 0 then s.sta.bwRx.put 0 p 0 else s.sta.bwRx,
                               bwTx := if side = 1 then s.sta.bwTx.put 0 p 0 else s.sta.bwTx } }

def execBwWindowEnd (port : AnyPort) (tx : Bool) (s : State) : Host.Outcome State Fault Refusal :=
  answer s (if s.alive then s.bwEnd port.val (b2n tx) else s)

/-! ### The global stop (R419) -/

/-- A stop is requested, unless one is pending or in force. -/
def State.pmcStop (s : State) : State :=
  if s.b (pmcA 0x040) 1 ∨ s.b (pmcA 0x040) 0 = true ∨ s.sta.pmcHeld.isEmpty = false then
    s.setB (pmcA 0x044) 8 (s.b (pmcA 0x040) 1)
  else (s.setB (pmcA 0x044) 8 true).setB (pmcA 0x040) 1 true

def execPmcStopRequest (s : State) : Host.Outcome State Fault Refusal :=
  answer s (s.hostWriteWith (pmcA 0x044) (s.rd (pmcA 0x044) ||| word 256) true (fun _ s => s.pmcStop))

/-- Clearing PMC_STATUS.stopped: the next front resumes the counters. -/
def execPmcResume (s : State) : Host.Outcome State Fault Refusal :=
  answer s (s.hostWriteWith (pmcA 0x040) 1 true (fun _ s => s))

end Sys2Proof.Machine
end

