-- ==== Sys2Proof/Machine/Secure.lean ====
section
/-! DEFINITION. Domains and the SEC block (chapter 19) without the warden's commands: OTP and seal states, allocation, root-key
hashes, zeroization, and MSC indirect access. -/

namespace Sys2Proof.Machine

/-! ### OTP (R430) -/

/-- The OTP of the generation in use. -/
def State.otpNow (s : State) : OtpGen := s.sec.otp.getD s.sec.gen {}
def State.setOtp (s : State) (o : OtpGen) : State := { s with sec := { s.sec with otp := setAt s.sec.otp s.sec.gen o } }

/-- SEC_STATUS and SEC_DOM_CFG[d].kek show the OTP. -/
def State.showOtp (s : State) : State :=
  let o := s.otpNow
  let roots := sumBy (fun (e : Nat × List Byte) => 2 ^ e.1) o.roots
  let s := ((s.setF (secA 0x040) 1 0 o.fuses).setF (secA 0x040) 5 4 s.sec.gen).setB (secA 0x040) 9 o.taint
  let s := s.setF (secA 0x040) 31 16 roots
  forEach (List.range 16) s (fun s d => s.setB (secA (0x0C0 + 4 * d)) 9 (!(o.keks.at [] d).isEmpty))

/-! ### Allocation (R426, R428, R429) -/

/-- Items of a kind's resource in a unit; none where the unit is not valid (R428). -/
def kindItems (kind u : Nat) : Option Nat :=
  let one := fun (n : Nat) => if u = 0 then some n else none
  let per := fun (lim n : Nat) => if u < lim then some n else none
  match kind with
  | 0x01 => one 1024
  | 0x02 => one 1024
  | 0x03 => one 5120
  | 0x04 => one 64
  | 0x05 => one 544
  | 0x06 => one 24
  | 0x07 => per 5 (meterCount u)
  | 0x08 => per 5 4096
  | 0x09 => per 5 4096
  | 0x0A => per 5 256
  | 0x0B => per 5 4096
  | 0x0C => per 5 1024
  | 0x0D => one 16384
  | 0x0E => one 4096
  | 0x0F => if u = 0 ∨ (4 ≤ u ∧ u ≤ 8) then some (entCount u) else none
  | 0x10 => per 64 64
  | 0x11 => per 64 64
  | 0x12 => per 16 256
  | 0x13 => one 4096
  | 0x14 => per 5 16128
  | _ => none

/-- Kinds whose count is a quota, not a range. -/
def isQuota (kind : Nat) : Bool := decide (kind = 0x0F ∨ kind = 0x14)

/-- Indices of a kind's resource that do not exist inside it: port 64's queue IDs and gate groups (R309, R310). -/
def kindHole (kind : Nat) : Nat × Nat := if kind = 3 then (4096, 64) else if kind = 5 then (512, 8) else (0, 0)

/-- An entry as laid out in R428. -/
def allocOf (b : List Byte) : Alloc :=
  { kind := leAt b 0 1, dom := leAt b 1 1 % 16, unit_ := leAt b 2 2, first := leAt b 4 4, count := leAt b 8 4 }

/-- Order 2 of R429 for one entry. -/
def State.allocValid (s : State) (b : List Byte) : Bool :=
  let a := allocOf b
  match kindItems a.kind a.unit_ with
  | none => false
  | some n =>
    let h := kindHole a.kind
    decide (leAt b 1 1 / 16 = 0 ∧ leAt b 12 4 = 0 ∧ 1 ≤ a.dom) && s.b (secA (0x0C0 + 4 * a.dom)) 0 &&
      (if isQuota a.kind then decide (a.count ≤ n)
       else decide (a.first + a.count ≤ n) && !overlap a.first a.count h.1 h.2)

/-- Order 3 of R429: whether two entries overlap. -/
def allocsMeet (a b : Alloc) : Bool :=
  decide (a.kind = b.kind ∧ a.unit_ = b.unit_) &&
    (if isQuota a.kind then decide (a.dom = b.dom) else overlap a.first a.count b.first b.count)

/-- Whether any two entries of a list overlap. -/
def anyMeet : List Alloc → Bool
  | [] => false
  | a :: as => as.any (allocsMeet a) || anyMeet as

/-- Ceilings of a group beside D0's reserves stay within R281. -/
def State.ceilingsOk (s : State) (as : List Alloc) : Bool :=
  let d0 := sumBy (fun k => s.f (bpmA (0x200 + 64 * k)) 13 0) (List.range 5)
  (List.range 5).all (fun e => decide (d0 + sumBy (fun (a : Alloc) => if a.kind = 0x14 ∧ a.unit_ = e then a.count else 0) as ≤ 16128))

/-- Order 4 of R429: whether an item is in use. -/
def State.itemBusy (s : State) (kind u i : Nat) : Bool :=
  let en := fun (v bitNo : Nat) => decide (bitsOf v bitNo bitNo = 1)
  match kind with
  | 0x01 => s.ringFlag i 0
  | 0x02 => s.ringFlag (1024 + i) 0
  | 0x03 => en (s.qLE i 0 1) 0
  | 0x04 => s.b (tgsA (i / 16) (0x100 + 32 * (i % 16))) 0
  | 0x06 => bit (s.lpmCtl i) 31
  | 0x07 => en (s.winLE (meterA u i + 18) 1) 0
  | 0x08 => en (s.winLE (filterA u i) 1) 0
  | 0x09 => en (s.winLE (gateA u i) 1) 0
  | 0x0A => en (s.winLE (schedA u i + 10) 1) 7
  | 0x0B => en (s.winLE (seqA u i + 2) 1) 0
  | 0x0C => en (leAt (s.rsqEnt u 1 i) 0 1) 0
  | 0x0D => entValid 9 (s.ent 0 9 i)
  | 0x0E => entValid 10 (s.ent 0 10 i)
  | 0x10 => scValid (s.mscEnt (u / 4) 0 (64 * (u % 4) + i))
  | 0x11 => scValid (s.mscEnt (u / 4) 1 (64 * (u % 4) + i))
  | 0x12 => en (leAt (s.mscEnt u 2 i) 0 1) 0
  | 0x13 => !(entVers 1 0 (s.ent 0 1 i)).isEmpty
  | _ => false

/-- A byte whose low or high four bits become `d`. -/
def nib (v : Byte) (high : Bool) (d : Nat) : Byte :=
  if high then BitVec.ofNat 8 (v.toNat % 16 + 16 * d) else BitVec.ofNat 8 (v.toNat / 16 * 16 + d)
def State.nibWin (s : State) (a : Nat) (high : Bool) (d : Nat) : State := s.winWr a [nib (s.win.at 0 a) high d]
/-- The owner of an entry of a table, in every copy. -/
def State.nibEnt (s : State) (t i off d : Nat) : State :=
  let e := s.ent 0 t i
  s.setEnt t i (putBytes e off [nib (e.getD off 0) false d])
def State.nibMsc (s : State) (q t i off d : Nat) : State :=
  let e := s.mscEnt q t i
  s.mscPut q t i (putBytes e off [nib (e.getD off 0) false d])

/-- Stamp an owner (R428). -/
def State.stampItem (s : State) (kind u i d : Nat) : State :=
  match kind with
  | 0x01 => s.nibWin (ringA i + 9) false d
  | 0x02 => s.nibWin (ringA (1024 + i) + 9) false d
  | 0x03 => s.nibWin (qA i + 1) false d
  | 0x04 => s.setF (tgsA (i / 16) (0x300 + 4 * (i % 16))) 3 0 d
  | 0x05 => s.nibWin (0x2100000 + 32 * i + 1) false d
  | 0x06 => s.setF (tblA (0x100 + 4 * i)) 27 24 d
  | 0x07 => s.nibWin (meterA u i + 19) false d
  | 0x08 => s.nibWin (filterA u i + 1) false d
  | 0x09 => s.nibWin (gateA u i + 1) false d
  | 0x0A => s.nibWin (schedA u i + 11) true d
  | 0x0B => s.nibWin (seqA u i + 3) false d
  | 0x0C => s.setRsqEnt u 1 i (putBytes (s.rsqEnt u 1 i) 1 [nib ((s.rsqEnt u 1 i).getD 1 0) false d])
  | 0x0D => s.nibEnt 9 i 1 d
  | 0x0E => s.nibEnt 10 i 1 d
  | 0x10 => s.nibMsc (u / 4) 0 (64 * (u % 4) + i) 9 d
  | 0x11 => s.nibMsc (u / 4) 1 (64 * (u % 4) + i) 9 d
  | 0x12 => s.nibMsc u 2 i 1 d
  | _ => s

/-- The digest of R429: SEC_DOM_CFG[0..15] as the host may write them, little-endian, then the entries. -/
def State.allocDigest (s : State) (list : List Byte) : List Byte :=
  Crypto.sha384 ((List.range 16).flatMap (fun d => leBytes 4 (s.f (secA (0x0C0 + 4 * d)) 1 0)) ++ list)

/-- The allocation list in host memory. -/
def State.allocList (s : State) : List Byte :=
  s.hostRd ((s.rd (secA 0x050)).toNat * 2 ^ 32 + (s.rd (secA 0x04C)).toNat) (16 * s.f (secA 0x054) 12 0)

/-- The result of the checks of R429 in their order; 1 when all pass. `otpOk`: an OTP write, where one is made, holds. -/
def State.allocCheck (s : State) (list : List Byte) (otpOk : Bool) : Nat :=
  let es := (List.range (list.length / 16)).map (fun n => slice list (16 * n) 16)
  let as := es.map allocOf
  if s.b (secA 0x040) 8 then 4
  else if es.any (fun e => !s.allocValid e) then 2
  else if anyMeet as ∨ s.ceilingsOk as = false then 2
  else if as.any (fun a => !isQuota a.kind && (List.range a.count).any (fun i => s.itemBusy a.kind a.unit_ (a.first + i))) then 2
  else if s.sealState ≠ 0 ∧ s.allocDigest list ≠ s.otpNow.digest then 3
  else if s.sealState = 0 ∧ otpOk = false then 6
  else 1

/-- An allocation that passed: owners stamped; in Open the digest is fused and the state becomes Allocated; loaded sets. -/
def State.allocate (s : State) (list : List Byte) : State :=
  let as := (List.range (list.length / 16)).map (fun n => allocOf (slice list (16 * n) 16))
  let dg := s.allocDigest list
  let s := forEach (as.filter (fun a => !isQuota a.kind)) s (fun s a =>
    forEach (List.range a.count) s (fun s i => s.stampItem a.kind a.unit_ (a.first + i) a.dom))
  let s := { s with sec := { s.sec with allocs := as } }
  let s := if s.sealState = 0 then s.setOtp { s.otpNow with fuses := 1, digest := dg } else s
  let s := forEach (List.range 12) s (fun s w => s.wr (secA (0x180 + 4 * w)) (word (beAt dg (4 * w) 4)))
  (s.setB (secA 0x040) 8 true).showOtp

/-! ### The doorbell (R429, R431, R454) -/

/-- An operation starts: its result is shown when it completes. -/
def State.bellStart (s : State) (op slot result : Nat) : State :=
  { s.wr (secA 0x048) (word (2 ^ 31)) with sec := { s.sec with bell := (op, slot, result) } }

/-- Op allocate of a list. -/
def State.runAllocate (s : State) (list : List Byte) (otpOk : Bool) : Nat × State :=
  let r := s.allocCheck list otpOk
  (r, if r = 1 then s.allocate list else s)

/-- Op program root hash: result 4 when Sealed, 5 when the slot holds one (R431). -/
def State.runRootHash (s : State) (slot alg : Nat) (otpOk : Bool) : Nat × State :=
  let o := s.otpNow
  if s.sealState = 2 then (4, s)
  else if (o.roots.at [] slot).isEmpty = false then (5, s)
  else if otpOk = false then (6, s)
  else
    let h := (List.range 12).flatMap (fun w => beBytes 4 (s.rd (secA (0x140 + 4 * w))).toNat)
    (1, (s.setOtp { o with roots := o.roots.put [] slot h, algs := o.algs.put 0 slot alg }).showOtp)

/-- The effect of an accepted SEC_DOORBELL write. -/
def State.doorbell (s : State) (op slot alg : Nat) (otpOk : Bool) : State :=
  let (r, s) := if op = 1 then s.runAllocate s.allocList otpOk else s.runRootHash slot alg otpOk
  s.bellStart op slot r

def execSecAllocate (otpOk : Bool) (s : State) : Host.Outcome State Fault Refusal :=
  answer s (s.hostWriteWith (secA 0x044) 1 true (fun _ s => s.doorbell 1 0 0 otpOk))

def execSecProgramRootHash (slot : Dom) (alg : BitVec 2) (otpOk : Bool) (s : State) : Host.Outcome State Fault Refusal :=
  answer s (s.hostWriteWith (secA 0x044) (word (2 + slot.val * 256 + alg.toNat * 4096)) true
    (fun _ s => s.doorbell 2 slot.val alg.toNat otpOk))

/-- R455: the operation in progress completes. -/
def State.bellDone (s : State) : State :=
  if s.b (secA 0x048) 31 = false then s
  else
    let (op, slot, r) := s.sec.bell
    (s.wr (secA 0x048) (word r)).report 11 2 0x2C03 op r (if op = 2 then slot else 0)

def execDoorbellComplete (s : State) : Host.Outcome State Fault Refusal := answer s s.bellDone

/-! ### Sealing (R430, R456) -/

/-- The effect of an accepted TOP_SEAL_CMD. -/
def State.sealStart (s : State) : State := s.wr (topA 0x344) (word (2 ^ 31))

def execSeal (s : State) : Host.Outcome State Fault Refusal :=
  answer s (s.hostWriteWith (topA 0x340) 1 true (fun _ s => s.sealStart))

/-- Fusing completes, or its OTP write fails and changes nothing. -/
def State.sealDone (s : State) (otpOk : Bool) : State :=
  if s.b (topA 0x344) 31 = false then s
  else if otpOk then
    ((s.setOtp { s.otpNow with fuses := 2 }).showOtp.wr (topA 0x344) 1).report 0 20 0x0014
  else s.wr (topA 0x344) 2

def execSealComplete (otpOk : Bool) (s : State) : Host.Outcome State Fault Refusal := answer s (s.sealDone otpOk)

/-! ### Zeroization (R444) -/

/-- SAs that hold anything, as (quad, index). -/
def State.listedSas (s : State) : List (Nat × Nat) :=
  ((s.sec.msc.filter (fun e => decide (e.1 / 0x10000 % 16 = 2))).map (fun e => (e.1 / 0x100000, e.1 % 0x10000 / 64))).eraseDups

/-- Zeroize one SA: its key is overwritten and it becomes invalid. -/
def State.zeroSa (s : State) (q i : Nat) : State :=
  let e := s.mscEnt q 2 i
  let s := s.mscPut q 2 i (putBytes (putBytes e 0 [BitVec.ofNat 8 (leAt e 0 1 / 2 * 2)]) 32 (List.replicate 32 0))
  { s with sec := { s.sec with thrSaid := s.sec.thrSaid.filter (fun k => decide (k ≠ q * 256 + i)) } }

def State.tenantSas (s : State) : List (Nat × Nat) := s.listedSas.filter (fun x => decide (leAt (s.mscEnt x.1 2 x.2) 1 1 % 16 ≠ 0))

/-- Zeroize every tenant SA, or every SA, for a cause of R444. -/
def State.zeroize (s : State) (every : Bool) (cause : Nat) : State :=
  let sas := if every then s.listedSas else s.tenantSas
  (forEach sas s (fun s x => s.zeroSa x.1 x.2)).report 11 3 0x2C04 (Config.zeroizeCause cause)

/-- R444: a debug unlock, or a session opened while a tenant SA is valid. -/
def State.debugTaint (s : State) : State := ((s.zeroize false 2).setOtp { s.otpNow with taint := true }).showOtp

/-! ### MSC indirect access (R451, R452) -/

def mscCountOf (t : Nat) : Nat := if t = 3 then 512 else 256

/-- The owner of an entry. -/
def State.mscOwner (s : State) (q t i : Nat) : Nat :=
  match t with
  | 2 => leAt (s.mscEnt q 2 i) 1 1 % 16
  | 3 => scOwner (s.mscEnt q (if i < 256 then 0 else 1) (i % 256))
  | t => scOwner (s.mscEnt q t i)

/-- err 1 of a write: a field out of range or a reserved bit set. -/
def mscBad (t : Nat) (b : List Byte) : Bool :=
  match t with
  | 0 => decide (96 ≤ leAt b 8 1 % 128 ∨ 128 ≤ leAt b 8 1 ∨ leAt b 8 1 / 4 % 8 ≠ 0 ∨ 16 ≤ leAt b 9 1 ∨ leAt b 10 2 ≠ 0 ∨ 16 ≤ leAt b 20 1) ||
    (b.drop 21).any (fun x => decide (x ≠ 0))
  | 1 => decide (96 ≤ leAt b 8 1 % 128 ∨ 128 ≤ leAt b 8 1 ∨ 16 ≤ leAt b 9 1 ∨ 4 ≤ leAt b 10 1 ∨ leAt b 11 5 ≠ 0 ∨ 16 ≤ leAt b 20 1) ||
    (b.drop 21).any (fun x => decide (x ≠ 0))
  | 2 => decide (16 ≤ leAt b 0 1 ∨ 16 ≤ leAt b 1 1 ∨ leAt b 2 2 ≠ 0)
  | _ => false

/-- An entry as a read shows it: key bytes as zeros (R443), and zeros throughout for another's sealed view (R427). -/
def State.mscShow (s : State) (q t i d : Nat) : List Byte :=
  let own := s.mscOwner q t i
  let e := s.mscEnt q t i
  if own ≠ d ∧ s.sec.views.contains own then List.replicate 64 0 else if t = 2 then slice (e.take 32) 0 64 else e

/-- Write an entry for a domain (0 the host): err of R452 and the state. A tenant writes no key bytes (R437). -/
def State.mscWrite (s : State) (q t i d : Nat) (b : List Byte) : Nat × State :=
  let old := s.mscEnt q t i
  let newOwner := match t with | 2 => leAt b 1 1 % 16 | 3 => s.mscOwner q t i | _ => scOwner b
  if mscCountOf t ≤ i ∨ mscBad t b = true then (1, s)
  else if s.mscOwner q t i ≠ d ∨ newOwner ≠ d then (2, s)
  else if d = 0 ∧ (t = 3 ∨ (t = 2 ∧ leAt old 0 1 % 2 = 1 ∧ saPn b ≠ saPn old)) then (3, s)
  else if t = 3 then (0, s.mscPut q 3 i (List.replicate 64 0))
  else
    let b := if t = 2 ∧ d ≠ 0 then putBytes b 32 (old.drop 32) else b
    let s := if t = 2 then { s with sec := { s.sec with thrSaid := s.sec.thrSaid.filter (fun k => decide (k ≠ q * 256 + i)) } } else s
    (0, s.mscPut q t i b)

/-- MSC_IND_DATA as bytes, and bytes put into it. -/
def State.mscData (s : State) (q : Nat) : List Byte :=
  (List.range 16).flatMap (fun w => leBytes 4 (s.rd (mscA q (0x0C0 + 4 * w))).toNat)
def State.setMscData (s : State) (q : Nat) (b : List Byte) : State :=
  forEach (List.range 16) s (fun s w => s.wr (mscA q (0x0C0 + 4 * w)) (word (leAt b (4 * w) 4)))

/-- A go of MSC_IND_CTL starts the access. -/
def State.mscGo (s : State) (q : Nat) : State := (s.setB (mscA q 0x048) 24 false).setB (mscA q 0x048) 31 true

def State.mscStart (s : State) (q t i : Nat) (write : Bool) : State :=
  s.hostFar (mscA q 0x048) (word (2 ^ 24 + b2n write * 2 ^ 20 + t * 65536 + i)) (fun _ s => s.mscGo q)

def execMscIndRead (quad : Quad) (target : Fin 4) (index : BitVec 9) (s : State) : Host.Outcome State Fault Refusal :=
  answer s (s.mscStart quad.val target.val index.toNat false)

def execMscIndWrite (quad : Quad) (target : Fin 4) (index : BitVec 9) (s : State) : Host.Outcome State Fault Refusal :=
  answer s (s.mscStart quad.val target.val index.toNat true)

/-- The access in progress completes. -/
def State.mscDone (s : State) (q : Nat) : State :=
  let c := s.rd (mscA q 0x048)
  if bit c 31 = false then s
  else
    let t := fld c 17 16
    let i := fld c 8 0
    let (err, s) :=
      if bit c 20 then s.mscWrite q t i 0 (s.mscData q)
      else if mscCountOf t ≤ i then (1, s)
      else (0, s.setMscData q (s.mscShow q t i 0))
    (s.setB (mscA q 0x048) 31 false).setF (mscA q 0x048) 29 28 err

def execMscIndDone (quad : Quad) (s : State) : Host.Outcome State Fault Refusal := answer s (s.mscDone quad.val)

end Sys2Proof.Machine
end

