-- ==== Sys2Proof/Machine/Island.lean ====
section
/-! DEFINITION. The Neltus metrology island (chapter 20): samples, classes, periods, records and their storage, port 65, the
mailbox, time, hold, sealing, and the window registers. Its state outlives every reset of the switch (R460). -/

namespace Sys2Proof.Machine

/-- A change of the island's state. -/
def State.onIsl (s : State) (f : Isl → Isl) : State := { s with isl := f s.isl }

/-- Island time in ns: its own clock runs in hold and in the Lull state (R460). -/
def State.islNow (s : State) : Nat := s.isl.base + 4 * (s.clk - s.isl.baseAt)
def State.setIslTime (s : State) (ns : Nat) : State := s.onIsl (fun x => { x with base := ns, baseAt := s.clk })

/-- Seconds in ns; the index of the period at a time (R469). -/
def secNs : Nat := 1000000000
def periodAt (ns : Nat) : Nat := ns / (300 * secNs)

/-- The island measures: started and not in hold. -/
def State.islOn (s : State) : Bool := s.isl.run && !s.isl.hold

def Isl.circ (x : Isl) (c : Nat) : IslCirc := x.circs.getD c {}
def Isl.setCirc (x : Isl) (c : Nat) (v : IslCirc) : Isl := { x with circs := setAt x.circs c v }
/-- Set a common flag of the period in progress (R471). -/
def Isl.flag (x : Isl) (b : Nat) : Isl := { x with flags := x.flags ||| 2 ^ b }

/-! ### Configuration (R481) -/

def Isl.enabled (x : Isl) (c : Nat) : Bool := decide (bitsOf (beAt x.cfg 1 1) (4 + c) (4 + c) = 1)
def Isl.cfgN (x : Isl) (c off n : Nat) : Nat := beAt x.cfg (24 * c + off) n

/-- Whether a configuration body obeys R481. -/
def cfgOk (b : List Byte) : Bool :=
  let signedOk := fun (off : Nat) => let z := toSigned 24 (beAt b off 3); decide (-2097152 ≤ z ∧ z ≤ 2097152)
  decide (beAt b 0 1 = 1 ∧ 1 ≤ beAt b 14 2 % 4096 ∧ beAt b 14 2 % 4096 ≤ 4094 ∧ beAt b 14 2 < 32768 ∧ beAt b 16 1 < 8 ∧
    beAt b 17 1 = 0 ∧ 1 ≤ beAt b 18 2 ∧ beVal (slice b 20 12) = 0) &&
  (List.range 4).all (fun c =>
    decide (1 ≤ beAt b (32 + 24 * c) 3 ∧ beAt b (32 + 24 * c) 3 < 2 ^ 20 ∧ beAt b (35 + 24 * c) 3 < 2 ^ 20 ∧
      beVal (slice b (51 + 24 * c) 5) = 0) && signedOk (38 + 24 * c) && signedOk (41 + 24 * c))

/-! ### Modulator clocks and filters (R463, R464) -/

/-- The modulator clock of a circuit in Hz: A serves circuits 0 and 1, B serves 2 and 3 (R461, R463). -/
def Isl.mclk (x : Isl) (c : Nat) : Nat := 4096000 * (1 + (if c < 2 then beAt x.cfg 1 1 % 4 else beAt x.cfg 1 1 / 4 % 4))

/-- The oversampling ratio: modulator clocks in a sample at 8,000 samples per second. -/
def Isl.osr (x : Isl) (c : Nat) : Nat := x.mclk c / 8000

/-- The weight that a sinc3 decimator of ratio `r` gives the bit `j` clocks back: how many ways three numbers below `r` add up
to it. -/
def sincWeight (r j : Nat) : Int :=
  let t := fun (k : Nat) => if k * r ≤ j then (((j - k * r + 2) * (j - k * r + 1) / 2 : Nat) : Int) else 0
  t 0 - 3 * t 1 + 3 * t 2 - t 3

/-- The decimator's output over the newest bits of a stream, r³ at full scale. -/
def sinc3 (r : Nat) (bs : List Bool) : Int :=
  (bs.take (3 * r - 2)).zipIdx.foldl (fun (a : Int) p => if p.1 then a + sincWeight r p.2 else a - sincWeight r p.2) 0

/-- An input's sample over the newest bits of its stream: decimated and compensated, −1 to just below +1 in 2^−23. -/
def filterOut (r : Nat) (bs : List Bool) : Int :=
  max (-(2 ^ 23)) (min (2 ^ 23 - 1) (Config.compensate r ((List.range 32).map (fun k => sinc3 r (bs.drop (k * r))))))

/-- How many clocks each input of a circuit is delayed: the current by delay_c, or the voltage when it is negative (R463). -/
def Isl.delays (x : Isl) (c : Nat) : Nat × Nat :=
  let d := toSigned 8 (x.cfgN c 50 1)
  ((-d).toNat, d.toNat)

/-- The samples, voltage and current, that the bits of both inputs add to a circuit's streams; bits oldest first. -/
def Isl.samples (x : Isl) (c : Nat) (vb ib : List Bool) : List (Int × Int) :=
  let r := x.osr c
  let st := x.streams.at {} c
  let (dv, di) := x.delays c
  let vs := vb.reverse ++ st.v
  let is := ib.reverse ++ st.i
  let n := vb.length / r
  (List.range n).map (fun k => (filterOut r (vs.drop ((n - 1 - k) * r + dv)), filterOut r (is.drop ((n - 1 - k) * r + di))))

/-- Both filters of a circuit hold valid data 5 ms after they are clocked (R464). -/
def Isl.filtersValid (x : Isl) (c : Nat) : Bool := decide (40 * x.osr c ≤ (x.streams.at {} c).clocks)

/-! ### Energy (R465 to R467) -/

/-- A sample of one input with its gain, offset and scale applied (R465): v in 2^−45 V, i in 2^−45 × 0.01 A. -/
def Isl.sampleOf (x : Isl) (c scale goff ooff : Nat) (v : Int) : Int :=
  (x.cfgN c scale 3 : Int) * (2 ^ 22 + toSigned 24 (x.cfgN c goff 3)) * (v - toSigned 24 (x.cfgN c ooff 3))

/-- v and i of a sample. -/
def Isl.measured (x : Isl) (c : Nat) (p : Int × Int) : Int × Int := (x.sampleOf c 32 38 44 p.1, x.sampleOf c 35 41 47 p.2)

/-- Σ v × i over samples. -/
def sumVI (xs : List (Int × Int)) : Int := xs.foldl (fun (a : Int) p => a + p.1 * p.2) 0

/-- Σ p × 125 µs over a window in units of 2^−20 mWh as a quotient: 1 mWh is 3.6 J, the current counts in 0.01 A. -/
def windowNum (xs : List (Int × Int)) : Int := sumVI xs * 125
def windowDen : Nat := 360000000 * 2 ^ 70

/-- A quotient in whole units; which of the two neighbours it takes is a free value. -/
def roundFree (n : Int) (d : Nat) : Int := n / d + (if n % d ≠ 0 ∧ Config.islandRoundUp n d = true then 1 else 0)

/-- Whether an input of a circuit is in fault (R466). -/
def Isl.inFault (x : Isl) (c : Nat) : Bool := x.faulty.contains (2 * c) || x.faulty.contains (2 * c + 1)

/-- Whether a number of samples is a window of a circuit (R467). -/
def Isl.windowOf (x : Isl) (c n : Nat) : Bool :=
  if (x.circ c).cls = 1 ∨ (x.circ c).cls = 2 then decide (1 ≤ n ∧ n ≤ 800) else decide (n = 80)

/-- Bits of a circuit's inputs, oldest first, each sampled on the rising edge of its clock. Once its filters are valid they
make samples of the window and the second in progress; those of an input in fault are taken as 0, and one at 0.98 or more of
full scale sets over-range (R466). -/
def Isl.bitsIn (x : Isl) (c : Nat) (vb ib : List Bool) : Isl :=
  let st := x.streams.at {} c
  let keep := 34 * x.osr c + 128
  let raw := if x.filtersValid c then x.samples c vb ib else []
  let ovr := raw.any (fun p => decide (49 * 2 ^ 23 ≤ 50 * p.1.natAbs ∨ 49 * 2 ^ 23 ≤ 50 * p.2.natAbs))
  let xs := raw.map (fun p => if x.inFault c then (0, 0) else x.measured c p)
  let st' := { st with clocks := st.clocks + vb.length, v := (vb.reverse ++ st.v).take keep, i := (ib.reverse ++ st.i).take keep,
                       win := st.win ++ xs, sec := st.sec ++ xs }
  let ci := x.circ c
  { x with streams := x.streams.put {} c st' }.setCirc c { ci with fault := ci.fault || x.inFault c, overR := ci.overR || ovr }

/-- Whether bits of a circuit come in whole samples. -/
def Isl.bitsOk (x : Isl) (c : Nat) (vb ib : List Bool) : Bool :=
  decide (vb.length = ib.length ∧ vb.length % x.osr c = 0)

/-- The window in progress of a circuit closes: w goes into its accumulator; energy pulses. -/
def State.islWindowSum (s : State) (c : Nat) : State :=
    let x := s.isl
    let ci := x.circ c
    let st := x.streams.at {} c
    let w := roundFree (windowNum st.win) windowDen
    let ci := if 0 ≤ w then { ci with cons := (ci.cons + w.toNat) % 2 ^ 64 } else { ci with regen := (ci.regen + w.natAbs) % 2 ^ 64 }
    let s := s.onIsl (fun x => { x with streams := x.streams.put {} c { st with win := [] } }.setCirc c ci)
    let cfg16 := beAt x.cfg 16 1
    if cfg16 / 4 % 2 = 1 ∧ cfg16 % 4 = c ∧ 0 < w then
      let unit := beAt x.cfg 18 2 * 1000 * 2 ^ 20
      let tot := x.pulse + w.toNat
      let s := s.onIsl (fun x => { x with pulse := tot % max unit 1 })
      if unit ≤ tot then s.emit (.islPulse (tot / max unit 1)) else s
    else s

/-- The bits of a circuit's inputs up to the end of a window; samples that make no window of R467 wait for its close. -/
def State.islWindow (s : State) (c : Nat) (vb ib : List Bool) : State :=
  if s.islOn = false ∨ s.isl.bitsOk c vb ib = false then s
  else
    let s := s.onIsl (fun x => x.bitsIn c vb ib)
    if s.isl.windowOf c ((s.isl.streams.at {} c).win.length) then s.islWindowSum c else s

/-- The modulator clocks stop or change: the windows in progress close with the samples they have, and the filters start
afresh. -/
def State.islStop (s : State) : State :=
  (forEach (List.range 4) s (fun s c => if (s.isl.streams.at {} c).win.isEmpty then s else s.islWindowSum c)).onIsl
    (fun x => { x with streams := [] })

/-- `bits`: the bits of the voltage and of the current input up to the close. -/
def execIslWindowClose (circuit : Fin 4) (bits : List Bool × List Bool) (s : State) : Host.Outcome State Fault Refusal :=
  answer s (s.islWindow circuit.val bits.1 bits.2)

/-- R466: an input's bitstream has stood still for 64 clocks, or changes again. -/
def State.islInput (s : State) (i : Nat) (bad : Bool) : State :=
  if s.islOn = false then s
  else
    let s := s.onIsl (fun x => { x with faulty := if bad then (i :: x.faulty).eraseDups else x.faulty.filter (fun j => decide (j ≠ i)) })
    if bad then s.onIsl (fun x =>
      { x with streams := x.streams.upd {} (i / 2) (fun st => { st with bad := true }) }.setCirc (i / 2) { x.circ (i / 2) with fault := true })
    else s

def execIslInputFault (input : Fin 8) (bad : Bool) (s : State) : Host.Outcome State Fault Refusal :=
  answer s (s.islInput input.val bad)

/-! ### Classes (R468) -/

/-- The positive-going zero crossings of samples: the index of the first sample at 0 or above after one below, with the two. -/
def crossings (xs : List Int) : List (Nat × Int × Int) :=
  ((xs.zip (xs.drop 1)).zipIdx.filter (fun e => decide (e.1.1 < 0 ∧ 0 ≤ e.1.2))).map (fun e => (e.2, e.1.1, e.1.2))

/-- Whether the frequency of samples at 8,000 per second lies from `lo` to `hi` tenths of a Hz: whole cycles between the first
and the last crossing over the time between them, each crossing placed on the line between its two samples. -/
def freqIn (xs : List Int) (lo hi : Nat) : Bool :=
  let cs := crossings xs
  match cs with
  | [] | [_] => false
  | a :: rest =>
    let z := rest.getLast?.getD a
    let da := a.2.2 - a.2.1
    let dz := z.2.2 - z.2.1
    let span := ((z.1 : Int) - a.1) * da * dz - z.2.1 * da + a.2.1 * dz
    let cyc := 80000 * (rest.length : Int) * da * dz
    decide ((lo : Int) * span ≤ cyc ∧ cyc ≤ (hi : Int) * span)

/-- The class of a second's voltage samples in 2^−45 V: with N samples, Vm is their sum over N, and Vr² the sum of their
squares over N. -/
def classOf (xs : List Int) : Nat :=
  let n : Int := xs.length
  let sum := xs.foldl (fun (a : Int) v => a + v) 0
  let sq := xs.foldl (fun (a : Int) v => a + v * v) 0
  let m : Int := sum.natAbs
  let dc := fun (lo hi : Int) => decide (81 * n * sq ≤ 100 * m * m ∧ lo * n * 2 ^ 45 ≤ m ∧ m ≤ hi * n * 2 ^ 45)
  let ac := fun (lo hi : Int) => decide (100 * m * m < n * sq ∧ lo * lo * n * 2 ^ 90 ≤ sq ∧ sq ≤ hi * hi * n * 2 ^ 90)
  if sq < 500 * 500 * n * 2 ^ 90 then 0
  else if dc 1000 1950 then 4
  else if dc 2000 3900 then 3
  else if ac 11000 18000 && freqIn xs 153 174 then 2
  else if ac 17500 29000 && freqIn xs 470 530 then 1
  else 5

/-- The square root of a number below 2^128, rounded down. -/
def isqrt (n : Nat) : Nat :=
  (List.range 64).foldl (fun r k => if (r + 2 ^ (63 - k)) * (r + 2 ^ (63 - k)) ≤ n then r + 2 ^ (63 - k) else r) 0

/-- The square root of `a / d` rounded down, with whether it falls short. -/
def rootOf (a d : Nat) : Nat × Bool :=
  let r := isqrt (a / d)
  (r, decide (r * r * d ≠ a))

/-- The one-second readings of samples (R484): mean power in W, rms voltage in V, rms current in 0.1 A, each rounded down and
with whether it falls short of the value; 0 without samples. -/
def secondOf (xs : List (Int × Int)) : IslReads :=
  let n := xs.length
  let sq := fun (f : Int × Int → Int) => (xs.foldl (fun (a : Int) p => a + f p * f p) 0).toNat
  let d : Int := ((100 * n * 2 ^ 90 : Nat) : Int)
  { p := (sumVI xs / d, decide (sumVI xs % d ≠ 0)), v := rootOf (sq (fun p => p.1)) (n * 2 ^ 90),
    i := rootOf (sq (fun p => p.2)) (100 * n * 2 ^ 90) }

/-- A second of a class: the class in force changes after three in a row. -/
def IslCirc.second (ci : IslCirc) (k : Nat) : IslCirc :=
  if k = ci.cls then { ci with candN := 0 }
  else
    let n := if ci.candN ≠ 0 ∧ k = ci.cand then ci.candN + 1 else 1
    if n = 3 then { ci with cls := k, candN := 0 } else { ci with cand := k, candN := n }

/-- A circuit's second ends: when it was measured whole it counts as live and, without an input fault in it, is classified;
it counts for the class in force; its readings stand until the next. -/
def Isl.secondEnd (x : Isl) (c : Nat) : Isl :=
  let st := x.streams.at {} c
  let ci := x.circ c
  let ci := if st.whole then { ci with live := min 65535 (ci.live + 1) } else ci
  let ci := if st.whole && !st.bad && !x.inFault c && !st.sec.isEmpty then ci.second (classOf (st.sec.map (fun p => p.1))) else ci
  let x := x.setCirc c { ci with heldS := setAt ci.heldS ci.cls (ci.heldS.getD ci.cls 0 + 1) }
  { x with streams := x.streams.put {} c { st with sec := [], whole := x.filtersValid c, bad := x.inFault c },
           reads := x.reads.put {} c (secondOf st.sec) }

/-- The end of a second, with the bits of each circuit's inputs up to it. -/
def State.islSecond (s : State) (bits : List (List Bool × List Bool)) : State :=
  if s.islOn = false then s
  else forEach (List.range 4) s (fun s c =>
    let b := bits.getD c ([], [])
    (if s.isl.bitsOk c b.1 b.2 then s.onIsl (fun x => x.bitsIn c b.1 b.2) else s).onIsl (fun x => x.secondEnd c))

def execIslSecondClassify (bits : List (List Bool × List Bool)) (s : State) : Host.Outcome State Fault Refusal :=
  answer s (s.islSecond bits)

/-! ### Checkpoints (R472) -/

/-- A checkpoint goes into the older copy. -/
def State.islCheckpoint (s : State) : State :=
  let x := s.isl
  let ck : IslCkpt := { seq := max x.ckA.seq x.ckB.seq + 1, circs := x.circs, time := s.islNow, period := x.period, flags := x.flags }
  s.onIsl (fun x => if x.ckA.seq ≤ x.ckB.seq then { x with ckA := ck } else { x with ckB := ck })

def Isl.newest (x : Isl) : IslCkpt := if x.ckA.seq ≤ x.ckB.seq then x.ckB else x.ckA

def execIslCheckpoint (s : State) : Host.Outcome State Fault Refusal := answer s (if s.islOn then s.islCheckpoint else s)

/-! ### Records (R470 to R473, R478) -/

/-- The secret of the key in force. -/
def Isl.secret (x : Isl) : List Byte := if x.sealed_ then x.secrets.at [] (x.gens - 1) else Config.islandCalSecret

/-- A record of 128 bytes, its mark valid: bytes 1 to 31 and the signature over the island ID and them. -/
def Isl.record (x : Isl) (b1 flags period : Nat) (tail : List Byte) : List Byte :=
  let body := [BitVec.ofNat 8 b1] ++ beBytes 2 flags ++ beBytes 4 x.made ++ beBytes 4 period ++ slice tail 0 20
  [0x4E] ++ body ++ Crypto.ecdsaSign (Config.islandScalar x.secret) (slice Config.islandId 0 16 ++ body)

/-- Records not collected. -/
def Isl.uncollected (x : Isl) : Nat := x.made - x.coll

/-- Store a record under the next seq; a store whose readback fails leaves the mark invalid, and the record is still sent. -/
def Isl.store (x : Isl) (rec_ : List Byte) (ok : Bool) : Isl :=
  let a := x.made % 16384 * 128
  let x := if ok then { x with mram := writeBytes x.mram a rec_ }
    else { x with mram := x.mram.put 0 a 0, storeBad := true, unstored := x.unstored.put [] x.made rec_ }
  { x with made := x.made + 1 }

/-- Flags of an event record: unsealed, time_suspect, time_lost. -/
def Isl.eventFlags (x : Isl) : Nat := b2n (!x.sealed_) + b2n x.suspect * 2 ^ 8 + b2n x.lost * 2 ^ 9

/-- Write an event record; beyond the 16 reserved slots it is counted and not stored. -/
def Isl.event (x : Isl) (code : Nat) (param : List Byte) (ok : Bool) : Isl :=
  if 16384 ≤ x.uncollected then { x with evLost := x.evLost + 1 }
  else x.store (x.record 0x40 x.eventFlags x.period (beBytes 2 code ++ param)) ok

/-- Storage becomes full while 16,368 records are uncollected: event 0x0008. -/
def Isl.checkFull (x : Isl) (ok : Bool) : Isl :=
  if x.full = false ∧ 16368 ≤ x.uncollected then { x with full := true }.event 8 [] ok else x

/-- A record has been made: a checkpoint goes with it. -/
def State.islMade (s : State) (f : Isl → Isl) (ok : Bool) : State := (s.onIsl (fun x => (f x).checkFull ok)).islCheckpoint

def State.islEvent (s : State) (code : Nat) (param : List Byte) (ok : Bool) : State := s.islMade (fun x => x.event code param ok) ok

/-- The class held longest apart from none and unknown; between classes held equally long, a free value. -/
def IslCirc.system (ci : IslCirc) (draw : Nat) : Nat :=
  let top := (List.range 4).foldl (fun m k => max m (ci.heldS.getD (k + 1) 0)) 0
  let best := ((List.range 4).map (fun k => k + 1)).filter (fun k => decide (ci.heldS.getD k 0 = top))
  if top = 0 then 0 else best.getD (Config.freeValue draw % best.length) 0

/-- Flags of an energy record at a time (R471). -/
def Isl.energyFlags (x : Isl) (c now : Nat) : Nat :=
  let ci := x.circ c
  let kinds := ((List.range 4).filter (fun k => decide (ci.heldS.getD (k + 1) 0 ≠ 0))).length
  let stale := match x.loc with | some l => decide (60 < now / secNs - l.2.2) | none => false
  x.flags ||| (b2n (!x.sealed_) + b2n (decide (1 ≤ ci.heldS.getD 0 0)) * 4 + b2n (decide (2 ≤ kinds)) * 8 +
    b2n (decide (1 ≤ ci.heldS.getD 5 0)) * 16 + b2n ci.fault * 32 + b2n ci.overR * 64 + b2n x.suspect * 2 ^ 8 + b2n x.lost * 2 ^ 9 +
    b2n stale * 2 ^ 10 + b2n x.loc.isNone * 2 ^ 11)

/-- An energy record of circuit `c`: the floor of each accumulator in mWh; the remainders stay (R467). -/
def State.islEnergy (s : State) (c period span extra : Nat) (ok : Bool) : State :=
  let (d, s) := s.draw
  let x := s.isl
  let ci := x.circ c
  let e := fun (n : Nat) => n / 2 ^ 20 % 2 ^ 40
  let l := x.loc.getD (0, 0, 0)
  let tail := beBytes 5 (e ci.cons) ++ beBytes 5 (e ci.regen) ++ beBytes 3 l.1 ++ beBytes 3 l.2.1 ++
    beBytes 2 (min 65535 (max 1 span)) ++ beBytes 2 ci.live
  let fl := x.energyFlags c s.islNow ||| extra
  s.islMade (fun x =>
    (x.store (x.record (c + 4 * ci.system d) fl period tail) ok).setCirc c
      { ci with cons := ci.cons % 2 ^ 20, regen := ci.regen % 2 ^ 20, next := period + span, live := 0, heldS := [0, 0, 0, 0, 0, 0], fault := x.inFault c,
                overR := false }) ok

/-- One record for each enabled circuit, in ascending order; none while storage is full. -/
def State.islRecords (s : State) (period span extra : Nat) (ok : Bool) : State :=
  forEach (List.range 4) s (fun s c => if s.isl.enabled c && !s.isl.full then s.islEnergy c period span extra ok else s)

/-- The period in progress becomes `p`: its common flags start afresh, and each circuit's next record begins with it. While
storage is full, flags and the first period not yet recorded stand (R473). -/
def State.islNext (s : State) (p : Nat) : State :=
  s.onIsl (fun x =>
    if x.full then { x with period := p }
    else { x with period := p, flags := b2n x.hold * 2, circs := x.circs.map (fun (ci : IslCirc) => { ci with next := p }) })

/-- Close the open interval of R477 at a time accepted: one record for each enabled circuit, from the checkpoint's time up to
the period in progress. -/
def State.islClose (s : State) (t : Nat) (ok : Bool) : State :=
  s.islRecords s.isl.openFrom (periodAt t + 1 - s.isl.openFrom) (2 ^ 9 + 2 ^ 12) ok

/-- A step to come is made at a boundary (R476): event 0x0003, the new period carries time_step. -/
def State.islStep (s : State) (ok : Bool) : State :=
  match s.isl.step with
  | none => s
  | some d =>
    let old := s.islNow
    let new := ((old : Int) + d).toNat
    let s := (s.setIslTime new).onIsl (fun x => ({ x with step := none, lastStep := some new, suspect := false }).flag 7)
    s.islEvent 3 (beBytes 6 (old / secNs) ++ beBytes 6 (new / secNs)) ok

/-- A period boundary (R469). While time is lost, the interval stays open (R477). -/
def State.islBoundary (s : State) (ok : Bool) : State :=
  let x := s.isl
  if s.islOn = false ∨ periodAt s.islNow ≤ x.period then s
  else if x.lost then s.onIsl (fun x => { x with period := periodAt s.islNow })
  else ((s.islRecords x.period 1 0 ok).islNext (x.period + 1)).islStep ok

def execIslPeriodBoundary (storeOk : Bool) (s : State) : Host.Outcome State Fault Refusal := answer s (s.islBoundary storeOk)

/-! ### Port 65 (R474) -/

/-- The seq of the oldest record the ring can hold. -/
def Isl.oldest (x : Isl) : Nat := x.made - 16384

/-- The record sent next: the backlog first, then a replay. -/
def Isl.toSend (x : Isl) : Option (Nat × Isl) :=
  if x.sent < x.made then some (x.sent, { x with sent := x.sent + 1 })
  else
    match x.replay with
    | some (n, last) => if n ≤ last then some (n, { x with replay := if n = last then none else some (n + 1, last) }) else none
    | none => none

/-- The bytes of a record: from its slot when its mark is valid, or kept because its store failed. -/
def Isl.recordOf (x : Isl) (n : Nat) : Option (List Byte) :=
  match x.unstored.at [] n with
  | [] => let b := readBytes x.mram (n % 16384 * 128) 128; if b.getD 0 0 = 0x4E then some b else none
  | b => some b

/-- The frame of a record. -/
def Isl.frame65 (x : Isl) (rec_ : List Byte) : List Byte :=
  let c := x.cfg
  slice c 2 12 ++ beBytes 2 0x8100 ++ beBytes 2 (beAt c 14 2 / 4096 % 8 * 8192 + beAt c 14 2 % 4096) ++ beBytes 2 0x88B6 ++
    [1, 1] ++ slice Config.islandId 0 16 ++ rec_

/-- The next record goes into port 65 when the main side forwards and staging has room. -/
def State.islSend (s : State) : State :=
  if s.islOn = false ∨ s.alive = false ∨ s.f (topA 0x048) 2 0 ≠ 2 then s
  else
    match s.isl.toSend with
    | none => s
    | some (n, x) =>
      match s.isl.recordOf n with
      | none => { s with isl := x }
      | some rec_ =>
        let body := s.isl.frame65 rec_
        let bs := body ++ leBytes 4 (crc32 body)
        if s.stageFits 4 0 bs.length = false then s
        else
          let f : Frame := { id := s.nextId, after := s.frontMark 7, src := 65, inPort := 65, grp := 4, wireLen := bs.length, complete := true, lenKnown := true,
                             place := .staged, ord := s.nextId }
          let s := { s with isl := { x with unstored := x.unstored.put [] n [] } }
          let s := (s.slot 65 0x23).led 7 1 65 0
          { s.setFrame f with nextId := s.nextId + 1 }.stageBytes f.id bs

def execIslRecordSend (s : State) : Host.Outcome State Fault Refusal := answer s s.islSend

/-! ### The mailbox (R475, R476) -/

/-- The payload of a mailbox frame: what follows EtherType 0x88B6 after at most two tags. -/
def mailPayload (bs : List Byte) : Option (List Byte) :=
  let et := fun (o : Nat) => beAt bs o 2
  let tag := fun (o : Nat) => decide (et o = 0x8100 ∨ et o = 0x88A8)
  let o := if tag 12 then (if tag 16 then 20 else 16) else 12
  if et o = 0x88B6 then some (bs.drop (o + 2)) else none

/-- Bytes of a payload of each fmt. -/
def mailLen (fmt : Nat) : Nat := if fmt = 2 then 26 else if fmt = 3 then 129 else 49

/-- The first check of R475 a frame fails, 0 when none: `calLow` is the level of ISL_CAL_N. -/
def State.mailCheck (s : State) (calLow : Bool) (p : Option (List Byte)) : Nat :=
  let x := s.isl
  match p with
  | none => 1
  | some b =>
    let fmt := beAt b 0 1
    if fmt < 2 ∨ 4 < fmt ∨ b.length < mailLen fmt then 1
    else if (match x.lastOk with | some t => decide (s.clk < t + msec 100) | none => false) then 2
    else if 3 ≤ fmt ∧ (x.sealed_ = true ∨ calLow = false) then 3
    else if fmt = 2 then
      let v := beAt b 1 1
      let coll := beAt b 22 4
      if bitsOf v 0 0 = 1 ∧ secNs ≤ beAt b 8 4 then 4
      else if bitsOf v 3 3 = 1 ∧ (coll + 1 < x.oldest ∨ x.sent ≤ coll) then 4
      else 0
    else if fmt = 3 ∧ cfgOk (slice b 1 128) = false then 4
    else 0

/-- Time of a mailbox frame (R476). -/
def State.mailTime (s : State) (t : Nat) (calLow ok : Bool) : State :=
  let x := s.isl
  let now := s.islNow
  let d : Int := (t : Int) - (now : Int)
  let both := beBytes 6 (now / secNs) ++ beBytes 6 (t / secNs)
  if x.sealed_ = false ∧ calLow = true then
    let s := if x.lost then (s.islClose t ok).onIsl (fun x => { x with flags := 0 }) else s
    ((s.setIslTime t).onIsl (fun x =>
      { x with period := periodAt t, lost := false, suspect := false, lastStep := some t,
               circs := x.circs.map (fun (ci : IslCirc) => { ci with next := periodAt t }) }.flag 7)).islEvent 3 both ok
  else if x.lost then
    ((((s.islClose t ok).setIslTime t).onIsl (fun x => { x with lost := false })).islNext (periodAt t)).islEvent 5 both ok
  else if d.natAbs < 2 * secNs then s
  else if d.natAbs ≤ 60 * secNs then
    if (match x.lastStep with | some l => decide (now < l + 86400 * secNs) | none => false) then s
    else s.onIsl (fun x => { x with step := some d })
  else
    let s := s.onIsl (fun x => ({ x with suspect := true }).flag 8)
    if (match x.lastRej with | some l => decide (now < l + 3600 * secNs) | none => false) then s
    else (s.onIsl (fun x => { x with lastRej := some now })).islEvent 4 both ok

/-- A collection (R473): space freed while storage was full gives the aggregate records and event 0x0009. -/
def State.mailCollect (s : State) (coll : Nat) (ok : Bool) : State :=
  let s := s.onIsl (fun x => { x with coll := max x.coll (coll + 1) })
  let x := s.isl
  if x.full = false ∨ 16368 ≤ x.uncollected then s
  else
    let n := (List.range 4).foldl (fun m c => if x.enabled c then max m (x.period - (x.circ c).next) else m) 0
    let s := s.onIsl (fun x => { x with full := false, evLost := 0 })
    let s := forEach (List.range 4) s (fun s c =>
      let from_ := (s.isl.circ c).next
      if s.isl.enabled c && !s.isl.full && decide (from_ < x.period) then s.islEnergy c from_ (x.period - from_) (2 ^ 13) ok else s)
    let s := if s.isl.full ∨ n = 0 then s else s.islNext x.period
    s.islEvent 9 (beBytes 2 n ++ beBytes 2 x.evLost) ok

/-- An accepted fmt 0x02 frame. -/
def State.mailApply (s : State) (b : List Byte) (calLow ok : Bool) : State :=
  let v := beAt b 1 1
  let s := if bitsOf v 0 0 = 1 then s.mailTime (beAt b 2 6 * secNs + beAt b 8 4) calLow ok else s
  let s := if bitsOf v 1 1 = 1 then s.onIsl (fun x => { x with loc := some (beAt b 12 3, beAt b 15 3, s.islNow / secNs) }) else s
  let s := if bitsOf v 2 2 = 1 ∧ 0 < s.isl.made then
      s.onIsl (fun x => { x with replay := some (max (beAt b 18 4) x.oldest, x.made - 1) }) else s
  if bitsOf v 3 3 = 1 then s.mailCollect (beAt b 22 4) ok else s

/-- The head of the mailbox is taken: rejected at the first check it fails, whatever the row; accepted by the row of its fmt. -/
def State.mailTake (s : State) (fmt : Nat) (calLow : Bool) (f : List Byte → State → State) : State :=
  match s.isl.inbox with
  | [] => s
  | bs :: rest =>
    if s.islOn = false then s
    else
      let p := mailPayload bs
      let drop := fun (x : Isl) => { x with inbox := rest }
      if s.mailCheck calLow p ≠ 0 then s.onIsl (fun x => { drop x with rejected := min 65535 (x.rejected + 1) })
      else
        let b := p.getD []
        if beAt b 0 1 ≠ fmt then s
        else f b (s.onIsl (fun x => { drop x with accepted := min 65535 (x.accepted + 1), lastOk := some s.clk }))

def execIslMailboxTime (calLow storeOk : Bool) (s : State) : Host.Outcome State Fault Refusal :=
  answer s (s.mailTake 2 calLow (fun b s => s.mailApply b calLow storeOk))

/-! ### Sealing (R480) -/

/-- An accepted fmt 0x03 frame: its body becomes the working configuration. Filters whose clock it changes start afresh. -/
def State.mailCalibrate (s : State) (b : List Byte) (ok : Bool) : State :=
  let cfg := slice b 1 128
  let s := if beAt s.isl.cfg 1 1 % 16 = beAt cfg 1 1 % 16 then s else s.islStop
  (s.onIsl (fun x => { x with cfg })).islEvent 0x0A (slice (Crypto.sha384 cfg) 0 16) ok

def execIslMailboxCalibration (calLow storeOk : Bool) (s : State) : Host.Outcome State Fault Refusal :=
  answer s (s.mailTake 3 calLow (fun b s => s.mailCalibrate b storeOk))

/-- An accepted fmt 0x04 frame arms the seal when it names the working configuration. -/
def execIslMailboxSealArm (calLow : Bool) (s : State) : Host.Outcome State Fault Refusal :=
  answer s (s.mailTake 4 calLow (fun b s =>
    if slice b 1 48 = Crypto.sha384 s.isl.cfg ∧ s.isl.gens < 4 then s.onIsl (fun x => { x with armedAt := some s.clk }) else s))

/-- ISL_CAL_N goes high while armed: the next generation is fused, and event 0x0007 is signed with its key. -/
def State.islSeal (s : State) (ok : Bool) : State :=
  match s.isl.armedAt with
  | none => s
  | some t =>
    if s.islOn = false ∨ s.isl.sealed_ = true ∨ 4 ≤ s.isl.gens ∨ t + seconds 60 < s.clk then s
    else
      let (secret, s) := s.random 48
      let s := s.onIsl (fun x =>
        ({ x with secrets := x.secrets.put [] x.gens secret, gens := x.gens + 1, sealed_ := true, armedAt := none }).flag 0)
      s.islEvent 7 (beBytes 1 (s.isl.gens - 1) ++ slice (Crypto.sha384 s.isl.cfg) 0 16) ok

def execIslSealFuse (storeOk : Bool) (s : State) : Host.Outcome State Fault Refusal := answer s (s.islSeal storeOk)

/-- 60 s pass without ISL_CAL_N going high. -/
def execIslSealArmLapse (s : State) : Host.Outcome State Fault Refusal := answer s (s.onIsl (fun x => { x with armedAt := none }))

/-- ISL_CAL_N has been low for 1 s: event 0x0006 under the old key, then Unsealed. -/
def State.islBreak (s : State) (ok : Bool) : State :=
  if s.islOn = false ∨ s.isl.sealed_ = false then s
  else (s.islEvent 6 (beBytes 1 (s.isl.gens - 1)) ok).onIsl (fun x => ({ x with sealed_ := false }).flag 0)

def execIslSealBreak (storeOk : Bool) (s : State) : Host.Outcome State Fault Refusal := answer s (s.islBreak storeOk)

/-! ### Hold, start and watchdog (R477, R479) -/

/-- VDD_ISL has fallen below 2.90 V. -/
def State.islHoldEnter (s : State) : State :=
  if s.islOn = false then s
  else (s.islStop.onIsl (fun x => ({ x with holds := min 65535 (x.holds + 1) }).flag 1)).islCheckpoint.onIsl (fun x => { x with hold := true })

def execIslHoldEnter (s : State) : Host.Outcome State Fault Refusal := answer s s.islHoldEnter

/-- VDD_ISL has been 3.00 V for 20 ms: measuring resumes, and the records of the boundaries that passed are made. -/
def State.islHoldExit (s : State) (ok : Bool) : State :=
  if s.isl.run = false ∨ s.isl.hold = false then s
  else
    let p := s.isl.period
    let n := periodAt s.islNow - p
    let s := if s.isl.lost ∨ n = 0 then s
      else
        let s := s.islRecords p 1 2 ok
        if 2 ≤ n then
          let live := s.isl.circs
          let s := s.onIsl (fun x => { x with circs := x.circs.map (fun (ci : IslCirc) => { ci with cons := 0, regen := 0, live := 0 }) })
          let s := s.islRecords (p + 1) (n - 1) 2 ok
          s.onIsl (fun x => { x with circs := List.zipWith (fun (ci old : IslCirc) => { ci with cons := old.cons, regen := old.regen }) x.circs live })
        else s
    let s := if n = 0 then s else s.islNext (p + n)
    let s := s.onIsl (fun x => ({ x with hold := false }).flag 1)
    if n = 0 then s else s.islStep ok

def execIslHoldExit (storeOk : Bool) (s : State) : Host.Outcome State Fault Refusal := answer s (s.islHoldExit storeOk)

/-- The totals of the newer checkpoint. -/
def Isl.restore (x : Isl) : Isl := { x with circs := x.newest.circs, period := x.newest.period, flags := x.newest.flags }

/-- A cold start: time resumes from the checkpoint and is lost; the interval stays open until a time is accepted. -/
def State.islColdStart (s : State) (ok : Bool) : State :=
  let t := s.isl.newest.time
  let s := (s.onIsl (fun x =>
    let x := x.restore
    let x := { x with run := true, hold := false, holds := 0, inbox := [], lost := true, openFrom := periodAt t, period := periodAt t,
                      step := none, loc := none, armedAt := none, replay := none, lastOk := none, lastRej := none, faulty := [], streams := [],
                      circs := x.circs.map (fun (ci : IslCirc) => { ci with cls := 0, candN := 0 }) }
    (x.flag 9).flag 12)).setIslTime t
  s.islEvent 1 (beBytes 6 (t / secNs)) ok

def execIslColdStart (storeOk : Bool) (s : State) : Host.Outcome State Fault Refusal := answer s (s.islColdStart storeOk)

/-- The island watchdog resets it: time is kept, totals come from the checkpoint. -/
def State.islWatchdog (s : State) (ok : Bool) : State :=
  if s.islOn = false then s
  else
    let now := s.isl.period
    (s.onIsl (fun x => ({ x.restore with period := now, armedAt := none, streams := [] }).flag 12)).islEvent 2 [] ok

def execIslWatchdogReset (storeOk : Bool) (s : State) : Host.Outcome State Fault Refusal := answer s (s.islWatchdog storeOk)

/-! ### The window registers (R483 to R485) -/

/-- ISL_STATUS as an update writes it. -/
def State.islStatus (s : State) (calLow : Bool) : Nat :=
  let x := s.isl
  2 ^ 31 + b2n x.sealed_ + (x.gens - 1) * 16 + b2n (decide (4 ≤ x.gens)) * 64 + b2n x.full * 2 ^ 8 + b2n x.storeBad * 2 ^ 9 +
    b2n x.suspect * 2 ^ 10 + b2n x.lost * 2 ^ 11 + b2n calLow * 2 ^ 12 + b2n (decide (x.sent < x.made)) * 2 ^ 13

/-- Bytes into registers, byte 4w in [31:24] of word w. -/
def State.showBytes (s : State) (a n : Nat) (bs : List Byte) : State :=
  forEach (List.range n) s (fun s w => s.wr (a + 4 * w) (word (beAt bs (4 * w) 4)))

/-- The circuit registers of readings `r`. R484 states no rounding: `up` 0, 1 and 2 tell whether power, voltage and current
are shown rounded up (DESIGN CHOICE, log). -/
def State.islCircRegs (s : State) (c : Nat) (r : IslReads) (up : Nat → Bool) : State :=
  let ci := s.isl.circ c
  let st := ci.cls + b2n (s.isl.enabled c) * 2 ^ 8 + b2n (s.isl.inFault c) * 2 ^ 9 + b2n ci.overR * 2 ^ 10
  (((s.wr (islA (0x080 + 16 * c)) (word st)).wr (islA (0x084 + 16 * c)) (word (fromSigned 32 (r.p.1 + if up 0 && r.p.2 then 1 else 0)))).wr (islA (0x088 + 16 * c))
    (word ((r.v.1 + b2n (up 1 && r.v.2)) % 2 ^ 24))).wr (islA (0x08C + 16 * c)) (word ((r.i.1 + b2n (up 2 && r.i.2)) % 2 ^ 24))

/-- An update: every register is written and ISL_WIN_SEQ rises; changes set their causes. -/
def State.islUpdate (s : State) (calLow : Bool) (mv : Nat) (up : BitVec 12) : State :=
  if s.islOn = false ∨ s.alive = false then s
  else
    let x := s.isl
    let old := s.rd (islA 0x040)
    let oldRej := s.f (islA 0x060) 31 16
    let st := word (s.islStatus calLow)
    let now := s.islNow / secNs
    let stored := (x.mram.filter (fun e => decide (e.1 % 128 = 0) && decide (e.2 = 0x4E))).length
    let s := s.wr (islA 0x040) st
    let s := ((s.wr (islA 0x048) (word (x.made - 1))).wr (islA 0x04C) (word (x.sent - 1))).wr (islA 0x050) (word (x.coll - 1))
    let s := s.wr (islA 0x054) (word (stored + x.uncollected % 2 ^ 15 * 2 ^ 16))
    let s := (s.wr (islA 0x058) (word now)).wr (islA 0x05C) (word (now / 2 ^ 32 % 2 ^ 16 + min 299 (now - x.period * 300) * 2 ^ 16))
    let s := (s.wr (islA 0x060) (word (x.accepted + x.rejected * 2 ^ 16))).wr (islA 0x064) (word (mv % 2 ^ 13 + x.holds * 2 ^ 16))
    let s := forEach (List.range 4) s (fun s c => s.islCircRegs c (x.reads.at {} c) (fun k => up.getLsbD (3 * c + k)))
    let s := ((s.showBytes (islA 0x0C0) 4 Config.islandId).showBytes (islA 0x100) 24 (Crypto.ecdsaPublic (Config.islandScalar x.secret))).showBytes (islA 0x180) 12
      (Crypto.sha384 x.cfg)
    let s := s.wr (islA 0x044) (s.rd (islA 0x044) + 1)
    let rose := fun (i : Nat) => bit st i && !bit old i
    let s := if fld old 1 0 ≠ fld st 1 0 ∨ fld old 5 4 ≠ fld st 5 4 then s.report 7 0 0x1C01 else s
    let s := if rose 8 || rose 9 then s.report 7 1 0x1C02 else s
    let s := if oldRej < x.rejected then s.report 7 3 0x1C04 else s
    if rose 10 || rose 11 then s.report 7 4 0x1C05 else s

/-- Bits 3c, 3c + 1 and 3c + 2 of `up`: circuit `c`'s power, voltage and current are shown rounded up. -/
def execIslStatusUpdate (calLow : Bool) (vbat : BitVec 13) (up : BitVec 12) (s : State) : Host.Outcome State Fault Refusal :=
  answer s (s.islUpdate calLow vbat.toNat up)

/-- No update has arrived for 2 s. -/
def execIslLinkTimeout (s : State) : Host.Outcome State Fault Refusal :=
  answer s (if s.alive ∧ s.b (islA 0x040) 31 = true then (s.setB (islA 0x040) 31 false).report 7 2 0x1C03 else s)

end Sys2Proof.Machine
end

