-- ==== Sys2Proof/Machine/Recorder.lean ====
section
/-! DEFINITION. The event recorder (chapter 22): acceptance, the staging FIFO, storage and its headers, the start scan and the
mirror. -/

namespace Sys2Proof.Machine

/-- A change of the recorder's state. -/
def State.onEvr (s : State) (f : Evr → Evr) : State := { s with evr := f s.evr }

/-! ### Codes and severities (R506, R507) -/

def evFatal : List Nat := [0x2007]
def evErrors : List Nat :=
  [0x0801, 0x0803, 0x2001, 0x2006, 0x2410, 0x2C02, 0x2C04, 0x3801, 0x3C03, 0x3C06, 0x5401, 0x6401, 0x1403, 0x1404]
def evInfos : List Nat :=
  [0x0010, 0x0013, 0x0014, 0x1001, 0x1402, 0x1405, 0x2004, 0x2C03, 0x2C05, 0x3C02, 0x4401, 0x4C05, 0x5C04, 0x6404]

/-- 0 info, 1 warning, 2 error, 3 fatal. -/
def evSeverity (code : Nat) : Nat :=
  if evFatal.contains code then 3 else if evErrors.contains code then 2 else if evInfos.contains code then 0 else 1

/-- A code under a mask and code register, mask in [31:16] (R376, R419, R557). -/
def codeMatches (w : Word) (code : Nat) : Bool := decide (code &&& fld w 31 16 = fld w 15 0 &&& fld w 31 16)

/-! ### Operating time (R513) -/

/-- Cycles since POR_N release. -/
def State.sincePor (s : State) : Nat := s.clk - s.evr.porAt
/-- Operating seconds, and the fraction in 1/65,536 s. -/
def State.opSec (s : State) : Nat := (s.evr.origin + s.sincePor / seconds 1) % 2 ^ 32
def State.opFrac (s : State) : Nat := s.sincePor % seconds 1 * 65536 / seconds 1

/-! ### Records (R505) -/

/-- Bytes 1 to 29 and the CRC of a record. -/
def EvRec.body (r : EvRec) : List Byte :=
  let inst := match pageOf r.ev.page with
    | some (_, i) => i
    | none => 0
  let b := leBytes 2 r.ev.code ++ leBytes 1 (inst % 64 + 64 * evSeverity r.ev.code) ++ leBytes 4 r.opSec ++ leBytes 2 r.frac ++
    leBytes 3 r.pwrCyc ++ leBytes 3 r.seq ++ leBytes 4 r.ev.p0 ++ leBytes 4 r.ev.p1 ++ leBytes 4 r.ev.p2 ++ leBytes 2 r.ev.p3
  b ++ leBytes 2 (crc16 b)

/-- A valid record's 32 bytes. -/
def EvRec.bytes (r : EvRec) : List Byte := (0x5A : Byte) :: r.body

/-- Whether 32 bytes hold a valid record of a seq. -/
def recValid (b : List Byte) (seq : Nat) : Bool :=
  decide (leAt b 0 1 = 0x5A ∧ leAt b 30 2 = crc16 (slice b 1 29) ∧ leAt b 13 3 = seq)

/-! ### The serial memory (R511) -/

/-- Slots of the record region. -/
def State.evSlots (s : State) : Nat := 2 ^ (15 + s.f (evrA 0x044) 6 4)
/-- An address as the memory receives it: 3 or 4 bytes. -/
def State.spiAddr (s : State) (a : Nat) : Nat := if s.b (evrA 0x044) 1 then a else a % 2 ^ 24
def State.spiRd (s : State) (a n : Nat) : List Byte := readBytes s.spi (s.spiAddr a) n
def State.spiWr (s : State) (a : Nat) (b : List Byte) : State := { s with spi := writeBytes s.spi (s.spiAddr a) b }
def State.slotRd (s : State) (seq : Nat) : List Byte := s.spiRd (seq % s.evSlots * 32) 32

/-- Whether header copy 0 (A) or 1 (B) is valid, and its bytes (R513, R514). -/
def State.evHdr (s : State) (c : Nat) : Bool × List Byte :=
  let b := s.spiRd (s.evSlots * 32 + c * 2048) 32
  (decide (leAt b 0 4 = 0x48525645 ∧ leAt b 30 2 = crc16 (slice b 0 30) ∧ leAt b 19 1 = s.f (evrA 0x044) 6 4), b)

/-- Write the copy with the lower header count, giving it the next. -/
def State.evHdrWrite (s : State) : State :=
  let n := max s.evr.hdrA s.evr.hdrB + 1
  let toA := decide (s.evr.hdrA ≤ s.evr.hdrB)
  let b := leBytes 4 0x48525645 ++ leBytes 4 n ++ leBytes 4 s.opSec ++ leBytes 3 (s.f (evrA 0x058) 23 0) ++ [0] ++
    leBytes 3 (s.f (evrA 0x04C) 23 0) ++ leBytes 1 (s.f (evrA 0x044) 6 4) ++ List.replicate 10 0
  let s := s.spiWr (s.evSlots * 32 + (if toA then 0 else 2048)) (b ++ leBytes 2 (crc16 b))
  s.onEvr (fun e => if toA then { e with hdrA := n } else { e with hdrB := n })

/-! ### Acceptance (R508 to R510) -/

/-- Records in the FIFO, those without seq included. -/
def State.evLevel (s : State) : Nat := s.evr.fifo.length + (s.evr.early.filter (fun r => r.stored)).length

/-- Show the FIFO level and the open loss count. -/
def State.evShow (s : State) : State := (s.setF (evrA 0x040) 6 0 s.evLevel).setB (evrA 0x040) 10 s.evr.loss.isSome

/-- The newest 2,048 (R515). -/
def mirKeep (m : List (List Byte)) : List (List Byte) := m.drop (m.length - 2048)

/-- The oldest seq in the mirror. -/
def State.mirShow (s : State) : State :=
  s.setF (evrA 0x060) 23 0 (match s.evr.mirror with | [] => 0 | b :: _ => leAt b 13 3)

/-- Give a record the next seq and enter it into the mirror, and into the FIFO if it is for storage. -/
def State.evEnter (s : State) (r : EvRec) : State :=
  let r := { r with seq := s.f (evrA 0x048) 23 0, pwrCyc := s.f (evrA 0x058) 23 0 }
  let s := s.setF (evrA 0x048) 23 0 ((r.seq + 1) % 2 ^ 24)
  (s.onEvr (fun e => { e with fifo := if r.stored then e.fifo ++ [r] else e.fifo,
                              mirror := mirKeep (e.mirror ++ [r.bytes]) })).mirShow

/-- Accept an event: it takes the time now; while a start scan has still to fix seq it is held without one. -/
def State.evTake (s : State) (v : Ev) : State :=
  let r : EvRec := { ev := v, opSec := s.opSec, frac := s.opFrac, stored := s.b (evrA 0x044) 0 }
  let s := if r.stored then (s.bump (evrA 0x090)).pmc 5 4 else s
  let s := if evSeverity v.code = 3 then s.irq 5 2 else s
  if s.evr.fixed then s.evEnter r else s.onEvr (fun e => { e with early := e.early ++ [r] })

/-- A record that is not accepted is lost (R509, R510). -/
def State.evLose (s : State) (v : Ev) : State :=
  let fatal := decide (evSeverity v.code = 3)
  let s := (s.bump (evrA (if fatal then 0x098 else 0x094))).pmc 5 7
  let l := match s.evr.loss with
    | some l => { l with lost := l.lost + 1, last := v.code, fatal := l.fatal + b2n fatal }
    | none => { lost := 1, first := v.code, last := v.code, opSec := s.opSec, fatal := b2n fatal }
  s.onEvr (fun e => { e with loss := some l })

/-- The squall record, when it is due (R510): ahead of any event, whatever min_sev holds. -/
def State.evSquall (s : State) : State :=
  match s.evr.loss with
  | none => s
  | some l =>
    if 32 < s.evLevel then s
    else
      let s := s.onEvr (fun e => { e with loss := none })
      (((s.evTake ⟨5, 0x1401, l.lost % 2 ^ 32, l.first + l.last * 65536, l.opSec, l.fatal % 2 ^ 16⟩).irq 5 0).bump
        (evrA 0x0A4)).evShow

/-- What sees every event raised, filtered and lost ones included: event breakpoints (R557), the capture trigger (R376), the
performance-counter trigger (R419). -/
def State.evTriggers (s : State) (v : Ev) : State :=
  let s := forEach (List.range 4) s (fun s m =>
    let act := s.rd (dbgA (0x1C4 + 8 * m))
    if bit act 0 = true ∧ codeMatches (s.rd (dbgA (0x1C0 + 8 * m))) v.code = true
    then s.dbgHitFree (12 + m) (fld act 12 8) else s)
  let s := if s.b (mirA 0x058) 6 && codeMatches (s.rd (mirA 0x060)) v.code then s.capTrigger else s
  if s.b (pmcA 0x044) 1 && codeMatches (s.rd (pmcA 0x048)) v.code && decide (v.page ≠ 10) then
    (if s.b (pmcA 0x040) 1 ∨ s.b (pmcA 0x040) 0 = true ∨ s.sta.pmcHeld.isEmpty = false then s
     else (s.report 10 1 0x2802).pmcStop)
  else s

/-- The oldest waiting event of the first source at or after the round-robin pointer. -/
def State.evNext (s : State) : Option (Ev × List Ev) :=
  let pages := s.evr.waiting.map (fun v => (v.page + 176 - s.evr.ptr) % 176)
  match pages with
  | [] => none
  | p :: ps => takeFirst (fun v => decide ((v.page + 176 - s.evr.ptr) % 176 = ps.foldl min p)) s.evr.waiting

/-- Accept one event. While EVR is lost its events go nowhere, but triggers still see them. -/
def State.evAccept (s : State) : State :=
  if s.alive = false then s
  else
    match s.evNext with
    | none => s
    | some (v, rest) =>
      let s := s.onEvr (fun e => { e with waiting := rest })
      let s := s.evTriggers v
      if s.regionDown 60 then s
      else
        let s := s.evSquall
        if evSeverity v.code < s.f (evrA 0x044) 17 16 then s.bump (evrA 0x09C)
        else
          let room := if s.b (evrA 0x044) 0 = false then true
            else if evSeverity v.code = 3 then decide (s.evLevel < 64)
            else decide (s.evLevel < 56) && s.evr.loss.isNone
          (if room then (s.evTake v).onEvr (fun e => { e with ptr := (v.page + 1) % 176 }) else s.evLose v).evShow

def execEventAccept (s : State) : Host.Outcome State Fault Refusal := answer s s.evAccept

def execSquallAccept (s : State) : Host.Outcome State Fault Refusal :=
  answer s (if s.alive && !s.regionDown 60 then s.evSquall else s)

/-! ### Storage (R512) -/

/-- The oldest FIFO record is written; `first` and `second` say whether each readback agrees. -/
def State.evStore (s : State) (first second : Bool) : State :=
  match s.evr.fifo with
  | [] => s
  | r :: rest =>
    let at_ := r.seq % s.evSlots * 32
    let s := s.onEvr (fun e => { e with fifo := rest })
    if first ∨ second then
      let s := (s.spiWr at_ r.bytes).setF (evrA 0x04C) 23 0 r.seq
      ((s.setB (evrA 0x040) 9 false).onEvr (fun e => { e with stored := e.stored + 1 })).evShow
    else
      let free := (List.range 31).map (fun i => BitVec.ofNat 8 (Config.freeValue (s.fresh + i)))
      let s := { s with fresh := s.fresh + 31 }
      let s := ((((s.spiWr at_ ((0 : Byte) :: free)).bump (evrA 0x0A0)).setB (evrA 0x040) 9 true).irq 5 1).evShow
      let say := match s.evr.werrAt with
        | none => true
        | some t => decide (seconds 1 ≤ s.clk - t)
      if say then (s.onEvr (fun e => { e with werrAt := some s.clk })).raise 5 0x1403 r.seq else s

def execEvrRecordStore (first second : Bool) (s : State) : Host.Outcome State Fault Refusal :=
  answer s (if s.alive && !s.regionDown 60 && s.b (evrA 0x040) 8 then s.evStore first second else s)

/-- Every FIFO record is stored and a header written (R516, R525). -/
def State.evFlush (s : State) : State :=
  if s.regionDown 60 ∨ s.b (evrA 0x040) 8 = false then s
  else (s.evr.fifo.foldl (fun (s : State) _ => s.evStore true true) s).evHdrWrite

/-- A header is due 64 s after the last due by time, or by 1,024 records stored. -/
def State.evHdrDue (s : State) : State :=
  let byTime := decide (seconds 64 ≤ s.clk - s.evr.hdrAt)
  let byCount := decide (1024 ≤ s.evr.stored)
  if byTime ∨ byCount = true then
    s.evHdrWrite.onEvr (fun e => { e with hdrAt := if byTime then e.hdrAt + seconds 64 else e.hdrAt,
                                          stored := if byCount then e.stored - 1024 else e.stored })
  else s

def execEvrHeaderWrite (s : State) : Host.Outcome State Fault Refusal :=
  answer s (if s.alive && !s.regionDown 60 && s.b (evrA 0x040) 8 then s.evHdrDue else s)

/-! ### The start scan (R514, R525, R541) -/

/-- Step 2: the seq of the last slot that passes, from `last` onward. -/
def State.evScan (s : State) : Nat → Nat → Nat
  | 0, last => last
  | k + 1, last =>
    let next := (last + 1) % 2 ^ 24
    if recValid (s.slotRd next) next then s.evScan k next else last

/-- Valid records with seq up to n by age, newest 2,048, oldest first. -/
def State.evReload (s : State) (n : Nat) : List (List Byte) :=
  let marks := s.spi.filter (fun e => decide (e.1 % 32 = 0 ∧ e.2 = 0x5A ∧ e.1 < s.evSlots * 32))
  let recs : SMap (List Byte) := marks.foldl (fun m e =>
    let b := readBytes s.spi e.1 32
    let q := leAt b 13 3
    let age := (n + 2 ^ 24 - q) % 2 ^ 24
    if recValid b q ∧ q % s.evSlots = e.1 / 32 ∧ age < 2 ^ 23 then m.put [] age b else m) []
  ((recs.take 2048).map (fun e => e.2)).reverse

/-- Step 3 for the records held without seq: the times noted run from the origin. -/
def State.evFix (s : State) (origin : Nat) : State :=
  let early := s.evr.early
  let s := s.onEvr (fun e => { e with origin := origin, fixed := true, early := [],
                                      loss := e.loss.map (fun l => { l with opSec := l.opSec + origin }) })
  early.foldl (fun (s : State) r => s.evEnter { r with opSec := r.opSec + origin }) s

/-- The start event (R506). -/
def State.evStartEvent (s : State) (n hdr : Nat) : State :=
  let st := s.f (secA 0x040) 1 0
  let p0 := s.f (topA 0x04C) 1 0 + b2n (s.sec.otp.getD s.sec.gen {}).taint * 4 + st * 16 + s.sec.gen % 4 * 256
  s.raise 5 0x1402 p0 (if recValid (s.slotRd n) n then n else 0xFFFFFFFF) 0 hdr

/-- The start scan. After POR_N release it runs whole; after a warm reset or a Lull exit, steps 2 and 4. -/
def State.evStart (s : State) : State :=
  if s.b (evrA 0x040) 8 then s
  else
    let cold := !s.evr.fixed
    let (okA, hA) := s.evHdr 0
    let (okB, hB) := s.evHdr 1
    let useB := okB && (!okA || decide (leAt hA 4 4 < leAt hB 4 4))
    let h := if useB then hB else hA
    let any := okA || okB
    let last := if cold then (if any then leAt h 16 3 else 0xFFFFFF) else s.f (evrA 0x04C) 23 0
    let n := s.evScan 1088 last
    let s := if cold && !any then s.report 5 3 0x1404 else s
    let s := if cold then
        let op := if any then leAt h 8 4 else 0
        let rec_ := if n ≠ last then leAt (s.slotRd n) 4 4 else 0
        let s := s.onEvr (fun e => { e with hdrA := if okA then leAt hA 4 4 else 0, hdrB := if okB then leAt hB 4 4 else 0 })
        let s := (s.setF (evrA 0x058) 23 0 ((if any then leAt h 12 3 else 0) + 1)).setF (evrA 0x048) 23 0 ((n + 1) % 2 ^ 24)
        s.evFix (max op rec_ + 1)
      else s
    let s := s.setF (evrA 0x04C) 23 0 n
    let s := s.onEvr (fun e => { e with mirror := mirKeep (s.evReload n ++ e.mirror) })
    let s := s.mirShow.evHdrWrite.onEvr (fun e => { e with hdrAt := s.clk, stored := 0 })
    ((s.setB (evrA 0x040) 8 true).evStartEvent n (if cold && any then b2n useB else 0xFFFF)).evShow

def execEvrStartScan (s : State) : Host.Outcome State Fault Refusal :=
  answer s (if s.alive && !s.regionDown 60 then s.evStart else s)

/-! ### The mirror (R515) and software events -/

/-- A write of EVR_MIR_SEL copies the record of that seq. -/
def State.evMirror (s : State) : State :=
  let q := s.f (evrA 0x05C) 23 0
  match s.evr.mirror.find? (fun b => decide (leAt b 13 3 = q)) with
  | none => s.setB (evrA 0x060) 31 false
  | some b => forEach (List.range 8) (s.setB (evrA 0x060) 31 true) (fun s w => s.wr (evrA (0x064 + 4 * w)) (word (leAt b (4 * w) 4)))

def execEvrMirrorSelect (seq : BitVec 24) (s : State) : Host.Outcome State Fault Refusal :=
  answer s (s.hostWriteWith (evrA 0x05C) (word seq.toNat) true (fun _ s => s.evMirror))

/-- A write of EVR_SW_EVT raises event 0x1405. -/
def State.evSoft (s : State) (value : Nat) : State := s.raise 5 0x1405 0 0 0 value

def execEvrSwEvent (value : BitVec 16) (s : State) : Host.Outcome State Fault Refusal :=
  answer s (s.hostWriteWith (evrA 0x0AC) (word value.toNat) true (fun r s => s.evSoft (fld r.val 15 0)))

end Sys2Proof.Machine
end

