-- ==== Sys2Proof/Machine/Power.lean ====
section
/-! DEFINITION. Supplies, resets, start-up and the Lull state (chapter 23), and the wake detectors (R106). -/

namespace Sys2Proof.Machine

/-- A change of the power state. -/
def State.onPmu (s : State) (f : Pmu → Pmu) : State := { s with pmu := f s.pmu }

/-- TOP_STATE.state (R528). -/
def State.topState (s : State) : Nat := s.f (topA 0x048) 2 0
def State.setTop (s : State) (c : Nat) : State := s.setF (topA 0x048) 2 0 c

/-! ### What a reset or a power-down loses (R524, R525, R539) -/

/-- MAC_WAKE_* registers (R106), which lie in the always-on domain. -/
def isWakeReg (a : Nat) : Bool :=
  decide (0x20 ≤ a / 0x1000 ∧ a / 0x1000 < 0x60 ∧ 0x06C ≤ a % 0x1000 ∧ a % 0x1000 < 0x0C0)

/-- Registers that a warm reset and the Lull state keep: PMU, MAC_WAKE_*, and the recorder's counts of seq and power cycles. -/
def isAonReg (a : Nat) : Bool :=
  decide (a / 0x1000 = 3) || isWakeReg a || decide (a = evrA 0x048 ∨ a = evrA 0x04C ∨ a = evrA 0x058)

/-- Everything but external memories, OTP, the island and the clock goes; `keep` names registers that stay. -/
def State.wiped (s : State) (keep : Nat → Bool) : State :=
  { pending := s.pending,
    regs := s.regs.filter (fun e => keep e.1),
    inForce := s.inForce.filter (fun e => keep e.1),
    host := s.host, spi := s.spi, flash := s.flash,
    clk := s.clk, fresh := s.fresh, out := s.out, nextId := s.nextId,
    hif := { perst := s.hif.perst },
    sec := { otp := s.sec.otp, gen := s.sec.gen },
    isl := s.isl,
    pmu := s.pmu,
    dbg := { jtag := s.dbg.jtag } }

/-- What the recorder and the debug port carry over a warm reset or the Lull state: operating time, header counts; failed
unlocks since POR_N. -/
def State.wipedWarm (s : State) : State :=
  let e : Evr := { origin := s.evr.origin, porAt := s.evr.porAt, fixed := s.evr.fixed, hdrA := s.evr.hdrA, hdrB := s.evr.hdrB,
                   hdrAt := s.evr.hdrAt }
  let fails := s.dbg.fails
  let mode := s.f (topA 0x04C) 1 0
  let s := s.wiped isAonReg
  let s := { s with evr := e, dbg := { s.dbg with fails := fails } }
  s.setF (topA 0x04C) 1 0 mode

/-- A fresh challenge of the debug port (R552). -/
def State.newChal (s : State) : State :=
  let (bs, s) := s.random 48
  { s with dbg := { s.dbg with chal := bs } }

/-- State Init: the OTP is read, BOOT_MODE as sampled acts (R527), the debug port shows its counts. -/
def State.startUp (s : State) : State :=
  let s := ((s.showOtp.setTop 0).newChal.setB (dbgA 0x040) 3 s.otpNow.taint).setF (dbgA 0x040) 6 4 s.dbg.fails
  let s := s.setB (dbgA 0x040) 2 (decide (4 ≤ s.dbg.fails))
  let s := if s.f (topA 0x04C) 1 0 = 3 ∧ 1 ≤ s.f (secA 0x040) 1 0 then s.setB (topA 0x04C) 4 true else s
  s.onPmu (fun p => { p with alt := false, loading := false, sect := 0, acted := false, part := 0, startAt := s.clk })

/-- The mode that acts (R527). -/
def State.bootMode (s : State) : Nat := if s.b (topA 0x04C) 4 then 0 else s.f (topA 0x04C) 1 0

/-- Every event waiting is accepted, every FIFO record stored, a header written (R516, R525). -/
def State.evSettle (s : State) : State :=
  let n := s.evr.waiting.length + s.evLevel + 16
  let s := (List.range n).foldl (fun (s : State) _ =>
    let s := s.evAccept
    if s.regionDown 60 ∨ s.b (evrA 0x040) 8 = false then s else s.evSquall.evStore true true) s
  s.evFlush

/-! ### Cold start -/

/-- POR_N rises. -/
def State.porRelease (s : State) (mode : Nat) : State :=
  if s.pmu.por then s
  else
    let s := s.onPmu (fun p => { p with por := true, enCore := true })
    let s := { s with evr := { s.evr with porAt := s.clk, hdrAt := s.clk } }
    let s := (s.setF (topA 0x04C) 1 0 mode).startUp
    match s.pmu.railBad with
    | none => s
    | some r => (s.report 3 3 0x0C03 r).onPmu (fun p => { p with railBad := none })

def execPorRelease (mode : Fin 4) (s : State) : Host.Outcome State Fault Refusal := answer s (s.porRelease mode.val)

/-- POR_N falls: a cold reset. SAs go first (R444). Pin levels are the board's. -/
def State.porAssert (s : State) : State :=
  let p : Pmu := { railBad := s.pmu.railBad, wakeN := s.pmu.wakeN, reqN := s.pmu.reqN }
  let s := (s.zeroize true 4).wiped (fun _ => false)
  { s with pmu := p }

def execPorAssert (s : State) : Host.Outcome State Fault Refusal := answer s s.porAssert

/-- 2 ms and 4 ms after the start, the next enables rise (R521). -/
def execPwrEnSdsTimer (s : State) : Host.Outcome State Fault Refusal :=
  answer s (if s.alive then s.onPmu (fun p => { p with enSds := true }) else s)

def execPwrEnHbmTimer (s : State) : Host.Outcome State Fault Refusal :=
  answer s (if s.alive then s.onPmu (fun p => { p with enHbm := true }) else s)

/-- R522: a rail 20 ms after its enable: 0 CORE, 1 SDS, 2 HBM. -/
def State.railCheck (s : State) (r : Nat) (ok : Bool) : State :=
  let on := match r with | 0 => s.pmu.enCore | 1 => s.pmu.enSds | _ => s.pmu.enHbm
  if s.alive = false ∨ on = false then s
  else if ok then s.onPmu (fun p => { p with checked := p.checked ||| 2 ^ r })
  else
    let s := ((s.setB (pmuA 0x040) 4 true).setF (pmuA 0x040) 6 5 r).setTop 3
    let s := s.onPmu (fun p => { p with enCore := false, enSds := false, enHbm := false, checked := 0, railBad := some r })
    { s with hif := { s.hif with linkUp := false } }

def execRailCheck (rail : Fin 3) (inRange : Bool) (s : State) : Host.Outcome State Fault Refusal :=
  answer s (s.railCheck rail.val inRange)

/-! ### Warm reset (R524, R525) -/

/-- SAs go, the recorder stores its FIFO and a header, and every block but the always-on domain and the PCIe link starts
again. HBM keeps its power. -/
def State.warmReset (s : State) : State :=
  let s := (s.zeroize true 4).evSettle
  let h : Hif := { linkUp := s.hif.linkUp, d3hot := s.hif.d3hot, perst := s.hif.perst, fn := s.hif.fn }
  let hbm := s.hbm
  let descs := s.bpm.descs
  let link := s.rd (hifA 0x040)
  let s := s.wipedWarm
  let s := ({ s with hif := h, hbm := hbm, bpm := { s.bpm with descs := descs } }.wr (hifA 0x040) link).startUp
  s.wr (topA 0x05C) 2

/-- A write of TOP_RST_CMD with its key and op. -/
def execWarmReset (s : State) : Host.Outcome State Fault Refusal :=
  answer s (s.hostWriteWith (topA 0x058) 0x52530001 true (fun _ s => s.warmReset))

/-! ### Run (R528, R536, R541) -/

/-- State Run; after a Lull exit its cause is reported. -/
def State.enterRun (s : State) : State :=
  let s := s.setTop 2
  match s.pmu.exited with
  | none => s
  | some (c, p) => (s.report 3 2 0x0C02 c p).onPmu (fun x => { x with exited := none })

/-- Init ends: HIF is ready and the time-sync PLL locked (DEDUCED); host mode passes to Run, factory test mode to Test. An
autonomous mode goes on to its image, or has gone on to it already. -/
def State.initEnd (s : State) : State :=
  if s.alive = false ∨ (s.topState ≠ 0 ∧ s.hif.cfgRetry = false) then s
  else
    let s := { s with hif := { s.hif with cfgRetry := false } }.setB (tsuA 0x040) 0 true
    if s.topState ≠ 0 then s
    else
      match s.bootMode with
      | 0 => s.enterRun
      | 3 => s.setTop 6
      | _ => s

def execInitEnd (s : State) : Host.Outcome State Fault Refusal := answer s s.initEnd

/-- The link trains in the modes that do not hold it in reset; PCIE_WAKE_N is released. -/
def State.linkTrained (s : State) (speed width : Nat) : State :=
  if s.alive = false ∨ s.hif.perst = true ∨ s.bootMode = 1 ∨ s.bootMode = 3 then s
  else
    let s := (s.setF (hifA 0x040) 10 8 speed).setF (hifA 0x040) 18 16 width
    { s with hif := { s.hif with linkUp := true }, pmu := { s.pmu with pcieWake := false } }

/-- Speed 2.5, 5, 8 or 16 GT/s; width 1, 2 or 4. -/
def execPcieLinkUp (speed : Fin 4) (width : Fin 3) (s : State) : Host.Outcome State Fault Refusal :=
  answer s (s.linkTrained (speed.val + 1) (2 ^ width.val))

/-! ### Entry to the Lull state (R537) -/

/-- Step 1. PMU settings take effect at the request. -/
def State.lullEnter (s : State) : State :=
  (((s.load (pmuA 0x048)).load (pmuA 0x04C)).setTop 4).onPmu (fun p => { p with quietAt := s.clk })

def execLullEnterCmd (s : State) : Host.Outcome State Fault Refusal :=
  answer s (s.hostWriteWith (pmuA 0x044) 1 true (fun _ s => s.lullEnter))

/-- LULL_REQ_N changes; its falling edge requests entry while req_pin_en is 1. -/
def State.lullReq (s : State) (high : Bool) : State :=
  let fell := s.pmu.reqN && !high
  let s := s.onPmu (fun p => { p with reqN := high })
  if fell && s.alive && s.b (pmuA 0x048) 30 && decide (s.topState = 2) && s.pmu.wakeN then s.lullEnter else s

def execLullReqPin (high : Bool) (s : State) : Host.Outcome State Fault Refusal := answer s (s.lullReq high)

/-- The port at which a frame that has no copy yet counts when it is dropped for want of time (R537): the egress port it is
settled on, else its ingress port. -/
def Frame.dropPort (f : Frame) : Nat :=
  match f.place with
  | .police | .queued _ | .sent => if f.mdGet 8 = 1 then f.mdGet 9 else if f.mdGet 8 = 3 then 64 else f.src
  | _ => f.src

/-- Step 2: every copy still in the device is dropped under 0x1F at its egress port: those in transmission, then the rest, then
the frames that have still to become copies. -/
def State.lullDrop (s : State) : State :=
  let s := forEach (List.range 64) s (fun s p => ((s.withdraw p true).withdraw p false).abortTx p 0x1F)
  let left := s.copies.map (fun e => e.1)
  let s := forEach left s (fun s cid => s.dropCopy (tmgPage (groupOf (s.copy cid).port)) cid 0x1F)
  forEach (s.framesWhere (fun f => decide (f.place ≠ .gone ∧ f.place ≠ .receiving))) s
    (fun s i => s.endFrame 15 (s.frame i).dropPort i 0x1F)

/-- The front passes every page it has still to pass at this instant, and completes. -/
def State.frontThrough (s : State) : State :=
  if s.b (staA 0x040) 0 = false then s
  else
    let s := forEach (allPages.filter (fun p => !s.sta.passed.contains p)) s (fun s p =>
      let s := s.frontAct p
      { s with sta := { s.sta with passed := p :: s.sta.passed } })
    s.frontComplete

/-- Step 3: a last front with its audit, capture queues written out, the ledger disabled, state Ready. -/
def State.lullReady (s : State) : State :=
  let s := s.lullDrop
  let s := if s.b (staA 0x044) 31 then (s.frontThrough.audit.inject (s.tb 0) false).frontThrough.audit else s
  let waiting := sumBy (fun (q : Nat × List CapRec) => q.2.length) s.mir.queues
  let s := (List.range waiting).foldl (fun (s : State) _ => s.capWrite) s
  let s := { s with sta := { s.sta with ledOn := false, ledWait := [], wordWait := [], spans := false, overran := false } }.setB (staA 0x404) 0 true
  ((s.setTop 5).onPmu (fun p => { p with readyAt := s.clk })).report 3 0 0x0C01

def execLullDrainExpire (s : State) : Host.Outcome State Fault Refusal :=
  answer s (if s.alive ∧ s.topState = 4 then s.lullReady else s)

/-- The detectors of a port that arm (R106): energy detect on carried ports, pattern match at 1.25 Gb/s; and its lanes. -/
def State.detectors (s : State) (p : Nat) : Nat :=
  if s.carried p = false then 0
  else
    let ed := s.b (macA p 0x06C) 0
    let pm := s.b (macA p 0x06C) 1 && decide (s.portRate p = 0)
    let lanes := match s.quadMode p with | 0 => 2 ^ (p % 4) | 1 => 3 * 2 ^ (p % 4) | _ => 15
    if ed || pm then b2n ed + 2 * b2n pm + 4 * lanes else 0

/-- Step 5: SAs go, the recorder stores its FIFO and a header, detectors arm, and everything outside the always-on domain
goes. -/
def State.powerDown (s : State) : State :=
  let s := (s.zeroize true 4).evSettle
  let armed := (List.range 64).filter (fun p => decide (s.detectors p ≠ 0))
  let macs := forEach armed { s with macs := [] } (fun (x : State) p => x.setMac p { armed := s.detectors p })
  let lanes := forEach (List.range 64) { s with lanes := [] } (fun (x : State) l =>
    x.setLane l { hadSignal := s.b (sdsA (l / 4) (0x058 + 4 * (l % 4))) 0 })
  let s := { s.wipedWarm with macs := macs.macs, lanes := lanes.lanes }
  s.onPmu (fun p => { p with dying := true, enCore := false, enSds := p.enSds && !armed.isEmpty, enHbm := false, checked := 0,
                             wake := none, exited := none })

def execLullGo (s : State) : Host.Outcome State Fault Refusal :=
  answer s (s.hostWriteWith (pmuA 0x044) 2 true (fun _ s => s.powerDown))

/-- hold ms have passed in Ready. -/
def execLullHoldExpire (s : State) : Host.Outcome State Fault Refusal :=
  answer s (if s.alive ∧ s.topState = 5 then s.powerDown else s)

/-! ### The end of an entry (R538) -/

/-- The state returns to Run with its configuration; the next front is a baseline. -/
def State.lullAbort (s : State) : State :=
  let s := { s with sta := { s.sta with ledOn := false, ledWait := [], wordWait := [], spans := false, overran := false } }.setB (staA 0x404) 0 true
  (s.setTop 2).report 3 1 0x0C04

/-- WAKE_N falls or stays low. -/
def State.wakeLow (s : State) : State :=
  let s := s.onPmu (fun p => { p with wakeN := false })
  if s.alive ∧ (s.topState = 4 ∨ s.topState = 5) then s.lullAbort else s

def execLullAbort (pin : Bool) (s : State) : Host.Outcome State Fault Refusal :=
  answer s (if pin then s.wakeLow else s.hostWriteWith (pmuA 0x044) 3 true (fun _ s => s.lullAbort))

/-! ### Waking (R106, R540, R541) -/

/-- Powered down, or on the way there. -/
def State.asleep (s : State) : Bool := s.pmu.por && (s.pmu.lull || s.pmu.dying)

/-- A wake cause: the first is latched and starts the exit. Causes: bit 0 pin, 1 timer, 2 port. -/
def State.wakeBy (s : State) (cause port : Nat) : State :=
  if s.asleep = false ∨ s.pmu.wake.isSome then s
  else
    (s.wr (pmuA 0x050) (word (2 ^ 31 + cause + port * 256))).onPmu (fun p =>
      { p with wake := some (cause, port), pcieWake := p.pcieWake || p.lull })

/-- Power-down is complete. -/
def State.lullDone (s : State) : State :=
  if s.pmu.dying = false then s
  else
    let s := (s.bumpF (pmuA 0x040) 31 16).onPmu (fun p => { p with dying := false, lull := true, downAt := s.clk })
    let s := if s.pmu.wakeN = false ∧ bit (s.fw (pmuA 0x048)) 28 = true then s.wakeBy 1 0 else s
    if s.pmu.wake.isSome then s.onPmu (fun p => { p with pcieWake := true }) else s

def execLullPowerDownDone (s : State) : Host.Outcome State Fault Refusal := answer s s.lullDone

/-- WAKE_N: low for 10 µs wakes while pin_en is 1, or ends an entry; high only changes the level. -/
def execWakePin (low : Bool) (s : State) : Host.Outcome State Fault Refusal :=
  answer s (if low then
      let s := s.wakeLow
      if bit (s.fw (pmuA 0x048)) 28 then s.wakeBy 1 0 else s
    else s.onPmu (fun p => { p with wakeN := true }))

/-- PMU_LULL_TIMER.sec seconds after power-down. -/
def execWakeTimer (s : State) : Host.Outcome State Fault Refusal :=
  answer s (if s.pmu.lull = true ∧ bit (s.fw (pmuA 0x048)) 29 = true then s.wakeBy 2 0 else s)

/-- A detector of a port fires: 0 energy, 1 pattern. -/
def State.portWake (s : State) (p what : Nat) : State :=
  (s.setB (macA p 0x078) what true).wakeBy 4 p

/-- Signal appears on a lane of an armed port that showed none at entry. -/
def execWakeEnergyDetect (port : Port) (lane : Fin 4) (s : State) : Host.Outcome State Fault Refusal :=
  let a := (s.mac port.val).armed
  let l := port.val / 4 * 4 + lane.val
  answer s (if s.asleep && decide (bitsOf a 0 0 = 1 ∧ bitsOf a (2 + lane.val) (2 + lane.val) = 1) && !(s.lane l).hadSignal
    then s.portWake port.val 0 else s)

/-- Whether a frame matches a port's wake pattern: at least 64 bytes, a correct FCS, the masked bytes equal. -/
def State.wakeMatch (s : State) (p : Nat) (bs : List Byte) : Bool :=
  decide (64 ≤ bs.length ∧ leVal (bs.drop (bs.length - 4)) = crc32 (bs.take (bs.length - 4))) &&
  (List.range 64).all (fun i => !s.b (macA p (0x070 + 4 * (i / 32))) (i % 32) ||
    decide (beAt bs i 1 = s.f (macA p (0x080 + 4 * (i / 4))) (8 * (i % 4) + 7) (8 * (i % 4))))

def execWakePatternMatch (port : Port) (bytes : List Byte) (s : State) : Host.Outcome State Fault Refusal :=
  answer s (if s.asleep && decide (bitsOf (s.mac port.val).armed 1 1 = 1) && s.wakeMatch port.val bytes
    then s.portWake port.val 1 else s)

/-- The exit: rails are sequenced, the time bases start at 0, the governor starts from vmax, the device boots. -/
def State.lullExit (s : State) : State :=
  match s.pmu.wake with
  | none => s
  | some (cause, port) =>
    if s.pmu.lull = false then s
    else
      let s := { s with macs := [], lanes := [], gov := { fromMax := true } }
      let s := s.onPmu (fun p => { p with lull := false, enCore := true, wake := none, exited := some (cause, port), pcieWake := true })
      let s := s.startUp.wr (topA 0x05C) 8
      if cause = 4 then s.report (macPage port) 3 0x4404 else s

def execLullExit (s : State) : Host.Outcome State Fault Refusal := answer s s.lullExit

end Sys2Proof.Machine
end

