-- ==== Sys2Proof/Machine/Windows.lean ====
section
/-! DEFINITION. The memory windows of BAR2 (R54): which structure a byte belongs to, the checks of a write (R56, R62) and
what an accepted write does. -/

namespace Sys2Proof.Machine

/-- A structure of the windows. -/
inductive WinItem where
  | bank (off : Nat)
  | ring (i : Nat)
  | queue (q : Nat)
  | group (k : Nat)
  | meter (k m : Nat)
  | filter (k i : Nat)
  | gate (k i : Nat)
  | sched (k i : Nat)
  | seqGen (k i : Nat)
  | glist (p b e : Nat)
  deriving DecidableEq, Repr

/-- Base address and size of a structure. -/
def WinItem.span : WinItem → Nat × Nat
  | .bank o => (o, 8)
  | .ring i => (ringA i, 32)
  | .queue q => (0x2000000 + 64 * q, 64)
  | .group k => (0x2100000 + 32 * k, 32)
  | .meter k m => (meterA k m, 32)
  | .filter k i => (filterA k i, 16)
  | .gate k i => (gateA k i, 16)
  | .sched k i => (schedA k i, 128)
  | .seqGen k i => (seqA k i, 8)
  | .glist p b e => (0x4000000 + p * 0x4000 + b * 0x2000 + e * 8, 8)

/-- Words that R407 names in the latched counter bank. -/
def bankHas (o : Nat) : Bool :=
  decide (o < 0x8800 ∨ (0x9000 ≤ o ∧ o < 0x9200) ∨ (0xA000 ≤ o ∧ o < 0xA880) ∨
    (0x10000 ≤ o ∧ o < 0x10A00 ∧ (o - 0x10000) % 0x200 < 0x1A0) ∨ (0x20000 ≤ o ∧ o < 0x22C00) ∨
    (0x100000 ≤ o ∧ o < 0x380000) ∨ (0x400000 ≤ o ∧ o < 0x510000))

/-- The structure that holds a byte; none where the window is unimplemented. -/
def winItem (a : Nat) : Option WinItem :=
  let o := a % 0x1000000
  match a / 0x1000000 with
  | 0 => if bankHas o then some (.bank (o / 8 * 8)) else none
  | 1 => if o < 0x10000 then some (.ring (o / 32)) else none
  | 2 =>
    if o < 0x40000 ∨ (0x41000 ≤ o ∧ o < 0x50000) then some (.queue (o / 64))
    else if 0x100000 ≤ o ∧ o < 0x104400 ∧ ¬ (0x104000 ≤ o ∧ o < 0x104100) then some (.group ((o - 0x100000) / 32))
    else none
  | 3 =>
    let k := o / 0x100000
    let r := o % 0x100000
    if 5 ≤ k then none
    else if r < 32 * meterCount k then some (.meter k (r / 32))
    else if 0x40000 ≤ r ∧ r < 0x50000 then some (.filter k ((r - 0x40000) / 16))
    else if 0x50000 ≤ r ∧ r < 0x60000 then some (.gate k ((r - 0x50000) / 16))
    else if 0x60000 ≤ r ∧ r < 0x68000 then some (.sched k ((r - 0x60000) / 128))
    else if 0x70000 ≤ r ∧ r < 0x78000 then some (.seqGen k ((r - 0x70000) / 8))
    else none
  | 4 => if o < 0x100000 then some (.glist (o / 0x4000) (o / 0x2000 % 2) (o % 0x2000 / 8)) else none
  | _ => none

/-- The structures that a run of bytes touches, and whether every byte lies in one. -/
def winItems (a n : Nat) : Option (List WinItem) :=
  (List.range n).foldl (fun (acc : Option (List WinItem)) i =>
    match acc, winItem (a + i) with
    | some xs, some x => if xs.getLast? = some x then some xs else some (xs ++ [x])
    | _, _ => none) (some [])

/-! ### Bytes of a structure (R73, R212 to R214, R218, R222, R311, R312) -/

/-- Bits of each byte that a write may set: 0 for reserved bits. State the device keeps counts as settable: it is ignored. -/
def WinItem.defined : WinItem → List Nat
  | .bank _ => List.replicate 8 255
  | .ring _ => List.replicate 8 255 ++ [0x1F, 0x0F, 255, 1, 255, 255, 255, 255, 255, 0, 255, 255, 255, 255, 0x3F, 0, 255, 255, 255, 255, 0, 0, 0, 0]
  | .queue _ => [0x7F, 0x0F, 255, 0x0F, 255, 255, 0x0F, 0, 255, 255, 255, 3, 255, 255, 255, 3, 255, 255, 255, 0, 255, 255, 255, 0,
      255, 255, 255, 0, 255, 255, 255, 0] ++ List.replicate 32 255
  | .group _ => [0x0F, 0x0F, 0, 0, 255, 255, 255, 0, 255, 255, 255, 0, 255, 255, 255, 0, 255, 255, 255, 0] ++ List.replicate 8 255 ++ [0, 0, 0, 0]
  | .meter _ _ => List.replicate 11 255 ++ [0, 255, 255, 255, 0, 255, 255, 0x3F, 0x8F, 0x3F, 0, 0, 0] ++ List.replicate 8 255
  | .filter _ _ => [7, 0x0F, 255, 0x3F, 255, 0x8F, 255, 0x9F, 255, 0x8F, 0, 0, 0, 0, 0, 0]
  | .gate _ _ => [0x1F, 0x0F, 255] ++ List.replicate 13 0
  | .sched _ _ => List.replicate 10 255 ++ [0x83, 255, 255, 255, 255, 255] ++
      (List.range 14).flatMap (fun _ => [255, 255, 255, 255, 0x1F, 0, 0, 0])
  | .seqGen _ _ => [255, 255, 7, 0x0F, 0, 0, 0, 0]
  | .glist _ _ _ => List.replicate 8 255

/-- The byte that holds a structure's owner, if it has one of its own. -/
def WinItem.ownerByte : WinItem → Option Nat
  | .ring _ => some 9
  | .queue _ => some 1
  | .group _ => some 1
  | .meter _ _ => some 19
  | .filter _ _ => some 1
  | .gate _ _ => some 1
  | .sched _ _ => some 11
  | .seqGen _ _ => some 3
  | _ => none

/-- The owner that a structure's bytes show. -/
def WinItem.ownerIn (x : WinItem) (bs : List Byte) : Nat :=
  match x with
  | .sched _ _ => leAt bs 11 1 / 16
  | _ => match x.ownerByte with
    | some b => leAt bs b 1 % 16
    | none => 0

/-- A structure's bytes as stored. -/
def State.item (s : State) (x : WinItem) : List Byte := s.winRd x.span.1 x.span.2

/-- The owner of a structure; gate list memory belongs to its port's owner (R363). -/
def State.itemOwner (s : State) (x : WinItem) : Nat :=
  match x with
  | .glist p _ _ => s.f (tgsA (p / 16) (0x300 + 4 * (p % 16))) 3 0
  | x => x.ownerIn (s.item x)

/-- A range in the bytes as they stand after the write (R73, R212, R214, R218, R311 to R313). -/
def WinItem.rangeOk (x : WinItem) (bs : List Byte) : Bool :=
  let le := fun (o n : Nat) => leAt bs o n
  match x with
  | .filter _ _ => decide (le 2 2 = 0 ∨ (64 ≤ le 2 2 ∧ le 2 2 ≤ 16000))
  | .sched _ _ =>
    decide (le 10 1 < 128) || decide (le 0 4 ≤ 999999999 ∧ 1 ≤ le 11 1 % 16 ∧ le 11 1 % 16 ≤ 14 ∧ 1000 ≤ le 12 4 ∧ le 12 4 ≤ 4000000000)
  | .meter _ _ => decide (le 18 1 % 2 = 0) || decide (1 ≤ le 16 2 ∧ le 0 4 ≤ le 4 4 ∧ bitsOf (le 18 1) 4 3 ≠ 3)
  | .queue _ =>
    decide (le 0 1 % 2 = 0) || decide (le 2 2 ≠ 0 ∧ 1 ≤ le 4 4 ∧ le 4 4 ≤ 1000000 ∧ le 16 4 ≤ le 20 4 ∧ le 24 4 ≤ le 28 4)
  | .group k =>
    decide (le 0 1 % 4 ≠ 3 ∧ (le 0 1 % 4 = 2 → k / 8 < 64)) &&
      (decide (le 0 1 % 4 ≠ 1) || decide (le 4 4 ≤ le 8 4 ∧ le 12 4 ≤ le 16 4))
  | _ => true

/-- The kinds of R60 that refuse a write of one structure: `new` its bytes as written over, `[lo, hi)` those touched. -/
def State.itemChecks (s : State) (p : Principal) (x : WinItem) (new : List Byte) (lo hi : Nat) : List Nat :=
  match x with
  | .bank _ => [0xA]
  | .ring i => s.ringChecks p i new lo hi
  | x =>
    let old := s.item x
    let owner := s.itemOwner x
    let moved := decide (x.ownerIn new ≠ x.ownerIn old)
    let rsv := ((x.defined.zip new).zip (List.range x.span.2)).any (fun e =>
      decide (lo ≤ e.2 ∧ e.2 < hi ∧ e.1.2.toNat ≠ e.1.2.toNat &&& e.1.1))
    let stat := match x with
      | .glist q b _ => ((s.gAct q).live && decide ((s.gAct q).bank = b)) || ((s.gPend q).live && decide ((s.gPend q).bank = b))
      | _ => false
    let range := !x.rangeOk new || (match x with
      | .queue _ => moved && decide (leAt old 0 1 % 2 = 1 ∨ leAt old 36 4 ≠ 0)
      | _ => false)
    let pause := match x with
      | .queue q => decide (q < 4096 ∧ leAt new 0 1 % 2 = 1 ∧ bitsOf (leAt new 0 1) 2 2 = 1 ∧
          ¬ (leAt old 0 1 % 2 = 1 ∧ bitsOf (leAt old 0 1) 2 2 = 1)) && s.b (macA (q / 64) 0x054) 0
      | _ => false
    let fence := match p with
      | .host => moved || decide (owner ≠ 0)
      | .boot => moved || decide (owner ≠ 0)
      | .warden d => moved || decide (owner ≠ d)
      | _ => false
    (if rsv then [3] else []) ++ (if stat then [4] else []) ++ (if range then [5] else []) ++ (if fence || pause then [7] else [])

/-- The part of a write that falls into a structure: first and past-last byte in it, and its bytes as written over. -/
def State.itemNew (s : State) (a : Nat) (data : List Byte) (x : WinItem) : Nat × Nat × List Byte :=
  let b := x.span.1
  let lo := a - b
  let hi := min x.span.2 (a + data.length - b)
  (lo, hi, putBytes (s.item x) lo (slice data (b - a) (hi - lo)))

/-- The kind that refuses a window write by a principal, 0 when it is accepted (R54, R56, R62, R526). -/
def State.winKind (s : State) (p : Principal) (enables : Bool) (a : Nat) (data : List Byte) : Nat :=
  match winItems a (max 1 data.length) with
  | none => 1
  | some xs =>
    if a % 4 ≠ 0 ∨ data.length % 4 ≠ 0 ∨ data.length < 4 ∨ 128 < data.length ∨ enables = false ∨
        a / 0x1000000 ≠ (a + data.length - 1) / 0x1000000 then 2
    else
      let ks := xs.flatMap (fun x => let n := s.itemNew a data x; s.itemChecks p x n.2.2 n.1 n.2.1)
      let ks := if p = .host ∧ s.f (topA 0x048) 2 0 ≤ 1 then 7 :: ks else ks
      (ks.foldl min 16) % 16

/-- A structure's bytes after an accepted write: state the device keeps stays, latches clear only (R212, R213), and written
shaper or meter settings are staged (R221, R313); a capture queue has no shaper (R309). -/
def WinItem.merge (x : WinItem) (old new : List Byte) (lo hi : Nat) : List Byte :=
  let hit := fun (a n : Nat) => decide (lo < a + n ∧ a < hi)
  match x with
  | .bank _ => old
  | .ring _ => ringMerge old new lo hi
  | .queue q =>
    let st := putBytes new 32 (slice old 32 32)
    if hit 16 16 && decide (q < 4352) then putBytes st 32 [BitVec.ofNat 8 (leAt old 32 1 ||| 1)] else st
  | .group _ =>
    let st := putBytes (putBytes new 20 (slice old 20 8)) 0 [BitVec.ofNat 8 ((leAt new 0 1 &&& 7) + (leAt old 0 1 &&& 8))]
    if hit 0 1 || hit 4 16 then putBytes st 0 [BitVec.ofNat 8 ((leAt new 0 1 &&& 7) + 8)] else st
  | .meter _ _ =>
    let st := putBytes (putBytes new 24 (slice old 24 8)) 19 [BitVec.ofNat 8 (leAt new 19 1 % 128 + leAt old 19 1 / 128 * 128)]
    if hit 0 24 then putBytes st 19 [BitVec.ofNat 8 (leAt new 19 1 % 128 + 128)] else st
  | .filter _ _ => putBytes new 0 [BitVec.ofNat 8 ((leAt new 0 1 &&& 3) + (leAt new 0 1 &&& leAt old 0 1 &&& 4))]
  | .gate _ _ => putBytes new 0 [BitVec.ofNat 8 ((leAt new 0 1 &&& 15) + (leAt new 0 1 &&& leAt old 0 1 &&& 16))]
  | .sched _ _ => new
  | .seqGen _ _ => new
  | .glist _ _ _ => new

/-- What follows when a structure has been written: rings evaluate their interrupt (R77), a meter that is out of use or a
schedule that is not in force takes its settings at once (R217, R221), selections that stop being eligible are withdrawn. -/
def State.itemWritten (s : State) (x : WinItem) : State :=
  match x with
  | .ring i => s.ringEval i
  | .meter k m => if meterEn (s.meterCfg k m) then s else s.meterLoad k m
  | .sched k j => if (s.sched k j).isEmpty then s.schedTake k j else s
  | .queue q => if q < 4352 then s.withdrawStale (q / 64) else s
  | .group k => s.withdrawStale (k / 8)
  | _ => s

/-- An accepted window write, seen whole: every piece is stored before anything follows from it. -/
def State.winStore (s : State) (a : Nat) (data : List Byte) : State :=
  let xs := (winItems a data.length).getD []
  let s := forEach xs s (fun s x =>
    let n := s.itemNew a data x
    s.winWr x.span.1 (x.merge (s.item x) n.2.2 n.1 n.2.1))
  forEach xs s (fun s x => s.itemWritten x)

/-- The domain whose fence refused a write (R427). -/
def State.winFence (s : State) (a n : Nat) : Option Nat :=
  (((winItems a n).getD []).map s.itemOwner).find? (fun d => decide (d ≠ 0))

/-- A host write to BAR2 below the aperture. -/
def State.hostWinWrite (s : State) (enables : Bool) (a : Nat) (data : List Byte) : State :=
  if s.hostOpen = false then s
  else
    let k := s.winKind .host enables a data
    if k ≠ 0 then
      let s := s.reject true a (some (word (leAt data 0 4))) k
      if k = 7 then s.countFence (s.winFence a data.length) else s
    else s.winStore a data

/-- The age of a queue's head copy in µs, saturating; 0 when the queue is empty (R311). -/
def State.headAge (s : State) (q : Nat) : Nat :=
  match s.onQueue q with
  | [] => 0
  | cid :: _ => min ((s.clk - (s.copy cid).enq) / 250) (2 ^ 20 - 1)

/-- A byte of a structure as it reads: bytes 56 to 59 of a queue are its head's age, the others what is stored. -/
def State.winByte (s : State) (a : Nat) : WinItem → Byte
  | .queue q => if 56 ≤ a % 64 ∧ a % 64 < 60 then BitVec.ofNat 8 (s.headAge q / 256 ^ (a % 4)) else s.win.at 0 a
  | _ => s.win.at 0 a

/-- The bytes of a window as a principal reads them: entries of a domain with sealed view read 0 for the host (R226, R313,
R363, R427); the bank reads its latched values (R408). -/
def State.winRead (s : State) (p : Principal) (a n : Nat) : List Byte :=
  (List.range n).map (fun i =>
    match winItem (a + i) with
    | some (.bank o) => BitVec.ofNat 8 (s.sta.bank.at 0 o / 256 ^ ((a + i) % 8))
    | some x => if p = .host ∧ s.sec.views.contains (s.itemOwner x) = true then 0 else s.winByte (a + i) x
    | none => 0)

end Sys2Proof.Machine
end

