-- ==== Sys2Proof/Machine/RegEffects.lean ====
section
/-! DEFINITION. What a register write does beyond storing its fields, block by block; what a register reads; writes and reads
of BAR0 by a principal (R9, R55 to R68). -/

namespace Sys2Proof.Machine

/-! ### Registers written into all five pages (R129, R160) -/

/-- The pages that a write of a PRS or PIP register reaches. -/
def sharedPages (b : Blk) (i off : Nat) : List Nat :=
  match b with
  | .prs => if off = 0x040 ∨ 0x100 ≤ off then (List.range 5).map prsPage else [prsPage i]
  | .pip => if off = 0x044 ∨ (0x0C0 ≤ off ∧ off < 0x100) ∨ 0x200 ≤ off then (List.range 5).map pipPage else [pipPage i]
  | b => [b.page i]

/-- Store an accepted write in every page it reaches; an RW-V register so written is staged for the open set (R202). -/
def State.storeAll (s : State) (b : Blk) (i : Nat) (r : RegReq) : State :=
  forEach (sharedPages b i r.off) s (fun s page =>
    let r := { r with page := page }
    let s := s.storeReg r
    if writesRwv r.desc r ∧ s.ver.staged.contains r.addr = false then { s with ver := { s.ver with staged := r.addr :: s.ver.staged } } else s)

/-! ### Counter clears -/

/-- The first counter that a clear register of a block names: bit n clears the counter 4n bytes on. -/
def clearBase (b : Blk) (off : Nat) : Option Nat :=
  match b, off with
  | .prs, 0x060 => some 0x04C
  | .pip, 0x078 => some 0x050
  | .lrn, 0x07C => some 0x058
  | .tbl, 0x08C => some 0x074
  | .pol, 0x06C => some 0x050
  | .glf, 0x09C => some 0x080
  | .rsq, 0x09C => some 0x080
  | .bpm, 0x130 => some 0x110
  | .tmg, 0x060 => some 0x050
  | .tsu, 0x294 => some 0x284
  | .tgs, 0x05C => some 0x050
  | .mir, 0x094 => some 0x080
  | .sta, 0x430 => some 0x424
  | .sta, 0x460 => some 0x450
  | .sec, 0x080 => some 0x070
  | .msc, 0x090 => some 0x070
  | .spr, 0x078 => some 0x060
  | .evr, 0x0A8 => some 0x090
  | .sds, 0x098 => some 0x078
  | _, _ => none

/-- Clear the counters that a mask selects. Each lane of an SDS has two; bit 7 of GLF_CNT_CLR clears every GLF_PLANE_ERR;
MIR_SESS_OVF clears with MIR_CNT_OVERFLOW (R379). -/
def State.clearCounters (s : State) (b : Blk) (i off mask : Nat) : State :=
  match clearBase b off with
  | none => s
  | some base =>
    forEach ((List.range 32).filter (fun n => decide (bitsOf mask n n = 1))) s (fun s n =>
      if b = .glf ∧ n = 7 then forEach (List.range 5) s (fun s p => s.wr (glfA (0x0A0 + 4 * p)) 0)
      else if b = .mir ∧ n = 1 then forEach (List.range 8) (s.wr (mirA 0x084) 0) (fun s x => s.wr (mirA (0x11C + 32 * x)) 0)
      else
        let s := s.wr (b.addr i (base + 4 * n)) 0
        if b = .sds then s.wr (b.addr i (base + 16 + 4 * n)) 0 else s)

/-! ### Effects -/

/-- Effects of the common registers: MSC_STATUS.thr clears with its cause. -/
def State.commonEffect (s : State) (b : Blk) (i off : Nat) (v : Word) : State :=
  match b with
  | .msc => if off = 0x008 ∧ bit v 1 = true then s.setB (mscA i 0x040) 0 false else s
  | _ => s

/-- Effects of writes to TOP, HIF, PMU, CLK, TSU and EVR. -/
def State.sysEffect (s : State) (dom : Nat) (otpOk : Bool) (b : Blk) (off : Nat) (v old : Word) : State :=
  match b with
  | .top =>
    match off with
    | 0x058 => s.warmReset
    | 0x304 => s.verOp dom (fld v 1 0)
    | 0x340 => s.sealStart
    | _ => s
  | .hif =>
    match off with
    | 0x048 => if bit v 31 then s.wr (hifA 0x054) 0 else s
    | 0x05C => s.eoi (fld v 7 0)
    | _ => s
  | .pmu =>
    if off = 0x044 then
      match fld v 1 0 with
      | 1 => s.lullEnter
      | 2 => s.powerDown
      | _ => s.lullAbort
    else s
  | .clk => if off = 0x084 ∧ bit v 0 = true then s.monClear else s
  | .tsu =>
    if off = 0x044 then s.snapshot (fld v 3 0)
    else if 0x080 ≤ off ∧ off < 0x180 ∧ (off - 0x080) % 64 = 0x18 then s.tbCmd ((off - 0x080) / 64) (fld v 1 0)
    else if 0x200 ≤ off ∧ off < 0x280 ∧ (off - 0x200) % 32 = 0x18 ∧ bit v 31 = true ∧ bit old 31 = true then
      s.popPin ((off - 0x200) / 32)
    else if 0x400 ≤ off ∧ (off - 0x400) % 16 = 0 ∧ bit v 31 = true ∧ bit old 31 = true then s.popTxts ((off - 0x400) / 16)
    else s
  | .evr =>
    match off with
    | 0x05C => s.evMirror
    | 0x0AC => s.evSoft (fld v 15 0)
    | _ => s
  | .sec => if off = 0x044 then s.doorbell (fld v 2 0) (fld v 11 8) (fld v 13 12) otpOk else s
  | _ => s

/-- Effects of writes to SPR, STA, PMC, TBL, BPM, GLF, HBC and MIR. -/
def State.coreEffect (s : State) (b : Blk) (i off : Nat) (v old : Word) : State :=
  match b with
  | .spr =>
    if off = 0x04C then
      let r := fld v 14 8
      match fld v 2 0 with
      | 1 => s.declareFault r 5 0 0
      | 2 => s.askTest r
      | 3 => s.approveHead
      | 4 => (s.refuseRepair 1).popRepair
      | _ => s.request 7 r (r - 64)
    else s
  | .sta =>
    if off = 0x044 then s.staEnable (bit old 31)
    else if off = 0x048 ∧ bit v 0 = true then s.softFront
    else s
  | .pmc => if off = 0x044 ∧ bit v 8 = true then s.pmcStop else s
  | .tbl => if off = 0x04C ∧ bit old 0 = true ∧ s.b (tblA 0x04C) 0 = false then s.dmaStop else s
  | .bpm =>
    if off = 0x044 then
      let s := if bit old 0 = false ∧ s.b (bpmA 0x044) 0 = true then s.bpmEnable else s
      if bit v 8 then s.requestSweep else s
    else s
  | .glf =>
    if off = 0x044 then (if bit old 31 = false ∧ s.b (glfA 0x044) 31 = true then s.fillCredits else s)
    else if off = 0x050 then
      match fld v 5 4 with
      | 1 => s.planeFault (fld v 2 0) 4 7 7
      | 2 => s.testPlane (fld v 2 0) none
      | _ => s.swapIn (fld v 2 0)
    else s
  | .hbc =>
    match off with
    | 0x070 => s.resumeSlot (32 * i + fld v 4 0)
    | 0x074 => s.startPpr i v.toNat
    | _ => s
  | .mir =>
    if off = 0x040 ∨ off = 0x044 ∨ off = 0x04C ∨ off = 0x054 then s.capFull
    else if 0x100 ≤ off ∧ off < 0x200 ∧ off % 32 = 0 ∧ bit old 0 = false ∧ s.b (mirA off) 0 = true then
      { s with mir := { s.mir with seen := s.mir.seen.put 0 ((off - 0x100) / 32) 0 } }
    else s
  | _ => s

/-- Effects of writes to SDS, MAC, PIP, RSQ, TGS and MSC. -/
def State.pathEffect (s : State) (b : Blk) (i off : Nat) (v old : Word) : State :=
  match b with
  | .sds =>
    if off = 0x040 then s.quadModeSet i
    else if 0x048 ≤ off ∧ off < 0x058 then s.laneEnable i ((off - 0x048) / 4) (bit old 0)
    else s
  | .mac =>
    match off with
    | 0x040 => (s.rxBoundary i).txBoundary i
    | 0x064 => (s.preemptEval i).txBoundary i
    | _ => s
  | .pip =>
    if off = 0x080 then
      let s := if bit v 0 then s.startTakeover (s.f (pipA i 0x080) 2 1) true else s
      if bit v 16 then s.release else s
    else if 0x0C0 ≤ off ∧ off < 0x100 then
      let m := (off - 0x0C0) / 4
      if s.pol.puntSet.contains m then s
      else { s with pol := { s.pol with puntSet := m :: s.pol.puntSet, puntNew := m :: s.pol.puntNew } }
    else s
  | .rsq =>
    if off = 0x0A0 ∧ bit v 24 = true then (s.setB (rsqA i 0x0A0) 24 false).setB (rsqA i 0x0A0) 31 true else s
  | .tgs =>
    if 0x100 ≤ off ∧ off < 0x300 then
      let p := 16 * i + (off - 0x100) / 32
      match (off - 0x100) % 32 with
      | 0 =>
        let s := if bit old 0 = true ∧ s.b (tgsPortA p 0) 0 = false then s.disableGates p else s
        let s := if bit v 8 then s.commitList p else s
        if bit v 9 then s.cancelList p else s
      | 0x14 => s.adminGates p
      | _ => s
    else s
  | .msc => if off = 0x048 ∧ bit v 24 = true then s.mscGo i else s
  | _ => s

/-- What an accepted write of a register does after its fields are stored: `v` the bits written, `old` the word before. -/
def State.regEffect (s : State) (p : Principal) (otpOk : Bool) (b : Blk) (i off : Nat) (v old : Word) : State :=
  let s := s.clearCounters b i off v.toNat
  if off < 0x40 then s.commonEffect b i off v
  else ((s.sysEffect p.domain otpOk b off v old).coreEffect b i off v old).pathEffect b i off v old

/-- Carry out an accepted write: its fields, its effect, and then the watchpoints that see it (R557). -/
def State.carryOut (s : State) (p : Principal) (otpOk : Bool) (r : RegReq) : State :=
  match pageOf r.page with
  | none => s
  | some (b, i) =>
    let old := s.rd r.addr
    let t := s.storeAll b i r
    (if acts r.desc r then t.regEffect p otpOk b i r.off (r.val &&& r.mask) old else t).watch 0 0 r.addr

/-- A checked write of a 32-bit word by a principal: the kind that refuses it (0: accepted) and the state. The warden's and
the boot sequencer's writes to far pages complete at once (R439, R531). -/
def State.tryWrite (s : State) (p : Principal) (otpOk full : Bool) (addr : Nat) (data : Word) : Nat × State :=
  let r := resolve (addr / 4 * 4) data
  let k := s.regCheck p (full && decide (addr % 4 = 0)) r
  if k ≠ 0 then (k, s)
  else
    match pageOf r.page with
    | none => (1, s)
    | some (b, _) =>
      if isPosted b r.off && !p.isWarden && decide (p ≠ .boot) then (0, s.postFar addr data r) else (0, s.carryOut p otpOk r)

/-! ### Reads -/

/-- Bits of a number given by a predicate. -/
def bitsBy (n : Nat) (f : Nat → Bool) : Nat := sumBy (fun i => if f i then 2 ^ i else 0) (List.range n)

/-- What a register reads: the stored word, or for registers that show a state kept elsewhere, that state. -/
def State.readReg (s : State) (b : Blk) (i off : Nat) : Word :=
  let a := b.addr i off
  let stored := s.rd a
  if off = 0x004 then setFld (setBit stored 29 (s.b (b.addr i 0x014) 31)) 19 16 (s.f (b.addr i 0x018) 3 0)
  else if off = 0x010 then s.pagePend (b.page i)
  else
    match b with
    | .top =>
      if off = 0x060 then word (bitsBy 32 s.topPend)
      else if off = 0x064 then word (bitsBy 32 (fun n => s.topPend (32 + n)))
      else stored
    | .hif =>
      if 0x060 ≤ off ∧ off < 0x078 then
        let w := (off - 0x060) / 4
        word (bitsBy 32 (fun n => s.pendPages.contains (32 * w + n)))
      else stored
    | .clk =>
      if 0x200 ≤ off ∧ off < 0x21C then
        let w := (off - 0x200) / 4
        word (bitsBy 32 (fun n => s.domRuns (32 * w + n)))
      else stored
    | .pmu =>
      if off = 0x040 then
        setBit stored 0 ((List.range 64).any (fun p => s.b (macA p 0x06C) 0 || s.b (macA p 0x06C) 1))
      else stored
    | .evr => if off = 0x050 then word (s.opSec / 3600) else stored
    | .tbl => if off = 0x040 then setBit stored 0 s.dmaReady else stored
    | .dbg =>
      if 0x080 ≤ off ∧ off < 0x094 then word (bitsBy 12 (fun n => (s.stageToken ((off - 0x080) / 4) n).isSome))
      else if 0x0A0 ≤ off ∧ off < 0x0D0 then word (leAt s.dbg.chal (off - 0x0A0) 4)
      else stored
    | .lrn => if off = 0x054 then word s.lrnTime else stored
    | .pip => if off = 0x040 then setBit stored 0 (bit stored 0 && !s.halted i) else stored
    | .bpm =>
      if 0x340 ≤ off ∧ off < 0x480 then
        let e := s.f (bpmA 0x054) 2 0
        let q := 5 * ((off - 0x340) / 4) + e
        word (min ((s.bpm.inShr.at 0 q + 1023) / 1024) 65535 * 65536 + min (s.bpm.inResv.at 0 q) 16383)
      else stored
    | .pol =>
      if off = 0x040 then
        let running := ((List.range 256).filter (fun j => !(s.sched i j).isEmpty)).length
        let staged := s.win.any (fun e => decide (polWin i ≤ e.1 ∧ e.1 < polWin i + 0x40000 ∧ e.1 % 32 = 19 ∧ 128 ≤ e.2.toNat))
        word (running + b2n staged * 65536)
      else if 0x080 ≤ off ∧ off < 0x280 then
        let w := (off - 0x080) / 4
        word (bitsBy 32 (fun n => s.gateShown i (32 * w + n)))
      else stored
    | _ => stored

/-- What a read leaves behind: EVR_OPTIME_H latches EVR_OPTIME_S (R518). -/
def State.readEffect (s : State) (b : Blk) (off : Nat) : State :=
  match b with
  | .evr => if off = 0x050 then s.wr (evrA 0x054) (word (s.opSec % 3600)) else s
  | _ => s

/-- A read of BAR0: the kind that refuses it (1 unimplemented, 2 size), the word and the state after. -/
def State.tryRead (s : State) (addr : Nat) : Nat × Word × State :=
  let r := resolve (addr / 4 * 4) 0
  match pageOf r.page with
  | none => (1, 0, s)
  | some (b, i) =>
    match regAt b i r.off with
    | none => (1, 0, s)
    | some _ => if addr % 4 ≠ 0 then (2, 0, s) else (0, s.readReg b i r.off, s.readEffect b r.off)

end Sys2Proof.Machine
end

