-- ==== Sys2Proof/Machine/DebugPort.lean ====
section
/-! DEFINITION. The debug port (chapter 24): wire accesses to the DBG page, sessions and unlocking, halting and stepping,
memory access, and boundary scan. -/

namespace Sys2Proof.Machine

def State.onDbg (s : State) (f : Dbg → Dbg) : State := { s with dbg := f s.dbg }

/-- Whether a session is open. -/
def State.dbgOpen (s : State) : Bool := s.b (dbgA 0x040) 1

/-! ### Halting and stepping (R555, R556) -/

/-- A write of DBG_HALT: bits of 1 halt their pipelines, bits of 0 resume theirs. -/
def State.dbgHalt (s : State) (m : Nat) : State := s.setHalt m

/-- Set or clear DBG_HALT_STATUS.step_err. -/
def State.stepErr (s : State) (e : Bool) : State := s.setB (dbgA 0x058) 8 e

/-- The port whose oldest waiting frame pipeline k would admit next in a step: the oldest arrival of those P4's round robin
or nothing else keeps back. -/
def State.stepPort (s : State) (k : Nat) : Option Nat :=
  ((List.range 68).foldl (fun (best : Option (Nat × Nat)) p =>
    if s.pipeOf p ≠ k ∨ (k = 4 ∧ (s.leeTurn (leeSource p)).isNone) then best
    else
      match s.nextStaged p with
      | none => best
      | some f =>
        if f.parseReady = false ∨ (s.behind f = true ∧ s.passed (prsPage k) = false) then best
        else
          match best with
          | none => some (f.ord, p)
          | some b => if f.ord < b.1 then some (f.ord, p) else best) none).map (fun b => b.2)

/-- A step of a halted pipeline: one token moves, or nothing does and step_err sets. -/
def State.dbgStep (s : State) (k n : Nat) : State :=
  if n = 12 then
    match s.stepPort k with
    | none => s.stepErr true
    | some p => if (s.stageToken k 0).isSome then s.stepErr true else (s.parseAdmit k p true).stepErr false
  else if (s.stageToken k n).isNone ∨ (n < 11 ∧ (s.stageToken k (n + 1)).isSome) then s.stepErr true
  else (s.stageStep k n true).stepErr false

/-- DBG_TOKEN_SEL copies the parse result of the token at a stage; zeros where there is none. -/
def State.tokenCopy (s : State) (k n : Nat) : State :=
  let bs := match s.stageToken k n with | some f => f.parseBytes | none => []
  forEach (List.range 12) s (fun s w => s.wr (dbgA (0x0D0 + 4 * w)) (word (leAt bs (4 * w) 4)))

/-! ### Memory access (R559) -/

/-- The result of an access: err, kind, the word read, the state. -/
structure MaRes where
  err  : Nat
  kind : Nat
  data : Word
  st   : State

/-- Spaces 0 and 1: as a host access without fences. -/
def State.maBar0 (s : State) (a : Nat) (write : Bool) (d : Word) : MaRes :=
  if write then
    let r := s.tryWrite .debug true true a d
    ⟨b2n (r.1 ≠ 0), r.1, d, r.2⟩
  else
    let r := s.tryRead a
    ⟨b2n (r.1 ≠ 0), r.1, if r.1 = 0 then r.2.1 else d, r.2.2⟩

def State.maBar2 (s : State) (a : Nat) (write : Bool) (d : Word) : MaRes :=
  if 0x20000000 ≤ a ∧ a < 0x40000000 then
    let h := s.f (hifA 0x058) 13 0 * 0x200000 + (a - 0x20000000)
    if a % 4 ≠ 0 then ⟨1, 2, d, s⟩
    else if s.hbmBadRun h 4 then ⟨1, 0xB, d, s⟩
    else if write then ⟨0, 0, d, (s.hbmRequests h 4 true).hbmWr h (leBytes 4 d.toNat)⟩
    else ⟨0, 0, word (leVal (s.hbmLook h 4).1), (s.hbmLook h 4).2.hbmRequests h 4 false⟩
  else if write then
    let k := s.winKind .debug true a (leBytes 4 d.toNat)
    if k ≠ 0 then ⟨1, k, d, s⟩ else ⟨0, 0, d, s.winStore a (leBytes 4 d.toNat)⟩
  else if a % 4 ≠ 0 then ⟨1, 2, d, s⟩
  else if (winItems a 4).isNone then ⟨1, 1, d, s⟩
  else ⟨0, 0, word (leVal (s.winRead .debug a 4)), s⟩

/-- Space 2: one copy of a table. Words written are collected; the last word of the entry sends the whole entry. -/
def State.maTable (s : State) (lo hi : Nat) (write : Bool) (d : Word) : MaRes :=
  let t := hi % 16
  let c := hi / 16 % 8
  let w := bitsOf lo 23 20
  let i := lo % 2 ^ 20
  let words := entSize t / 4
  if entCount t ≤ i ∨ 5 ≤ c ∨ words ≤ w then ⟨2, 0, d, s⟩
  else
    let o := entBase t + i * entSize t
    if write = false then ⟨0, 0, word (leVal (s.bankRd c (o + 4 * w) 4)), s⟩
    else
      let key := fun (w : Nat) => ((c * 16 + t) * 2 ^ 20 + i) * 16 + w
      let s := s.onDbg (fun x => { x with words := x.words.put 0 (key w) d })
      if w + 1 < words then ⟨0, 0, d, s⟩
      else
        let ks := (List.range words).map key
        let bs := ks.flatMap (fun k => leBytes 4 (s.dbg.words.at 0 k).toNat)
        let s := s.onDbg (fun x => { x with words := x.words.filter (fun e => !ks.contains e.1) })
        ⟨0, 0, d, (s.bankWr c o bs).watch 1 t i⟩

/-- Space 3: HBM by physical address. -/
def State.maHbm (s : State) (a : Nat) (write : Bool) (d : Word) : MaRes :=
  let a := a / 4 * 4
  if 2 ^ 35 ≤ a then ⟨2, 0, d, s⟩
  else if s.hbmBad a then ⟨3, 0, d, s⟩
  else if write then ⟨0, 0, d, (s.hbmRequests a 4 true).hbmWr a (leBytes 4 d.toNat)⟩
  else ⟨0, 0, word (leVal (s.hbmLook a 4).1), (s.hbmLook a 4).2.hbmRequests a 4 false⟩

/-- Space 4: the SRAM of a region. The cell store of region 30 is laid out word by word; the spec places no word of any
other region's SRAM, so a read there gives a free value. -/
def State.maSram (s : State) (region w : Nat) (write : Bool) (d : Word) : MaRes :=
  if s.regionExists region = false ∨ region = 62 ∨ region = 63 then ⟨2, 0, d, s⟩
  else if region = 30 then
    if 5 * 16384 * 64 ≤ w then ⟨2, 0, d, s⟩
    else if write then ⟨0, 0, d, { s with sram := writeBytes s.sram (4 * w) (leBytes 4 d.toNat) }⟩
    else ⟨0, 0, word (leVal (readBytes s.sram (4 * w) 4)), s⟩
  else if write then ⟨0, 0, d, s⟩
  else
    let (n, s) := s.draw
    ⟨0, 0, word (Config.freeValue n), s⟩

/-- One access in a space; a space that R559 does not name is out of range. -/
def State.maAccess (s : State) (space lo hi : Nat) (write : Bool) (d : Word) : MaRes :=
  match space with
  | 0 => s.maBar0 (hi * 2 ^ 32 + lo) write d
  | 1 => s.maBar2 (hi * 2 ^ 32 + lo) write d
  | 2 => s.maTable lo hi write d
  | 3 => s.maHbm (hi * 2 ^ 32 + lo) write d
  | 4 => s.maSram (hi % 128) lo write d
  | _ => ⟨2, 0, d, s⟩

/-- The address of the next word in a space. -/
def maNext (space lo hi : Nat) : Nat × Nat :=
  match space with
  | 2 =>
    if bitsOf lo 23 20 + 1 < entSize (hi % 16) / 4 then (lo + 2 ^ 20, hi)
    else (lo / 2 ^ 24 * 2 ^ 24 + (lo % 2 ^ 20 + 1) % 2 ^ 20, hi)
  | 4 => ((lo + 1) % 2 ^ 32, hi)
  | _ => ((lo + 4) % 2 ^ 32, (hi + (lo + 4) / 2 ^ 32) % 2 ^ 32)

/-- The access in progress completes: err and its kind are reported, and with inc the address moves on. -/
def State.maDone (s : State) : State :=
  let ctl := s.rd (dbgA 0x068)
  if bit ctl 31 = false then s
  else
    let lo := (s.rd (dbgA 0x06C)).toNat
    let hi := (s.rd (dbgA 0x070)).toNat
    let r := s.maAccess (fld ctl 10 8) lo hi (bit ctl 1) (s.rd (dbgA 0x074))
    let s := r.st
    if s.b (dbgA 0x068) 31 = false then s
    else
      let s := ((s.setB (dbgA 0x068) 31 false).setF (dbgA 0x068) 30 28 r.err).setF (dbgA 0x068) 27 24 r.kind
      let s := if bit ctl 1 = false ∧ r.err = 0 then s.wr (dbgA 0x074) r.data else s
      if bit ctl 4 then
        let n := maNext (fld ctl 10 8) lo hi
        (s.wr (dbgA 0x06C) (word n.1)).wr (dbgA 0x070) (word n.2)
      else s

/-- go starts an access in a session. -/
def State.maGo (s : State) : State := (s.setB (dbgA 0x068) 0 false).setB (dbgA 0x068) 31 true

/-! ### Sessions and unlocking (R551 to R554) -/

/-- A session opens; with any tenant SA valid, R444 applies first. -/
def State.sessOpen (s : State) : State :=
  let s := if s.tenantSas.any (fun x => decide (leAt (s.mscEnt x.1 2 x.2) 0 1 % 2 = 1)) then
      s.debugTaint.setB (dbgA 0x040) 3 true else s
  (s.setB (dbgA 0x040) 1 true).onDbg (fun d => { d with lastAt := s.clk })

/-- A session closes: pipelines resume, breakpoints and watchpoints are disabled, an access in progress completes, and the
port locks again. -/
def State.sessClose (s : State) : State :=
  if s.dbgOpen = false then s
  else
    let s := (s.maDone.wr (dbgA 0x054) 0).dbgHalt 0
    let s := forEach (List.range 8) s (fun s i => s.setB (dbgA (0x100 + 16 * i)) 0 false)
    let s := forEach (List.range 4) s (fun s j => (s.setB (dbgA (0x180 + 16 * j)) 0 false).setB (dbgA (0x1C4 + 8 * j)) 0 false)
    (s.setB (dbgA 0x040) 1 false).setB (dbgA 0x040) 0 true

/-- A signature word is pushed: its first byte is in [31:24]. -/
def State.respPush (s : State) (w : Word) : State :=
  (s.onDbg (fun d => { d with resp := d.resp ++ beBytes 4 w.toNat })).setF (dbgA 0x050) 9 0 (s.f (dbgA 0x050) 9 0 + 1)

/-- Words a signature of an algorithm takes. -/
def sigWords (alg : Nat) : Nat := match alg with | 1 => 24 | 2 => 828 | _ => 0

/-- Signature bytes of an algorithm. -/
def sigBytes (alg : Nat) : Nat := match alg with | 1 => 96 | _ => 3309

/-- What the challenge is signed with: SHA-384 of it with TOP_ID and TOP_STEP behind it. -/
def State.unlockMsg (s : State) : List Byte :=
  Crypto.sha384 (s.dbg.chal ++ beBytes 4 (s.rd (topA 0x040)).toNat ++ beBytes 4 (s.rd (topA 0x044)).toNat)

/-- Whether the words pushed are a signature of the challenge under the root key of slot 0. -/
def State.unlockOk (s : State) : Bool :=
  let o := s.otpNow
  let alg := o.algs.at 0 0
  let key := o.roots.at [] 0
  !key.isEmpty && decide (0 < sigWords alg ∧ s.f (dbgA 0x050) 9 0 = sigWords alg) &&
    Config.rootVerify alg key s.unlockMsg (s.dbg.resp.take (sigBytes alg))

/-- op 3: unlock, or count a failure; either way a fresh challenge. -/
def State.dbgUnlock (s : State) : State :=
  let s := if s.unlockOk then
      ((s.debugTaint.setB (dbgA 0x040) 3 true).setB (dbgA 0x040) 0 false).report 6 1 0x1801
    else
      let n := s.dbg.fails + 1
      let s := ((s.onDbg (fun d => { d with fails := n })).setF (dbgA 0x040) 6 4 n).report 6 1 0x1802
      if 4 ≤ n then (s.setB (dbgA 0x040) 2 true).report 6 3 0x1805 else s
  ((s.onDbg (fun d => { d with resp := [] })).setF (dbgA 0x050) 9 0 0).newChal

/-! ### Wire accesses (R549, R550) -/

/-- One shift of a CRC register of `n` bits. -/
def crcBit (n poly c : Nat) (b : Bool) : Nat :=
  let top := decide (2 ^ (n - 1) ≤ c)
  let c := c * 2 % 2 ^ n
  if top ≠ b then c ^^^ poly else c

/-- A CRC over bits in the order they are sent, initial value 0. -/
def crcBits (n poly : Nat) (bs : List Bool) : Nat := bs.foldl (crcBit n poly) 0

/-- The bits of a word in the order they are sent, least significant first (R548). -/
def wireBitsOf (w : Word) : List Bool := (List.range 32).map (bit w)

/-- What an accepted wire write does beyond its fields. -/
def State.dbgEffect (s : State) (off : Nat) (v : Word) : State :=
  match off with
  | 0x044 =>
    match fld v 1 0 with
    | 1 => s.sessOpen
    | 2 => s.sessClose
    | _ => s.dbgUnlock
  | 0x04C => s.respPush v
  | 0x054 => s.dbgHalt (fld v 4 0)
  | 0x05C => s.dbgStep (fld v 2 0) (fld v 11 8)
  | 0x068 => if bit v 0 then s.maGo else s
  | 0x078 => s.tokenCopy (fld v 2 0) (fld v 11 8)
  | _ => s

/-- A valid packet has arrived. -/
def State.wireHeard (s : State) : State := s.onDbg (fun d => { d with lastAt := s.clk })

/-- A write packet whose codes are right: the access is carried out, or rejected with status error. -/
def State.wireWrite (s : State) (off : Nat) (v : Word) : State :=
  if s.alive = false then s
  else
    let s := s.wireHeard
    let r : RegReq := ⟨6, off, maskOf 31 0, v⟩
    let k := s.regCheck .wire true r
    if k ≠ 0 then (s.pageErr 6 off true k).emit (.dbgStatus 4)
    else (((s.storeReg r).dbgEffect off v).watch 0 0 r.addr).emit (.dbgStatus 1)

/-- A read packet whose code is right. -/
def State.wireRead (s : State) (off : Nat) : State :=
  if s.alive = false then s
  else
    let s := s.wireHeard
    match regAt .dbg 0 off with
    | none => (s.pageErr 6 off false 1).emit (.dbgStatus 4)
    | some _ =>
      let w := s.readReg .dbg 0 off
      (s.emit (.dbgStatus 1)).emit (.dbgData w (crcBits 8 7 (wireBitsOf w)))

/-- The number whose bits are sent least significant first. -/
def bitsNum : List Bool → Nat
  | [] => 0
  | b :: bs => b2n b + 2 * bitsNum bs

/-- What the receiver does when a bit has joined the packet in progress: 3 bits decide the op, 14 complete a read, 54 a
write (R549). -/
def State.wireBits (s : State) (rx : List Bool) : State :=
  let keep := s.onDbg (fun d => { d with rx })
  let idle := s.onDbg (fun d => { d with rx := [] })
  let op := bitsNum ((rx.drop 1).take 2)
  let off := 4 * bitsNum ((rx.drop 3).take 7)
  let crc4 := decide (crcBits 4 3 ((rx.drop 1).take 9) = bitsNum ((rx.drop 10).take 4))
  if rx.length < 3 then keep
  else if op ≠ 1 ∧ op ≠ 2 then idle
  else if op = 1 ∧ rx.length = 14 then
    if crc4 then idle.wireRead off else idle.emit (.dbgStatus 4)
  else if rx.length = 54 then
    let data := (rx.drop 14).take 32
    if crc4 && decide (crcBits 8 7 data = bitsNum (rx.drop 46)) then idle.wireWrite off (word (bitsNum data))
    else idle.emit (.dbgStatus 4)
  else keep

/-- A bit the probe sends (R548): the port waits for a start bit of 1. -/
def State.wireBit (s : State) (b : Bool) : State :=
  if s.dbg.rx.isEmpty && !b then s else s.wireBits (s.dbg.rx ++ [b])

/-- DBG_IO held high for 64 clocks. -/
def execDbgReceiverReset (s : State) : Host.Outcome State Fault Refusal := answer s (s.onDbg (fun d => { d with rx := [] }))

def execDbgSessionOpen (s : State) : Host.Outcome State Fault Refusal := answer s (s.wireWrite 0x044 1)
def execDbgSessionClose (s : State) : Host.Outcome State Fault Refusal := answer s (s.wireWrite 0x044 2)
def execDbgRespPush (value : Word) (s : State) : Host.Outcome State Fault Refusal := answer s (s.wireWrite 0x04C value)
def execDbgUnlock (s : State) : Host.Outcome State Fault Refusal := answer s (s.wireWrite 0x044 3)

/-- DBG_CTL.idle ms have passed without a valid packet. -/
def State.idleClose (s : State) : State :=
  if s.alive && s.dbgOpen then s.sessClose.report 6 2 0x1804 else s

def execDbgIdleTimeout (s : State) : Host.Outcome State Fault Refusal := answer s s.idleClose

def execDbgHaltWrite (halt : BitVec 5) (s : State) : Host.Outcome State Fault Refusal :=
  answer s (s.wireWrite 0x054 (word halt.toNat))

def execDbgStep (pipe : BitVec 3) (stage : BitVec 4) (s : State) : Host.Outcome State Fault Refusal :=
  answer s (s.wireWrite 0x05C (word (pipe.toNat + stage.toNat * 256)))

def execDbgTokenSelect (pipe : BitVec 3) (stage : BitVec 4) (s : State) : Host.Outcome State Fault Refusal :=
  answer s (s.wireWrite 0x078 (word (pipe.toNat + stage.toNat * 256)))

def execDbgMemAccess (space : BitVec 3) (inc write : Bool) (s : State) : Host.Outcome State Fault Refusal :=
  answer s (s.wireWrite 0x068 (word (1 + 2 * b2n write + 16 * b2n inc + 256 * space.toNat)))

def execDbgMemAccessDone (s : State) : Host.Outcome State Fault Refusal := answer s (if s.alive then s.maDone else s)

/-! ### Boundary scan (R560) -/

/-- The instruction that acts for an opcode: EXTEST, CLAMP and HIGHZ only in factory test mode or while Open. -/
def State.jtagActs (s : State) (op : Nat) : Nat :=
  match op with
  | 0x01 => 0x01
  | 0x02 => 0x02
  | 0x00 => if s.topState = 6 ∨ s.f (secA 0x040) 1 0 = 0 then 0x00 else 0xFF
  | 0x04 => if s.topState = 6 ∨ s.f (secA 0x040) 1 0 = 0 then 0x04 else 0xFF
  | 0x05 => if s.topState = 6 ∨ s.f (secA 0x040) 1 0 = 0 then 0x05 else 0xFF
  | _ => 0xFF

/-- The JTAG port takes an instruction; with IDCODE it shifts out the device's identity. -/
def State.jtagTake (s : State) (op : Nat) : State :=
  let s := s.onDbg (fun d => { d with jtag := op })
  if op = 0x01 then s.emit (.jtagId 0xA6400C2F) else s

def execJtagInstruction (opcode : Byte) (s : State) : Host.Outcome State Fault Refusal :=
  answer s (if s.alive then s.jtagTake (s.jtagActs opcode.toNat) else s)

/-- A TRST_N low pulse: the port starts again with IDCODE (PRESUMED IEEE 1149.1). -/
def execJtagReset (s : State) : Host.Outcome State Fault Refusal := answer s (s.onDbg (fun d => { d with jtag := 0x01 }))

end Sys2Proof.Machine
end

