-- ==== Sys2Proof/Machine/Writes.lean ====
section
/-! DEFINITION. Requests of the host to the three BARs (R51 to R68), posted writes that complete, and packets on the debug
wire (R549). -/

namespace Sys2Proof.Machine

/-! ### BAR0 -/

/-- A host write to BAR0: carried out or posted, or rejected whole (R61, R62). -/
def State.bar0Write (s : State) (addr : Nat) (enables : Bool) (data : List Byte) (otpOk : Bool) : State :=
  if s.hostOpen = false then s
  else
    let addr := addr % 2 ^ 24
    let w := word (leAt data 0 4)
    let t := s.tryWrite .host otpOk (enables && decide (data.length = 4)) addr w
    if t.1 = 0 then t.2 else s.rejectReg addr w (resolve (addr / 4 * 4) w) t.1

/-- The posted write to a page completes at its block (R65). -/
def State.farDone (s : State) (page : Nat) : State :=
  if s.b (page * 0x1000 + 4) 31 then
    let w := s.hif.far.at {} page
    let s := { s with hif := { s.hif with far := s.hif.far.put {} page {} } }
    (s.setB (page * 0x1000 + 4) 31 false).carryOut .host true ⟨page, w.off, w.mask, w.data⟩
  else s

def execFarWriteComplete (page : Nat) (s : State) : Host.Outcome State Fault Refusal := answer s (s.farDone page)

/-- The domain whose item a register is, for a read of a sealed view (R427). -/
def State.readOwner (s : State) (b : Blk) (i off : Nat) : Nat :=
  match b with
  | .msc => if 0x100 ≤ off ∧ off < 0x200 then (off - 0x100) / 4 % 16 else 0
  | b => s.regOwner b i off

/-- A host read of BAR0. A read of a far page waits for its posted write (R66). Zeros for an item of a sealed view (R427). -/
def State.bar0Read (s : State) (addr len : Nat) (enables : Bool) : State :=
  if s.hostOpen = false then s
  else
    let addr := addr % 2 ^ 24
    let r := resolve (addr / 4 * 4) 0
    match pageOf r.page with
    | none => s.reject false addr none 1
    | some (b, i) =>
      if (regAt b i r.off).isNone then s.reject false addr none 1
      else if addr % 4 ≠ 0 ∨ len ≠ 4 ∨ enables = false then s.reject false addr none 2
      else if s.f (topA 0x048) 2 0 ≤ 1 ∧ b ≠ .top ∧ b ≠ .pmu ∧ b ≠ .evr then s.reject false addr none 7
      else
        let s := if isPosted b r.off then s.farDone r.page else s
        let own := s.readOwner b i r.off
        let w := if own ≠ 0 ∧ s.sec.views.contains own = true then 0 else s.readReg b i r.off
        (s.readEffect b r.off).emit (.completion (leBytes 4 w.toNat))

/-! ### BAR2 -/

def State.bar2Write (s : State) (addr : Nat) (enables : Bool) (data : List Byte) : State :=
  let addr := addr % 2 ^ 30
  if addr < 0x20000000 then s.hostWinWrite enables addr data
  else if enables = false ∧ s.hostOpen = true then s.reject true addr (some (word (leAt data 0 4))) 2
  else s.aperture (addr - 0x20000000) data.length (some data)

def State.bar2Read (s : State) (addr len : Nat) (enables : Bool) : State :=
  let addr := addr % 2 ^ 30
  if s.hostOpen = false then s
  else if 0x20000000 ≤ addr then
    if enables = false then s.reject true addr none 2 else s.aperture (addr - 0x20000000) len none
  else if (winItems addr (max 1 len)).isNone then s.reject true addr none 1
  else if addr % 4 ≠ 0 ∨ len % 4 ≠ 0 ∨ len < 4 ∨ 128 < len ∨ enables = false ∨ addr / 0x1000000 ≠ (addr + len - 1) / 0x1000000 then
    s.reject true addr none 2
  else if s.f (topA 0x048) 2 0 ≤ 1 then s.reject true addr none 7
  else s.emit (.completion (s.winRead .host addr len))

/-! ### BAR4: the MSI-X table and PBA (R51), each entry address, data and mask as PCI Express lays them out (PRESUMED) -/

/-- A dword of the table. -/
def State.msixWord (s : State) (a : Nat) : Nat :=
  let e := s.msix (a / 16)
  match a % 16 / 4 with
  | 0 => e.addr % 2 ^ 32
  | 1 => e.addr / 2 ^ 32
  | 2 => e.data
  | _ => b2n e.masked

/-- Write a dword of the table; a vector that is unmasked sends its message when its level is 1. -/
def State.msixWrite (s : State) (a v : Nat) : State :=
  let i := a / 16
  let e := s.msix i
  let put := fun (e : MsixEnt) => { s with hif := { s.hif with msix := s.hif.msix.put {} i e } }
  match a % 16 / 4 with
  | 0 => put { e with addr := e.addr / 2 ^ 32 * 2 ^ 32 + v }
  | 1 => put { e with addr := v * 2 ^ 32 + e.addr % 2 ^ 32 }
  | 2 => put { e with data := v }
  | _ => if v % 2 = 1 then put { e with masked := true } else s.unmask i

/-- Dword writes of the table; the PBA and every other place take no write. -/
def State.bar4Write (s : State) (addr : Nat) (enables : Bool) (data : List Byte) : State :=
  if s.hostOpen = false ∨ enables = false ∨ addr % 4 ≠ 0 ∨ data.length % 4 ≠ 0 then s
  else forEach (List.range (data.length / 4)) s (fun s i =>
    let a := addr % 2 ^ 14 + 4 * i
    if a < 0x1000 then s.msixWrite a (leAt data (4 * i) 4) else s)

def State.bar4Read (s : State) (addr len : Nat) : State :=
  if s.hostOpen = false then s
  else s.emit (.completion ((List.range len).map (fun n =>
    let a := addr % 2 ^ 14 + n
    if a < 0x1000 then BitVec.ofNat 8 (s.msixWord a / 256 ^ (a % 4))
    else if 0x2000 ≤ a ∧ a < 0x2020 then BitVec.ofNat 8 (bitsBy 8 (fun i => s.pba (8 * (a - 0x2000) + i)))
    else 0)))

/-! ### The rows -/

/-- A host request, or the bits a probe sends while it drives DBG_IO. `otpOk`: whether OTP writes that a SEC doorbell makes
succeed. -/
def execRegisterWrite (via : Via) (otpOk : Bool) (s : State) : Host.Outcome State Fault Refusal :=
  answer s (match via with
    | .write .bar0 a en d => s.bar0Write a en d otpOk
    | .write .bar2 a en d => s.bar2Write a en d
    | .write .bar4 a en d => s.bar4Write a en d
    | .read .bar0 a n en => s.bar0Read a n en
    | .read .bar2 a n en => s.bar2Read a n en
    | .read .bar4 a n _ => s.bar4Read a n
    | .wire bits => forEach bits s (fun s b => s.wireBit b))

/-- R64: a write to the low or high alias of a register. -/
def execMaskedAliasWrite (page : Nat) (off : BitVec 10) (high : Bool) (sel val : BitVec 16) (s : State) :
    Host.Outcome State Fault Refusal :=
  answer s (s.bar0Write (page * 0x1000 + (if high then 0xC00 else 0x800) + off.toNat) true
    (leBytes 4 (sel.toNat * 65536 + val.toNat)) true)

/-- A write of a counter clear register: issue to completion, also on a far page. -/
def State.clearWrite (s : State) (page off : Nat) (mask : Word) : State :=
  match pageOf page with
  | none => s
  | some (b, _) =>
    if (clearBase b off).isNone then s
    else
      let busy := s.b (page * 0x1000 + 4) 31
      let s := s.bar0Write (page * 0x1000 + off) true (leBytes 4 mask.toNat) true
      if isPosted b off && !busy then s.farDone page else s

def execCounterClearWrite (page : Nat) (off : BitVec 11) (mask : Word) (s : State) : Host.Outcome State Fault Refusal :=
  answer s (s.clearWrite page off.toNat mask)

end Sys2Proof.Machine
end

