-- ==== Sys2Proof/Machine/Warden.lean ====
section
/-! DEFINITION. The warden (R433 to R445): command frames at port 67, their checks in the order of R434, the operations of R436
and their responses. -/

namespace Sys2Proof.Machine

/-! ### Command frames (R433) -/

/-- Where the field after EtherType 0x88B5 stands: behind at most two tags. -/
def cmdStart (bs : List Byte) : Nat :=
  let tag := fun (o : Nat) => decide (beAt bs o 2 ≠ 0x88B5)
  if tag 12 then (if tag 16 then 22 else 18) else 14

/-- A command: its domain, whether it came from a front port, and the bytes from fmt on. -/
structure WIn where
  dom   : Nat
  front : Bool
  b     : List Byte
  deriving DecidableEq, Repr

def WIn.op (c : WIn) : Nat := beAt c.b 2 2
def WIn.seq (c : WIn) : Nat := beAt c.b 4 4
def WIn.nonce (c : WIn) : List Byte := slice c.b 8 16
def WIn.len (c : WIn) : Nat := beAt c.b 24 2
def WIn.alg (c : WIn) : Nat := beAt c.b 26 1 % 4
def WIn.body (c : WIn) : List Byte := slice c.b 28 c.len
/-- What the signature covers, and the signature. -/
def WIn.msg (c : WIn) : List Byte := c.b.take (28 + c.len)
def WIn.sig (c : WIn) : List Byte := slice c.b (28 + c.len) (sigBytes c.alg)

/-- Bytes of a public key of an algorithm (R436). -/
def keyBytes (alg : Nat) : Nat := if alg = 1 then 97 else 1952

/-- Operations of R436. -/
def opKnown (op : Nat) : Bool :=
  [0x0001, 0x0010, 0x0020, 0x0021, 0x0030, 0x0031, 0x0032, 0x0040, 0x0041, 0x0042, 0x0050, 0x0051, 0x0052, 0x0060, 0x0070].contains op

/-- Whether the body length fits the operation; an item list is checked apart. -/
def bodyLenOk (op alg n : Nat) : Bool :=
  match op with
  | 0x0010 => decide (n = keyBytes alg)
  | 0x0020 => true
  | 0x0021 => true
  | 0x0040 => decide (n = 32)
  | 0x0041 => decide (n = 72)
  | 0x0042 => decide (n = 2)
  | 0x0050 => decide (n = 1)
  | 0x0051 => decide (n = 1)
  | 0x0052 => decide (n = 2)
  | _ => decide (n = 0)

/-- An item of R437. -/
structure WItem where
  space : Nat
  unit_ : Nat
  addr  : Nat
  len   : Nat
  data  : List Byte
  deriving DecidableEq, Repr

/-- The items of a body; none when it does not end with an item. An item of a READ has no data, but a table item's command
(the first 32 bytes of its data). -/
def witems (read : Bool) : Nat → List Byte → Option (List WItem)
  | 0, bs => if bs.isEmpty then some [] else none
  | n + 1, bs =>
    if bs.isEmpty then some []
    else
      let sp := beAt bs 0 1
      let len := beAt bs 8 2
      let held := if read = true ∧ sp ≠ 3 then 0 else len
      if bs.length < 10 + held then none
      else (witems read n (bs.drop (10 + held))).map (fun xs => ⟨sp, beAt bs 1 3, beAt bs 4 4, len, slice bs 10 held⟩ :: xs)

def WIn.items (c : WIn) : Option (List WItem) := witems (decide (c.op = 0x0021)) c.body.length c.body

/-- Order 1: fmt, reserved bits, alg and lengths. -/
def WIn.formOk (c : WIn) : Bool :=
  decide (28 ≤ c.b.length ∧ beAt c.b 0 1 = 1 ∧ beAt c.b 1 1 = c.dom ∧ beAt c.b 26 1 < 3 ∧ beAt c.b 27 1 = 0) &&
  decide (c.alg ≠ 0 ∨ c.op = 0x0001) &&
  decide (c.len ≤ 12000 ∧ 28 + c.len + (if c.alg = 0 then 0 else sigBytes c.alg) ≤ c.b.length) &&
  (!opKnown c.op || (bodyLenOk c.op c.alg c.len && (decide (c.op ≠ 0x0020 ∧ c.op ≠ 0x0021) || c.items.isSome)))

/-! ### Items (R437, R438) -/

/-- The result of an item: status, bytes for the response, state. -/
structure WRes where
  st  : Nat
  out : List Byte := []
  s   : State

/-- The status for a rejected access of kind `k`. -/
def kindStatus (k : Nat) : Nat := if k = 0 then 0 else if k = 7 then 8 else 0x0A

/-- Whether a BAR0 register is one that R437 space 1 opens to domain `d`. -/
def State.tenantReg (s : State) (b : Blk) (i off d : Nat) : Bool :=
  (decide (b = .tgs) && decide (0x100 ≤ off ∧ off < 0x300) && decide (s.regOwner b i off = d)) ||
    (decide (b = .bpm) && decide (0x200 ≤ off ∧ off < 0x340) && decide (s.regOwner b i off = d))

/-- A domain's ceiling on reserved cells: the least of the groups', a group without an entry giving 0. -/
def State.resvCeiling (s : State) (d : Nat) : Nat :=
  (List.range 5).foldl (fun m e =>
    min m (sumBy (fun (a : Alloc) => if a.kind = 0x14 ∧ a.unit_ = e ∧ a.dom = d then a.count else 0) s.sec.allocs)) 16384

/-- Reserved cells of a domain's requesters, a quota register taken at another value. -/
def State.resvSum (s : State) (d off v : Nat) : Nat :=
  sumBy (fun k =>
    let o := 0x200 + 4 * (16 * k + d)
    if o = off then v % 16384 else s.f (bpmA o) 13 0) (List.range 5)

/-- Space 1, one register word, in network order. -/
def State.itemReg (s : State) (d a : Nat) (write : Bool) (v : Nat) : WRes :=
  match pageOf (a / 0x1000) with
  | none => ⟨8, [], s⟩
  | some (b, i) =>
    let off := a % 0x1000
    if s.tenantReg b i off d = false then ⟨8, [], s⟩
    else if write = false then
      let r := s.tryRead a
      ⟨kindStatus r.1, beBytes 4 r.2.1.toNat, r.2.2⟩
    else if b = .bpm ∧ s.resvCeiling d < s.resvSum d off v then ⟨9, [], s⟩
    else
      let s := if isPosted b off then s.farDone (a / 0x1000) else s
      let r := s.tryWrite (.warden d) true true a (word v)
      ⟨kindStatus r.1, [], r.2⟩

/-- Words of a space 1 item in order. -/
def State.itemRegs (s : State) (d : Nat) (x : WItem) (write : Bool) : WRes :=
  if x.len = 0 ∨ x.len % 4 ≠ 0 then ⟨0x0A, [], s⟩
  else (List.range (x.len / 4)).foldl (fun (r : WRes) n =>
    if r.st ≠ 0 then r
    else
      let q := r.s.itemReg d (x.addr + 4 * n) write (beAt x.data (4 * n) 4)
      ⟨q.st, r.out ++ q.out, q.s⟩) ⟨0, [], s⟩

/-- Space 2: window bytes. -/
def State.itemWin (s : State) (d : Nat) (x : WItem) (write : Bool) : WRes :=
  match winItems x.addr (max 1 x.len) with
  | none => ⟨0x0A, [], s⟩
  | some xs =>
    if xs.any (fun w => decide (s.itemOwner w ≠ d)) then ⟨8, [], s⟩
    else
      let bytes := if write then x.data else List.replicate x.len (0 : Byte)
      if write then
        let k := s.winKind (.warden d) true x.addr bytes
        if k ≠ 0 then ⟨kindStatus k, [], s⟩ else ⟨0, [], s.winStore x.addr bytes⟩
      else if x.addr % 4 ≠ 0 ∨ x.len % 4 ≠ 0 ∨ x.len < 4 ∨ 128 < x.len then ⟨0x0A, [], s⟩
      else ⟨0, s.winRead (.warden d) x.addr x.len, s⟩

/-- The R437 status for a table status. -/
def tableStatus (st : Nat) : Nat := if st = 0 then 0 else if st = 2 then 8 else if st = 0x22 then 9 else 0x0A

/-- Space 3: an R178 command and its entries, run on the warden's ring (R179). -/
def State.itemTable (s : State) (d : Nat) (x : WItem) (write : Bool) : WRes :=
  let c := x.data.take 32
  let op := leAt c 0 1 % 16
  let t := leAt c 1 1 % 16
  let index := leAt c 4 4 % 2 ^ 20
  let count := leAt c 8 2 % 2 ^ 13
  let ents := x.data.drop 32
  if (write = true ∧ op ≠ 1 ∧ op ≠ 3 ∧ op ≠ 4) ∨ (write = false ∧ op ≠ 2) then ⟨0x0A, [], s⟩
  else
    let h := if cmdRsv c then 6 else s.cmdHead op t (leAt c 2 1 % 8) index count
    let (st, done, out, s) :=
      if h ≠ 0 then (h, 0, [], s)
      else
        let r := s.runEntries op t index count d (leAt c 2 1 % 8) (fun _ n => slice ents (n * entSize t) (entSize t))
        (r.1, r.2.1, r.2.2.2.1, if op = 2 then r.2.2.2.2 else r.2.2.2.2.pmc 13 4 r.2.1)
    let s := s.bump (tblA 0x05C)
    let s := if st ≠ 0 then s.dmaError st t done true 0 else s
    ⟨tableStatus st, beBytes 1 (st % 16) ++ out, s⟩

/-- The status for the err of an indirect access (R274, R452). -/
def errStatus (err : Nat) : Nat := if err = 0 then 0 else if err = 2 then 8 else 0x0A

/-- Space 4: addr holds target and index as RSQ_IND_CTL does. -/
def State.itemRsq (s : State) (d : Nat) (x : WItem) (write : Bool) : WRes :=
  if 5 ≤ x.unit_ then ⟨0x0A, [], s⟩
  else
    let t := bitsOf x.addr 17 16
    let r := s.rsqDo x.unit_ t (bitsOf x.addr 14 0) d write (slice x.data 0 28)
    ⟨errStatus r.1, if r.1 = 0 ∧ write = false then r.2.1 else [], r.2.2⟩

/-- Space 5: addr holds target and index as MSC_IND_CTL does; 0x100 to 0x1FC names MSC_TX_SEL by its offset. -/
def State.itemMsc (s : State) (d : Nat) (x : WItem) (write : Bool) : WRes :=
  if 16 ≤ x.unit_ then ⟨0x0A, [], s⟩
  else if 0x100 ≤ x.addr ∧ x.addr < 0x200 then
    if (x.addr - 0x100) / 4 % 16 ≠ d then ⟨8, [], s⟩
    else if write then
      let s := s.farDone (mscPage x.unit_)
      let r := s.tryWrite (.warden d) true (decide (x.len = 4)) (mscA x.unit_ x.addr) (word (beAt x.data 0 4))
      ⟨kindStatus r.1, [], r.2⟩
    else ⟨0, beBytes 4 (s.rd (mscA x.unit_ (x.addr / 4 * 4))).toNat, s⟩
  else
    let t := bitsOf x.addr 17 16
    let i := bitsOf x.addr 8 0
    if mscCountOf t ≤ i then ⟨0x0A, [], s⟩
    else if write then
      let r := s.mscWrite x.unit_ t i d (slice x.data 0 64)
      ⟨errStatus r.1, [], r.2⟩
    else if s.mscOwner x.unit_ t i ≠ d then ⟨8, [], s⟩
    else ⟨0, s.mscShow x.unit_ t i d, s⟩

/-- One item. Before an allocation is loaded no tenant owns anything (R431, R440). -/
def State.runItem (s : State) (d : Nat) (x : WItem) (write : Bool) : WRes :=
  if s.b (secA 0x040) 8 = false then ⟨8, [], s⟩
  else
    match x.space with
    | 1 => s.itemRegs d x write
    | 2 => s.itemWin d x write
    | 3 => s.itemTable d x write
    | 4 => s.itemRsq d x write
    | 5 => s.itemMsc d x write
    | _ => ⟨0x0A, [], s⟩

/-- Items in order, up to the first that fails: the response gives the items done, then what each gives. -/
def State.runItems (s : State) (d : Nat) (xs : List WItem) (write : Bool) : WRes :=
  let r := xs.foldl (fun (a : Nat × WRes) x =>
    if a.2.st ≠ 0 then a
    else
      let q := a.2.s.runItem d x write
      (if q.st = 0 then a.1 + 1 else a.1, ⟨q.st, a.2.out ++ q.out, q.s⟩)) ((0, ⟨0, [], s⟩) : Nat × WRes)
  ⟨r.2.st, beBytes 2 r.1 ++ r.2.out, r.2.s⟩

/-- A table item of the command waits: TBL is isolated, or a running bank remap holds it (R490, R498). -/
def State.itemWaits (s : State) (x : WItem) : Bool :=
  let c := x.data
  decide (x.space = 3) && (s.regionDown 31 || (decide (leAt c 0 1 % 16 ≠ 2) && s.bankHeld (leAt c 1 1 % 16) (leAt c 4 4 % 2 ^ 20) (leAt c 8 2 % 2 ^ 13)))

/-! ### Operations (R436, R441 to R445) -/

/-- VER_OPEN, VER_COMMIT, VER_CLOSE: the R201 result follows the status; an accepted commit gives 1. -/
def State.verResultOf (s : State) (d op : Nat) : Nat :=
  if s.b (topA 0x300) 24 then 3
  else match op with
    | 1 => if s.b (topA 0x300) 12 then 4 else 1
    | 2 => if s.setOpenFor d = false then 3 else if 4 ≤ s.f (topA 0x300) 10 8 then 2 else 1
    | _ => if s.setOpenFor d = false then 3 else 5

def State.wardenVer (s : State) (d op : Nat) : WRes := ⟨0, beBytes 2 (s.verResultOf d op), s.verOp d op⟩

/-- KEK_INIT. -/
def State.kekInit (s : State) (d : Nat) (kek : List Byte) : WRes :=
  let o := s.otpNow
  ⟨0, [], (s.setOtp { o with keks := o.keks.put [] d kek }).showOtp⟩

/-- The SA entry a KEY_LOAD gives. -/
def saOf (d : Nat) (body key : List Byte) : List Byte :=
  let flags := beAt body 2 1
  leBytes 1 (1 + 2 * bitsOf flags 2 2 + 4 * bitsOf flags 0 0 + 8 * bitsOf flags 1 1) ++ leBytes 1 d ++ [0, 0] ++
    leBytes 4 (beAt body 4 4) ++ leBytes 8 (beAt body 8 8) ++ slice body 16 12 ++ leBytes 4 (beAt body 28 4) ++ slice key 0 32

/-- KEY_LOAD. -/
def State.keyLoad (s : State) (d : Nat) (body : List Byte) : WRes :=
  let q := beAt body 0 1
  let i := beAt body 1 1
  let flags := beAt body 2 1
  let long := decide (bitsOf flags 1 1 = 1)
  let kek := s.otpNow.keks.at [] d
  if 16 ≤ q ∨ 8 ≤ flags ∨ beAt body 3 1 ≠ 0 ∨ (long = false ∧ beAt body 56 16 ≠ 0) then ⟨0x0A, [], s⟩
  else if s.mscOwner q 2 i ≠ d then ⟨8, [], s⟩
  else if kek.isEmpty then ⟨0x0B, [], s⟩
  else
    match Crypto.keyUnwrap kek (slice body 32 (if long then 40 else 24)) with
    | none => ⟨0x0B, [], s⟩
    | some key =>
      let s := { s with sec := { s.sec with thrSaid := s.sec.thrSaid.filter (fun k => decide (k ≠ q * 256 + i)) } }
      ⟨0, [], s.mscPut q 2 i (saOf d body (slice key 0 (if long then 32 else 16)))⟩

/-- KEY_ERASE. -/
def State.keyErase (s : State) (d : Nat) (body : List Byte) : WRes :=
  let q := beAt body 0 1
  let i := beAt body 1 1
  if 16 ≤ q then ⟨0x0A, [], s⟩
  else if s.mscOwner q 2 i ≠ d then ⟨8, [], s⟩
  else ⟨0, [], (s.zeroSa q i).report 11 3 0x2C04 (Config.zeroizeCause 1)⟩

/-- SET_VIEW, SET_MIRROR, SET_MACSEC_REQ. -/
def State.setView (s : State) (d : Nat) (on : Bool) : WRes :=
  let vs := s.sec.views.filter (fun x => decide (x ≠ d))
  ⟨0, [], { s with sec := { s.sec with views := if on then d :: vs else vs } }.setB (secA (0x0C0 + 4 * d)) 10 on⟩

def State.setMirror (s : State) (d : Nat) (on : Bool) : WRes :=
  ⟨0, [], (s.setB (mirA 0x070) d on).setB (secA (0x0C0 + 4 * d)) 11 on⟩

def State.setMacsecReq (s : State) (d p : Nat) (on : Bool) : WRes :=
  if 64 ≤ p then ⟨0x0A, [], s⟩
  else
    let s := s.farDone (mscPage (p / 4))
    ⟨0, [], s.setB (mscA (p / 4) (0x060 + 4 * (p % 4))) (16 + d) on⟩

/-- RESEAL: tenant SAs go, then the next generation is Open. -/
def State.reseal (s : State) : WRes :=
  let s := s.zeroize false 3
  let s := { s with sec := { s.sec with gen := s.sec.gen + 1 } }.showOtp
  ⟨0, [], s.setB (dbgA 0x040) 3 s.otpNow.taint⟩

/-- A structure's bytes with the state the device keeps taken as zeros. -/
def State.settings (s : State) (x : WinItem) : List Byte :=
  let bs := s.item x
  let zero := fun (o n : Nat) => putBytes bs o (List.replicate n 0)
  match x with
  | .ring _ => zero 12 2
  | .queue _ => zero 32 32
  | .group _ => putBytes (zero 20 12) 0 [bs.getD 0 0 &&& 7]
  | .meter _ _ => putBytes (zero 24 8) 19 [bs.getD 19 0 &&& 127]
  | .filter _ _ => putBytes bs 0 [bs.getD 0 0 &&& 3]
  | .gate _ _ => putBytes bs 0 [bs.getD 0 0 &&& 15]
  | _ => bs

/-- The bytes that stand for an item in the config digest. -/
def State.digestItem (s : State) (kind u i : Nat) : List Byte :=
  match kind with
  | 0x01 => s.settings (.ring i)
  | 0x02 => s.settings (.ring (1024 + i))
  | 0x03 => s.settings (.queue i)
  | 0x04 => (List.range 8).flatMap (fun w => leBytes 4 (s.rd (tgsA (i / 16) (0x100 + 32 * (i % 16) + 4 * w))).toNat) ++
      s.winRd (0x4000000 + i * 0x4000) 0x4000
  | 0x05 => s.settings (.group i)
  | 0x06 => leBytes 4 (s.rd (tblA (0x100 + 4 * i))).toNat
  | 0x07 => s.settings (.meter u i)
  | 0x08 => s.settings (.filter u i)
  | 0x09 => s.settings (.gate u i)
  | 0x0A => s.settings (.sched u i)
  | 0x0B => s.settings (.seqGen u i)
  | 0x0C => s.rsqEnt u 1 i
  | 0x0D => s.ent 0 9 i
  | 0x0E => s.ent 0 10 i
  | 0x10 => s.mscEnt (u / 4) 0 (64 * (u % 4) + i)
  | 0x11 => s.mscEnt (u / 4) 1 (64 * (u % 4) + i)
  | 0x12 => putBytes ((s.mscEnt u 2 i).take 32) 8 (List.replicate 8 0)
  | 0x13 => s.ent 0 1 i
  | _ => []

/-- The config digest: a domain's items by kind, unit and index; under kind 0x0F the entries it owns. -/
def State.configDigest (s : State) (d : Nat) : List Byte :=
  let mine := s.sec.allocs.filter (fun a => decide (a.dom = d))
  Crypto.sha384 ((List.range 0x15).flatMap (fun kind =>
    let of_ := mine.filter (fun a => decide (a.kind = kind))
    (List.range 65).flatMap (fun u =>
      if kind = 0x0F then
        if of_.any (fun a => decide (a.unit_ = u)) then
          (List.range (entCount u)).flatMap (fun i =>
            let e := s.ent 0 u i
            if entValid u e && (s.entOwners u i e).contains d then e else [])
        else []
      else
        ((of_.filter (fun a => decide (a.unit_ = u))).mergeSort (fun a b => decide (a.first ≤ b.first))).flatMap (fun a =>
          (List.range a.count).flatMap (fun i => s.digestItem kind u (a.first + i))))))

/-- The shared tables in force. -/
def State.sharedDigest (s : State) : List Byte :=
  Crypto.sha384 ([11, 12, 13].flatMap (fun t => (List.range (entCount t)).flatMap (fun i => s.ent 0 t i)))

/-- ATTEST (R445). -/
def State.attest (s : State) (c : WIn) : WRes :=
  let d := c.dom
  let cfg := s.rd (secA (0x0C0 + 4 * d))
  let st := s.rd (secA 0x040)
  let flags := b2n (bit st 9) + 2 * b2n (bit cfg 1) + 4 * b2n (bit cfg 10) + 8 * b2n (bit cfg 9) + 16 * b2n (bit st 8)
  let sect := s.sec.section_.at ([], 0) d
  let t := s.tb 0
  ⟨0, beBytes 1 1 ++ beBytes 1 d ++ beBytes 1 (fld st 1 0) ++ beBytes 1 flags ++ beBytes 1 (fld st 5 4) ++ [0, 0, 0] ++
    beBytes 4 (s.rd (topA 0x040)).toNat ++ beBytes 4 (s.rd (topA 0x044)).toNat ++ slice Config.serial 0 16 ++
    slice s.otpNow.digest 0 48 ++ slice (s.configDigest d) 0 48 ++ slice s.sharedDigest 0 48 ++ slice sect.1 0 48 ++
    beBytes 4 sect.2 ++ beBytes 4 (s.rd (secA 0x060)).toNat ++ beBytes 4 (s.rd (secA (0x100 + 4 * d))).toNat ++
    beBytes 1 s.verC ++ [0, 0, 0] ++ c.nonce ++ beBytes 4 c.seq ++ beBytes 6 t.sec ++ beBytes 4 t.ns ++ [0, 0], s⟩

/-- The domain's current nonce; a first one is drawn when it has none. -/
def State.haveNonce (s : State) (d : Nat) : State :=
  if (s.sec.nonces.at [] d).isEmpty then
    let r := s.random 16
    { r.2 with sec := { r.2.sec with nonces := r.2.sec.nonces.put [] d r.1 } }
  else s

/-- ENROLL. -/
def State.enroll (s : State) (d : Nat) (key : List Byte) : WRes :=
  ⟨0, [], { s with sec := { s.sec with keys := s.sec.keys.put [] d key } }.setB (secA (0x0C0 + 4 * d)) 8 true⟩

/-! ### The checks (R434) -/

/-- Order 7. -/
def State.opAllowed (s : State) (c : WIn) : Bool :=
  let o := s.otpNow
  match c.op with
  | 0x0010 => true
  | 0x0060 => true
  | 0x0040 => decide (c.dom ≠ 0 ∧ s.sealState = 1) && c.front && (o.keks.at [] c.dom).isEmpty && !o.taint
  | 0x0041 => decide (c.dom ≠ 0) && !o.taint
  | 0x0070 => decide (c.dom = 0 ∧ 1 ≤ s.sealState ∧ s.sec.gen < 3)
  | _ => decide (c.dom ≠ 0)

/-- Orders 3 and 4: 0, 6 or 3. -/
def State.authCheck (s : State) (c : WIn) : Nat :=
  let o := s.otpNow
  let root := o.roots.at [] c.dom
  let key := s.sec.keys.at [] c.dom
  if root.isEmpty ∨ o.algs.at 0 c.dom ≠ c.alg then 6
  else if c.op = 0x0010 then (if Crypto.sha384 c.body = root then 0 else 3)
  else if key.isEmpty then 6
  else if Crypto.sigVerify c.alg key c.msg c.sig then 0
  else 3

/-- A failure at order 4: the sixteenth within one second locks the domain out for a second. -/
def State.sigFailed (s : State) (d : Nat) : State :=
  let s := s.bump (secA 0x078)
  let ts := (s.sec.badSig.at [] d).filter (fun t => decide (s.clk < t + seconds 1)) ++ [s.clk]
  if 16 ≤ ts.length then
    { s with sec := { s.sec with badSig := s.sec.badSig.put [] d [], locked := d :: s.sec.locked } }.report 11 1 0x2C02
  else { s with sec := { s.sec with badSig := s.sec.badSig.put [] d ts } }

/-- Orders 3 to 7 for every op but GET_NONCE: the status and the state; what passes order 4 takes a fresh nonce and sets the
last seq. -/
def State.wardenAuth (s : State) (c : WIn) : Nat × State :=
  let a := s.authCheck c
  if a = 3 then (3, s.sigFailed c.dom)
  else if a ≠ 0 then (a, s)
  else
    let old := s.sec.nonces.at [] c.dom
    let last := s.sec.seqs.at 0 c.dom
    let r := s.random 16
    let s := { r.2 with sec := { r.2.sec with nonces := r.2.sec.nonces.put [] c.dom r.1, seqs := r.2.sec.seqs.put 0 c.dom (c.seq + 1) } }.pmc 11 4
    if old.isEmpty ∨ old ≠ c.nonce then (4, s)
    else if c.seq < last then (5, s)
    else if s.opAllowed c = false then (7, s)
    else (0, s)

/-! ### Responses (R435) -/

/-- A status other than 0 is counted and captured first-only (R438). -/
def State.wardenCount (s : State) (c : WIn) (st : Nat) : State :=
  if st = 0 then s.bump (secA 0x070)
  else
    let s := (s.bump (secA 0x074)).pmc 11 7
    let w := 2 ^ 31 + c.dom * 2 ^ 24 + st % 256 * 65536 + c.op
    if s.b (secA 0x064) 31 then s
    else ((s.wr (secA 0x064) (word w)).wr (secA 0x068) (word c.seq)).report 11 0 0x2C01 w c.seq

/-- The bytes of a response frame without its FCS. -/
def State.responseBytes (s : State) (cmd : List Byte) (c : WIn) (st : Nat) (out : List Byte) : List Byte :=
  let body := beBytes 2 st ++ out
  let alg := if c.alg = 0 then 1 else c.alg
  let head := slice c.b 0 2 ++ beBytes 2 (c.op + 0x8000) ++ beBytes 4 c.seq ++ slice (s.sec.nonces.at [] c.dom) 0 16 ++
    beBytes 2 body.length ++ slice c.b 26 2
  let signed := head ++ body
  let mac := beBytes 2 (s.f (secA 0x05C) 15 0) ++ beBytes 4 (s.rd (secA 0x058)).toNat
  let bs := slice cmd 6 6 ++ mac ++ slice cmd 12 (cmdStart cmd - 12) ++ signed ++ slice (Config.deviceSign alg signed s.fresh) 0 (sigBytes alg)
  bs ++ List.replicate (60 - bs.length) 0

/-- The response enters P4 at port 67 in the command's domain; none while staging has no room for it. -/
def State.respond (s : State) (cmd : List Byte) (c : WIn) (st : Nat) (out : List Byte) : Option State :=
  let body := s.responseBytes cmd c st out
  let s := s.draw.2
  let bs := body ++ leBytes 4 (crc32 body)
  if s.stageFits 4 0 bs.length = false then none
  else
    let f : Frame := { id := s.nextId, after := s.frontMark 11, src := 67, inPort := 67, grp := 4, wireLen := bs.length, complete := true, lenKnown := true,
                       domain := c.dom, place := .staged, ord := s.nextId }
    let s := (s.slot 67 0x23).led 11 1 67 0
    some ({ s.setFrame f with nextId := s.nextId + 1 }.stageBytes f.id bs)

/-! ### The rows -/

/-- The command of an inbox entry. -/
def WCmd.input (c : WCmd) : WIn := ⟨c.dom, c.front, c.bytes.drop (cmdStart c.bytes)⟩

/-- Finish a command: counts and response; the warden waits while its response has no room. -/
def State.wardenFinish (s : State) (cmd : WCmd) (r : WRes) : State :=
  match (r.s.wardenCount cmd.input r.st).respond cmd.bytes cmd.input r.st r.out with
  | some t => t
  | none => s

/-- The head of the warden's queue is taken. A head that fails order 1 or 2 is answered, and one of a locked-out domain is
dropped, whatever the row; any other is taken by the row of its op. -/
def State.wardenTake (s : State) (op : Nat) (run : WIn → State → WRes) : State :=
  match s.sec.inbox with
  | [] => s
  | cmd :: rest =>
    let c := cmd.input
    let t := { s with sec := { s.sec with inbox := rest } }
    if s.alive = false ∨ s.regionDown 59 = true then s
    else if s.sec.locked.contains c.dom then t
    else if c.formOk = false then s.wardenFinish cmd ⟨1, [], t⟩
    else if opKnown c.op = false then s.wardenFinish cmd ⟨2, [], t⟩
    else if c.op ≠ op then s
    else if (c.items.getD []).any s.itemWaits ∧ (op = 0x0020 ∨ op = 0x0021) then s
    else if op = 0x0001 then s.wardenFinish cmd (run c t)
    else
      let a := t.wardenAuth c
      if a.1 ≠ 0 then s.wardenFinish cmd ⟨a.1, [], a.2⟩ else s.wardenFinish cmd (run c a.2)

def execGetNonce (s : State) : Host.Outcome State Fault Refusal :=
  answer s (s.wardenTake 0x0001 (fun c s => ⟨0, [], s.haveNonce c.dom⟩))
def execEnroll (s : State) : Host.Outcome State Fault Refusal :=
  answer s (s.wardenTake 0x0010 (fun c s => s.enroll c.dom c.body))
def execWardenWrite (s : State) : Host.Outcome State Fault Refusal :=
  answer s (s.wardenTake 0x0020 (fun c s => s.runItems c.dom (c.items.getD []) true))
def execWardenRead (s : State) : Host.Outcome State Fault Refusal :=
  answer s (s.wardenTake 0x0021 (fun c s => s.runItems c.dom (c.items.getD []) false))
def execVerOpen (s : State) : Host.Outcome State Fault Refusal :=
  answer s (s.wardenTake 0x0030 (fun c s => s.wardenVer c.dom 1))
def execVerCommit (s : State) : Host.Outcome State Fault Refusal :=
  answer s (s.wardenTake 0x0031 (fun c s => s.wardenVer c.dom 2))
def execVerClose (s : State) : Host.Outcome State Fault Refusal :=
  answer s (s.wardenTake 0x0032 (fun c s => s.wardenVer c.dom 3))
def execKekInit (s : State) : Host.Outcome State Fault Refusal :=
  answer s (s.wardenTake 0x0040 (fun c s => s.kekInit c.dom c.body))
def execKeyLoad (s : State) : Host.Outcome State Fault Refusal :=
  answer s (s.wardenTake 0x0041 (fun c s => s.keyLoad c.dom c.body))
def execKeyErase (s : State) : Host.Outcome State Fault Refusal :=
  answer s (s.wardenTake 0x0042 (fun c s => s.keyErase c.dom c.body))
def execSetView (s : State) : Host.Outcome State Fault Refusal :=
  answer s (s.wardenTake 0x0050 (fun c s => s.setView c.dom (decide (beAt c.body 0 1 % 2 = 1))))
def execSetMirror (s : State) : Host.Outcome State Fault Refusal :=
  answer s (s.wardenTake 0x0051 (fun c s => s.setMirror c.dom (decide (beAt c.body 0 1 % 2 = 1))))
def execSetMacsecReq (s : State) : Host.Outcome State Fault Refusal :=
  answer s (s.wardenTake 0x0052 (fun c s => s.setMacsecReq c.dom (beAt c.body 0 1) (decide (beAt c.body 1 1 % 2 = 1))))
def execAttest (s : State) : Host.Outcome State Fault Refusal :=
  answer s (s.wardenTake 0x0060 (fun c s => s.attest c))
def execReseal (s : State) : Host.Outcome State Fault Refusal :=
  answer s (s.wardenTake 0x0070 (fun _ s => s.reseal))

/-- One second after a lockout began, the domain's commands are answered again. -/
def execSignatureLockoutEnd (dom : Dom) (s : State) : Host.Outcome State Fault Refusal :=
  answer s { s with sec := { s.sec with locked := s.sec.locked.filter (fun d => decide (d ≠ dom.val)) } }

/-! ### Tenant sections (R440) -/

/-- The commands of a tenant section, laid end to end: header, body and signature each; none when they do not fill it. -/
def sectCmds (d : Nat) : Nat → List Byte → Option (List WIn)
  | 0, bs => if bs.isEmpty then some [] else none
  | n + 1, bs =>
    if bs.isEmpty then some []
    else
      let c : WIn := ⟨d, false, bs⟩
      let len := 28 + c.len + sigBytes c.alg
      if c.formOk = false then none
      else (sectCmds d n (bs.drop len)).map (fun cs => ⟨d, false, bs.take len⟩ :: cs)

/-- The status of a section's checks: 1 format, 2 another op than ENROLL first and WRITE and VER ops after it, 6 and 3 the key
and the signatures, 4 a nonce other than zeros, 5 differing seq. -/
def State.sectCheck (s : State) (d : Nat) (cs : List WIn) : Nat :=
  let o := s.otpNow
  match cs with
  | [] => 1
  | e :: rest =>
    if e.op ≠ 0x0010 ∨ rest.any (fun c => decide (c.op ≠ 0x0020 ∧ c.op ≠ 0x0030 ∧ c.op ≠ 0x0031 ∧ c.op ≠ 0x0032)) then 2
    else if (o.roots.at [] d).isEmpty ∨ cs.any (fun c => decide (c.alg ≠ o.algs.at 0 d)) then 6
    else if Crypto.sha384 e.body ≠ o.roots.at [] d ∨ cs.any (fun c => !Crypto.sigVerify c.alg e.body c.msg c.sig) then 3
    else if cs.any (fun c => decide (c.nonce ≠ List.replicate 16 0)) then 4
    else if cs.any (fun c => decide (c.seq ≠ e.seq)) then 5
    else 0

/-- Run a tenant section: its status, and the state; a failing one leaves the domain unenrolled. -/
def State.tenantSection (s : State) (d : Nat) (body : List Byte) : Nat × State :=
  match sectCmds d body.length body with
  | none => (1, s)
  | some cs =>
    let k := s.sectCheck d cs
    if k ≠ 0 then (k, s)
    else
      let first := (cs.head?.map WIn.body).getD []
      let seq := (cs.head?.map WIn.seq).getD 0
      let r := (cs.drop 1).foldl (fun (r : WRes) c =>
        if r.st ≠ 0 then r
        else if c.op = 0x0020 then r.s.runItems d (c.items.getD []) true
        else r.s.wardenVer d (c.op - 0x002F)) (s.enroll d first)
      let s := { r.s with sec := { r.s.sec with section_ := r.s.sec.section_.put ([], 0) d (Crypto.sha384 body, seq) } }
      if r.st = 0 then (0, s)
      else (r.st, { s with sec := { s.sec with keys := s.sec.keys.put [] d [] } }.setB (secA (0x0C0 + 4 * d)) 8 false)

end Sys2Proof.Machine
end

