-- ==== Sys2Proof/Machine/Boot.lean ====
section
/-! DEFINITION. The boot image (R529 to R536): header check, sections, the alternate image and Fail. -/

namespace Sys2Proof.Machine

/-! ### The image (R529, R530) -/

/-- Where the image in use starts. -/
def State.imgBase (s : State) : Nat := if s.pmu.alt then 0x800000 else 0

/-- Bytes of the image. -/
def State.img (s : State) (o n : Nat) : List Byte := readBytes s.flash (s.imgBase + o) n

/-- Little-endian field of the header. -/
def State.hdr (s : State) (o n : Nat) : Nat := leVal (s.img o n)

def State.imgCount (s : State) : Nat := s.hdr 6 2
def State.imgAlg (s : State) : Nat := s.hdr 21 1 % 4
def State.imgKey (s : State) : List Byte := s.img (s.hdr 28 4) (keyBytes s.imgAlg)
def State.imgSig (s : State) : List Byte := s.img (s.hdr 32 4) (sigBytes s.imgAlg)

/-- Entry `n` of the section table, and its fields. -/
def State.sect (s : State) (n : Nat) : List Byte := s.img (128 + 64 * n) 64
def sectType (e : List Byte) : Nat := leAt e 0 1
def sectDom (e : List Byte) : Nat := leAt e 1 1 % 16
def sectOff (e : List Byte) : Nat := leAt e 4 4
def sectLen (e : List Byte) : Nat := leAt e 8 4
def State.sectBody (s : State) (e : List Byte) : List Byte := s.img (sectOff e) (sectLen e)

/-- Order 1 of R532, and the types and domains that R530 and R531 reserve. -/
def State.imgForm (s : State) : Bool :=
  let len := s.hdr 8 4
  let within := fun (o n : Nat) => decide (o + n ≤ len)
  decide (s.hdr 0 4 = 0x5A4B494D ∧ s.hdr 4 1 = 1 ∧ s.hdr 16 4 = 0x5A4B6400 ∧ s.hdr 20 1 = 0xA1) &&
  decide (1024 ≤ len ∧ len ≤ 8388608 ∧ 1 ≤ s.imgCount ∧ s.imgCount ≤ 64) &&
  decide (1 ≤ s.imgAlg ∧ s.imgAlg ≤ 2 ∧ s.hdr 26 2 = keyBytes s.imgAlg) &&
  within 128 (64 * s.imgCount) && within (s.hdr 28 4) (keyBytes s.imgAlg) && within (s.hdr 32 4) (sigBytes s.imgAlg) &&
  (List.range s.imgCount).all (fun n =>
    let e := s.sect n
    decide (1 ≤ sectType e ∧ sectType e ≤ 7 ∧ sectOff e % 4 = 0) && within (sectOff e) (sectLen e) &&
      decide ((sectType e = 4) ↔ (1 ≤ sectDom e)))

/-- The kind of R532 that an image fails with; 0 when it is accepted. -/
def State.imgCheck (s : State) : Nat :=
  let o := s.otpNow
  let root := o.roots.at [] 0
  if s.imgForm = false then 1
  else if s.sealState = 2 ∧ root.isEmpty = true then 8
  else if root.isEmpty then 0
  else if Crypto.sha384 s.imgKey = root ∧ s.imgAlg = o.algs.at 0 0 ∧
      Crypto.sigVerify s.imgAlg s.imgKey (s.img 0 (128 + 64 * s.imgCount)) s.imgSig = true then 0
  else 2

/-! ### Failure (R535) -/

/-- TOP_BOOT_STATUS shows a failure. -/
def State.showFail (s : State) (n kind : Nat) : State :=
  (((s.setB (topA 0x04C) 2 true).setF (topA 0x04C) 11 8 kind).setF (topA 0x04C) 21 16 n).report 0 2 0x0003 n kind

/-- The image fails at section `n` (0 for its header): the alternate is loaded next, or after it the device enters Fail. -/
def State.imgFail (s : State) (n kind : Nat) : State :=
  if s.pmu.alt then ((s.warmReset.setTop 3).showFail n kind).onPmu (fun p => { p with alt := true })
  else
    let s := if s.pmu.acted then s.warmReset else s
    (s.showFail n kind).onPmu (fun p => { p with alt := true, loading := false, sect := 0, acted := false, part := 0 })

/-- The header and table are read and checked; the device enters Load. -/
def State.bootHeader (s : State) : State :=
  if s.alive = false ∨ 1 < s.topState ∨ s.pmu.loading = true ∨ ¬ (s.bootMode = 1 ∨ s.bootMode = 2) then s
  else
    let k := s.imgCheck
    if k ≠ 0 then s.imgFail 0 k
    else
      let ssvid := s.hdr 22 2
      let ssid := s.hdr 24 2
      let seq := s.hdr 12 4
      let s := ((s.setTop 1).wr (topA 0x054) (word seq)).setB (topA 0x04C) 3 ((s.otpNow.roots.at [] 0).isEmpty)
      { s with hif := { s.hif with fn := { s.hif.fn with ssvid, ssid } }, pmu := { s.pmu with loading := true, sect := 0, part := 0 } }

def execBootHeaderCheck (s : State) : Host.Outcome State Fault Refusal := answer s s.bootHeader

/-! ### Sections (R531, R533) -/

/-- A section has completed: the next one, or Run after the last (R536). -/
def State.sectNext (s : State) : State :=
  let n := s.pmu.sect + 1
  let s := s.onPmu (fun p => { p with sect := n, part := 0 })
  if n < s.imgCount then s
  else (s.enterRun.report 0 0 0x0001).onPmu (fun p => { p with loading := false })

/-- A section ends with a kind of failure, 0 for none; a section that reset the device ends there. -/
def State.sectEnd (s : State) (kind : Nat) : State :=
  if s.pmu.loading = false then s else if kind = 0 then s.sectNext else s.imgFail s.pmu.sect kind

/-- Go on with the section at hand when it has the row's type: its digest is checked before any entry acts. -/
def State.sectGo (s : State) (type : Nat) (run : List Byte → State → State) : State :=
  if s.alive = false ∨ s.topState ≠ 1 ∨ s.pmu.loading = false then s
  else
    let e := s.sect s.pmu.sect
    if sectType e ≠ type then s
    else
      let body := s.sectBody e
      if Crypto.sha384 body ≠ slice e 16 48 then s.imgFail s.pmu.sect 3
      else run body (s.onPmu (fun p => { p with acted := true }))

/-- Run the section at hand whole. -/
def State.sectRun (s : State) (type : Nat) (run : List Byte → State → Nat × State) : State :=
  s.sectGo type (fun b s => let r := run b s; r.2.sectEnd r.1)

/-- Entries of a section in order, up to the first that fails. -/
def sectFold {α : Type} (xs : List α) (s : State) (f : State → α → Nat × State) : Nat × State :=
  xs.foldl (fun (a : Nat × State) x => if a.1 ≠ 0 ∨ a.2.pmu.loading = false then a else f a.2 x) (0, s)

/-- Type 1: register writes of 8 bytes. -/
def State.sectRegs (s : State) (body : List Byte) (otpOk : Bool) : Nat × State :=
  if body.length % 8 ≠ 0 then (4, s)
  else sectFold (List.range (body.length / 8)) s (fun s n =>
    let r := s.tryWrite .boot otpOk true (leAt body (8 * n) 4) (word (leAt body (8 * n + 4) 4))
    (if r.1 = 0 then 0 else 4, r.2))

/-- The window writes of a type 2 body; none when they do not fill it. -/
def winWrites : Nat → List Byte → Option (List (Nat × List Byte))
  | 0, bs => if bs.isEmpty then some [] else none
  | n + 1, bs =>
    if bs.isEmpty then some []
    else
      let len := leAt bs 4 4
      if bs.length < 8 + len then none
      else (winWrites n (bs.drop (8 + len))).map (fun xs => (leAt bs 0 4, slice bs 8 len) :: xs)

def State.sectWins (s : State) (body : List Byte) : Nat × State :=
  match winWrites body.length body with
  | none => (4, s)
  | some xs => sectFold xs s (fun s x =>
      if s.winKind .boot true x.1 x.2 ≠ 0 then (4, s) else (0, s.winStore x.1 x.2))

/-- The commands of a type 3 body: from its start up to the first data that one of them names. -/
def tableCmds (body : List Byte) : List (List Byte) :=
  ((List.range (body.length / 32)).foldl (fun (a : Nat × List (List Byte)) n =>
    let c := slice body (32 * n) 32
    let op := leAt c 0 1 % 16
    if a.1 < 32 * (n + 1) then (0, a.2)
    else (if 1 ≤ op ∧ op ≤ 5 then min a.1 (leAt c 16 8) else a.1, a.2 ++ [c])) (body.length, [])).2

/-- One table command of a boot section, its data taken from the body. -/
def State.bootTable (s : State) (body c : List Byte) : Nat × State :=
  let op := leAt c 0 1 % 16
  let t := leAt c 1 1 % 16
  let index := leAt c 4 4 % 2 ^ 20
  let count := leAt c 8 2 % 2 ^ 13
  let src := leAt c 16 8
  let h := if cmdRsv c then 6 else s.cmdHead op t (leAt c 2 1 % 8) index count
  let (st, done, s) :=
    if h ≠ 0 then (h, 0, s)
    else if op = 6 then let r := s.takeLock t index count; (r.1, 0, r.2)
    else if op = 7 then let r := s.unlock t index count; (r.1, 0, r.2)
    else
      let r := s.runEntries op t index count 0 (leAt c 2 1 % 8) (fun _ n => slice body (src + n * entSize t) (entSize t))
      (r.1, r.2.1, r.2.2.2.2)
  (if st = 0 then 0 else 5, if st = 0 then s else s.dmaError st t done false 0)

/-- Type 4: a tenant section; its failure is reported and boot goes on (R534). -/
def State.sectTenant (s : State) (body : List Byte) : Nat × State :=
  let n := s.pmu.sect
  let d := sectDom (s.sect n)
  let r := s.tenantSection d body
  (0, if r.1 = 0 then r.2 else (r.2.setB (topA 0x050) d true).report 0 1 0x0002 n r.1)

/-- Type 5: an allocation. -/
def State.sectAlloc (s : State) (body : List Byte) (otpOk : Bool) : Nat × State :=
  let n := body.length / 16
  let (r, s) := if body.length % 16 ≠ 0 ∨ n = 0 ∨ 4096 < n then (2, s) else s.runAllocate body otpOk
  (if r = 1 then 0 else 7, (s.bellStart 1 0 r).bellDone)

/-- Type 6: polls. Entries that match are passed; one that does not match waits until its time has run out. -/
def State.sectPolls (s : State) (body : List Byte) : State :=
  let n := s.pmu.part / 2
  if body.length / 16 ≤ n then s.sectEnd 0
  else
    let e := slice body (16 * n) 16
    let r := s.tryRead (leAt e 0 4)
    let s := r.2.2
    if r.1 = 0 ∧ r.2.1 &&& word (leAt e 4 4) = word (leAt e 8 4) then
      if n + 1 = body.length / 16 then s.sectEnd 0 else s.onPmu (fun p => { p with part := 2 * (n + 1) })
    else if s.pmu.part % 2 = 0 then s.onPmu (fun p => { p with part := 2 * n + 1, pollAt := s.clk })
    else if s.pmu.pollAt + usec (leAt e 12 4) ≤ s.clk then s.sectEnd 6
    else s

/-- Type 7: an op of TOP_VER_COMMIT, then its commit point; while that waits for a front, the section waits. -/
def State.sectVer (s : State) (body : List Byte) : State :=
  let r := if s.pmu.part = 1 then (0, s) else s.tryWrite .boot true (decide (body.length = 4)) (topA 0x304) (word (leAt body 0 4))
  if r.1 ≠ 0 then r.2.sectEnd 9
  else
    let s := r.2.commitPoint
    if s.ver.pendingCommit.isSome then s.onPmu (fun p => { p with part := 1 })
    else s.sectEnd (if s.f (topA 0x300) 30 28 = 1 then 0 else 9)

def execSectionRegisterWrites (otpOk : Bool) (s : State) : Host.Outcome State Fault Refusal :=
  answer s (s.sectRun 1 (fun b s => s.sectRegs b otpOk))
def execSectionWindowWrites (s : State) : Host.Outcome State Fault Refusal :=
  answer s (s.sectRun 2 (fun b s => s.sectWins b))
def execSectionTableCommands (s : State) : Host.Outcome State Fault Refusal :=
  answer s (s.sectRun 3 (fun b s => sectFold (tableCmds b) s (fun s c => s.bootTable b c)))
def execSectionTenant (s : State) : Host.Outcome State Fault Refusal := answer s (s.sectRun 4 (fun b s => s.sectTenant b))
def execTenantSection (s : State) : Host.Outcome State Fault Refusal := answer s (s.sectRun 4 (fun b s => s.sectTenant b))
def execSectionAllocation (otpOk : Bool) (s : State) : Host.Outcome State Fault Refusal :=
  answer s (s.sectRun 5 (fun b s => s.sectAlloc b otpOk))

/-- The polls of a type 6 section, as far as they go now. -/
def execSectionPoll (s : State) : Host.Outcome State Fault Refusal := answer s (s.sectGo 6 (fun b s => s.sectPolls b))

def execSectionChangeSet (s : State) : Host.Outcome State Fault Refusal := answer s (s.sectGo 7 (fun b s => s.sectVer b))

end Sys2Proof.Machine
end

