-- ==== Sys2Proof/Machine/Dispatch.lean ====
section
/-! DEFINITION. The dispatch of a command to its meaning: one arm per constructor, each one direct call. -/

namespace Sys2Proof.Machine

def exec (i : Instr) (s : State) : Host.Outcome State Fault Refusal :=
  match i with
  | .registerWrite via otpOk => Sys2Proof.Machine.execRegisterWrite via otpOk s
  | .maskedAliasWrite page off high sel val => Sys2Proof.Machine.execMaskedAliasWrite page off high sel val s
  | .counterClearWrite page off mask => Sys2Proof.Machine.execCounterClearWrite page off mask s
  | .farWriteComplete page => Sys2Proof.Machine.execFarWriteComplete page s
  | .farWriteTimeout page => Sys2Proof.Machine.execFarWriteTimeout page s
  | .stallLimitReached reg write data => Sys2Proof.Machine.execStallLimitReached reg write data s
  | .apertureAccess off len write => Sys2Proof.Machine.execApertureAccess off len write s
  | .hifIrqEoi vector => Sys2Proof.Machine.execHifIrqEoi vector s
  | .msixVectorUnmask vector => Sys2Proof.Machine.execMsixVectorUnmask vector s
  | .functionLevelReset => Sys2Proof.Machine.execFunctionLevelReset s
  | .d3hotEntry => Sys2Proof.Machine.execD3hotEntry s
  | .pcieReset low => Sys2Proof.Machine.execPcieReset low s
  | .hifErrCapClear => Sys2Proof.Machine.execHifErrCapClear s
  | .ringTailWrite entry tail => Sys2Proof.Machine.execRingTailWrite entry tail s
  | .ringDisable entry => Sys2Proof.Machine.execRingDisable entry s
  | .ringIrqPendClear entry => Sys2Proof.Machine.execRingIrqPendClear entry s
  | .ringCoalesceTimeout entry => Sys2Proof.Machine.execRingCoalesceTimeout entry s
  | .hostDmaDisable => Sys2Proof.Machine.execHostDmaDisable s
  | .hostTxFetch ring => Sys2Proof.Machine.execHostTxFetch ring s
  | .hostRxDeliver ring upset => Sys2Proof.Machine.execHostRxDeliver ring upset s
  | .governorIntervalEnd load => Sys2Proof.Machine.execGovernorIntervalEnd load s
  | .monitorWindowEnd readings => Sys2Proof.Machine.execMonitorWindowEnd readings s
  | .avsTransactionComplete ok op => Sys2Proof.Machine.execAvsTransactionComplete ok op s
  | .avsReadbackTimeout => Sys2Proof.Machine.execAvsReadbackTimeout s
  | .avsFaultClear => Sys2Proof.Machine.execAvsFaultClear s
  | .clkMonClr => Sys2Proof.Machine.execClkMonClr s
  | .clockLoss domain => Sys2Proof.Machine.execClockLoss domain s
  | .quadModeChange quad mode => Sys2Proof.Machine.execQuadModeChange quad mode s
  | .laneEnableChange quad lane en => Sys2Proof.Machine.execLaneEnableChange quad lane en s
  | .autonegComplete quad lane speed half => Sys2Proof.Machine.execAutonegComplete quad lane speed half s
  | .trainingDone quad lane => Sys2Proof.Machine.execTrainingDone quad lane s
  | .trainingTimeout quad lane => Sys2Proof.Machine.execTrainingTimeout quad lane s
  | .trainingRestart quad lane => Sys2Proof.Machine.execTrainingRestart quad lane s
  | .linkUp port => Sys2Proof.Machine.execLinkUp port s
  | .linkDown port lost => Sys2Proof.Machine.execLinkDown port lost s
  | .serdesPllLockLost quad => Sys2Proof.Machine.execSerdesPllLockLost quad s
  | .rxFrameStart port bytes => Sys2Proof.Machine.execRxFrameStart port bytes s
  | .rxOversize port codeErr => Sys2Proof.Machine.execRxOversize port codeErr s
  | .rxFrameEnd port rest codes full reasm => Sys2Proof.Machine.execRxFrameEnd port rest codes full reasm s
  | .pauseFrameReceived port own quanta => Sys2Proof.Machine.execPauseFrameReceived port own quanta s
  | .pfcFrameReceived port enable timers => Sys2Proof.Machine.execPfcFrameReceived port enable timers s
  | .pauseTimerExpire port => Sys2Proof.Machine.execPauseTimerExpire port s
  | .pfcTimerExpire port prio => Sys2Proof.Machine.execPfcTimerExpire port prio s
  | .pauseFrameSend port => Sys2Proof.Machine.execPauseFrameSend port s
  | .macRxEnableChange port en => Sys2Proof.Machine.execMacRxEnableChange port en s
  | .macTxDisable port => Sys2Proof.Machine.execMacTxDisable port s
  | .preemptVerifySend port => Sys2Proof.Machine.execPreemptVerifySend port s
  | .preemptVerifyResponse port => Sys2Proof.Machine.execPreemptVerifyResponse port s
  | .preemptVerifyTimeout port => Sys2Proof.Machine.execPreemptVerifyTimeout port s
  | .wakeEnergyDetect port lane => Sys2Proof.Machine.execWakeEnergyDetect port lane s
  | .wakePatternMatch port bytes => Sys2Proof.Machine.execWakePatternMatch port bytes s
  | .parseAdmit pipe port => Sys2Proof.Machine.execParseAdmit pipe port s
  | .lateClaimCheck pipe => Sys2Proof.Machine.execLateClaimCheck pipe s
  | .pipelineStage pipe stage => Sys2Proof.Machine.execPipelineStage pipe stage s
  | .puntMeterRefill => Sys2Proof.Machine.execPuntMeterRefill s
  | .egressEdit group read => Sys2Proof.Machine.execEgressEdit group read s
  | .takeoverForce group => Sys2Proof.Machine.execTakeoverForce group s
  | .takeoverPortSwitch port => Sys2Proof.Machine.execTakeoverPortSwitch port s
  | .takeoverRelease => Sys2Proof.Machine.execTakeoverRelease s
  | .learnProcess => Sys2Proof.Machine.execLearnProcess s
  | .agingScan => Sys2Proof.Machine.execAgingScan s
  | .pendingSweep => Sys2Proof.Machine.execPendingSweep s
  | .tblDmaDisable => Sys2Proof.Machine.execTblDmaDisable s
  | .tblCmdWrite => Sys2Proof.Machine.execTblCmdWrite s
  | .tblCmdRead => Sys2Proof.Machine.execTblCmdRead s
  | .tblCmdInsert => Sys2Proof.Machine.execTblCmdInsert s
  | .tblCmdDelete => Sys2Proof.Machine.execTblCmdDelete s
  | .tblCmdSearch => Sys2Proof.Machine.execTblCmdSearch s
  | .tblCmdLock => Sys2Proof.Machine.execTblCmdLock s
  | .tblCmdUnlock => Sys2Proof.Machine.execTblCmdUnlock s
  | .lockAutoRelease lock => Sys2Proof.Machine.execLockAutoRelease lock s
  | .scrubWord bad shadowBad => Sys2Proof.Machine.execScrubWord bad shadowBad s
  | .verSetOpen => Sys2Proof.Machine.execVerSetOpen s
  | .verSetCommit => Sys2Proof.Machine.execVerSetCommit s
  | .verSetClose => Sys2Proof.Machine.execVerSetClose s
  | .commitPoint => Sys2Proof.Machine.execCommitPoint s
  | .openSetLimit => Sys2Proof.Machine.execOpenSetLimit s
  | .policeFrame pol => Sys2Proof.Machine.execPoliceFrame pol s
  | .meterRefill pol meter => Sys2Proof.Machine.execMeterRefill pol meter s
  | .streamGateEntry pol sched => Sys2Proof.Machine.execStreamGateEntry pol sched s
  | .scheduleCycleStart pol sched => Sys2Proof.Machine.execScheduleCycleStart pol sched s
  | .cellSend staging => Sys2Proof.Machine.execCellSend staging s
  | .cellAck staging => Sys2Proof.Machine.execCellAck staging s
  | .ackTimeoutResend staging group seq => Sys2Proof.Machine.execAckTimeoutResend staging group seq s
  | .planeStallDetect plane staging group => Sys2Proof.Machine.execPlaneStallDetect plane staging group s
  | .planeSelfTestDone plane pass => Sys2Proof.Machine.execPlaneSelfTestDone plane pass s
  | .cmdPlaneIsolate plane => Sys2Proof.Machine.execCmdPlaneIsolate plane s
  | .cmdPlaneTest plane => Sys2Proof.Machine.execCmdPlaneTest plane s
  | .cmdPlaneSwap plane => Sys2Proof.Machine.execCmdPlaneSwap plane s
  | .fabricEnableChange en => Sys2Proof.Machine.execFabricEnableChange en s
  | .rsqCellArrive group staging plane bad => Sys2Proof.Machine.execRsqCellArrive group staging plane bad s
  | .rsqCellPassOut group => Sys2Proof.Machine.execRsqCellPassOut group s
  | .gapTimeout group staging => Sys2Proof.Machine.execGapTimeout group staging s
  | .recoveryResetTimeout group inst => Sys2Proof.Machine.execRecoveryResetTimeout group inst s
  | .rsqIndRead group target index => Sys2Proof.Machine.execRsqIndRead group target index s
  | .rsqIndWrite group target index => Sys2Proof.Machine.execRsqIndWrite group target index s
  | .rsqIndDone group => Sys2Proof.Machine.execRsqIndDone group s
  | .bpmAdmit group => Sys2Proof.Machine.execBpmAdmit group s
  | .bpmCellAlloc group => Sys2Proof.Machine.execBpmCellAlloc group s
  | .copyRelease head gen tail => Sys2Proof.Machine.execCopyRelease head gen tail s
  | .freeStoreMove pool => Sys2Proof.Machine.execFreeStoreMove pool s
  | .bpmEnable => Sys2Proof.Machine.execBpmEnable s
  | .bpmInitDone => Sys2Proof.Machine.execBpmInitDone s
  | .sweepRequest => Sys2Proof.Machine.execSweepRequest s
  | .sweepComplete => Sys2Proof.Machine.execSweepComplete s
  | .hbmRequestServe slot bad synd => Sys2Proof.Machine.execHbmRequestServe slot bad synd s
  | .hbmRefresh slot bank => Sys2Proof.Machine.execHbmRefresh slot bank s
  | .pcFreeze slot kind addr synd => Sys2Proof.Machine.execPcFreeze slot kind addr synd s
  | .slotResume slot => Sys2Proof.Machine.execSlotResume slot s
  | .sparePcTestDone slot pass => Sys2Proof.Machine.execSparePcTestDone slot pass s
  | .hbcPprCmd stack pc bank row => Sys2Proof.Machine.execHbcPprCmd stack pc bank row s
  | .pprComplete stack result => Sys2Proof.Machine.execPprComplete stack result s
  | .hbmStackEnable stack => Sys2Proof.Machine.execHbmStackEnable stack s
  | .hbmInitDone stack => Sys2Proof.Machine.execHbmInitDone stack s
  | .tmgSelect port express => Sys2Proof.Machine.execTmgSelect port express s
  | .txCopyStart port express upset => Sys2Proof.Machine.execTxCopyStart port express upset s
  | .txCopyEnd port upset underrun => Sys2Proof.Machine.execTxCopyEnd port upset underrun s
  | .shaperRefill group => Sys2Proof.Machine.execShaperRefill group s
  | .residencyVisit queue => Sys2Proof.Machine.execResidencyVisit queue s
  | .fcRepeatTimer port => Sys2Proof.Machine.execFcRepeatTimer port s
  | .sampleRoundStart group late => Sys2Proof.Machine.execSampleRoundStart group late s
  | .tbSet base => Sys2Proof.Machine.execTbSet base s
  | .tbStep base => Sys2Proof.Machine.execTbStep base s
  | .tbSnapshot bases => Sys2Proof.Machine.execTbSnapshot bases s
  | .txtsPop port => Sys2Proof.Machine.execTxtsPop port s
  | .pinEventPop pin => Sys2Proof.Machine.execPinEventPop pin s
  | .pinPulseRise pin => Sys2Proof.Machine.execPinPulseRise pin s
  | .pinPulseFall pin => Sys2Proof.Machine.execPinPulseFall pin s
  | .pinInputEdge pin falling width => Sys2Proof.Machine.execPinInputEdge pin falling width s
  | .tsPllLockLost => Sys2Proof.Machine.execTsPllLockLost s
  | .gclCommit port => Sys2Proof.Machine.execGclCommit port s
  | .gclCancel port => Sys2Proof.Machine.execGclCancel port s
  | .gclTakeover port => Sys2Proof.Machine.execGclTakeover port s
  | .gateEntryBoundary port => Sys2Proof.Machine.execGateEntryBoundary port s
  | .gateEngineDisable port => Sys2Proof.Machine.execGateEngineDisable port s
  | .captureRecordWrite => Sys2Proof.Machine.execCaptureRecordWrite s
  | .captureUnfreeze => Sys2Proof.Machine.execCaptureUnfreeze s
  | .frontTimedInject => Sys2Proof.Machine.execFrontTimedInject s
  | .frontSoftwareInject => Sys2Proof.Machine.execFrontSoftwareInject s
  | .frontPassBlock page => Sys2Proof.Machine.execFrontPassBlock page s
  | .frontComplete => Sys2Proof.Machine.execFrontComplete s
  | .frontLate => Sys2Proof.Machine.execFrontLate s
  | .ledgerAudit => Sys2Proof.Machine.execLedgerAudit s
  | .ledgerUnfreeze => Sys2Proof.Machine.execLedgerUnfreeze s
  | .staEnableChange en mode src period => Sys2Proof.Machine.execStaEnableChange en mode src period s
  | .bwWindowEnd port tx => Sys2Proof.Machine.execBwWindowEnd port tx s
  | .pmcStopRequest => Sys2Proof.Machine.execPmcStopRequest s
  | .pmcResume => Sys2Proof.Machine.execPmcResume s
  | .secAllocate otpOk => Sys2Proof.Machine.execSecAllocate otpOk s
  | .secProgramRootHash slot alg otpOk => Sys2Proof.Machine.execSecProgramRootHash slot alg otpOk s
  | .doorbellComplete => Sys2Proof.Machine.execDoorbellComplete s
  | .seal => Sys2Proof.Machine.execSeal s
  | .sealComplete otpOk => Sys2Proof.Machine.execSealComplete otpOk s
  | .getNonce => Sys2Proof.Machine.execGetNonce s
  | .enroll => Sys2Proof.Machine.execEnroll s
  | .wardenWrite => Sys2Proof.Machine.execWardenWrite s
  | .wardenRead => Sys2Proof.Machine.execWardenRead s
  | .verOpen => Sys2Proof.Machine.execVerOpen s
  | .verCommit => Sys2Proof.Machine.execVerCommit s
  | .verClose => Sys2Proof.Machine.execVerClose s
  | .kekInit => Sys2Proof.Machine.execKekInit s
  | .keyLoad => Sys2Proof.Machine.execKeyLoad s
  | .keyErase => Sys2Proof.Machine.execKeyErase s
  | .setView => Sys2Proof.Machine.execSetView s
  | .setMirror => Sys2Proof.Machine.execSetMirror s
  | .setMacsecReq => Sys2Proof.Machine.execSetMacsecReq s
  | .attest => Sys2Proof.Machine.execAttest s
  | .reseal => Sys2Proof.Machine.execReseal s
  | .signatureLockoutEnd dom => Sys2Proof.Machine.execSignatureLockoutEnd dom s
  | .tenantSection => Sys2Proof.Machine.execTenantSection s
  | .mscIndRead quad target index => Sys2Proof.Machine.execMscIndRead quad target index s
  | .mscIndWrite quad target index => Sys2Proof.Machine.execMscIndWrite quad target index s
  | .mscIndDone quad => Sys2Proof.Machine.execMscIndDone quad s
  | .islWindowClose circuit bits => Sys2Proof.Machine.execIslWindowClose circuit bits s
  | .islInputFault input bad => Sys2Proof.Machine.execIslInputFault input bad s
  | .islSecondClassify bits => Sys2Proof.Machine.execIslSecondClassify bits s
  | .islPeriodBoundary storeOk => Sys2Proof.Machine.execIslPeriodBoundary storeOk s
  | .islCheckpoint => Sys2Proof.Machine.execIslCheckpoint s
  | .islRecordSend => Sys2Proof.Machine.execIslRecordSend s
  | .islMailboxTime calLow storeOk => Sys2Proof.Machine.execIslMailboxTime calLow storeOk s
  | .islMailboxCalibration calLow storeOk => Sys2Proof.Machine.execIslMailboxCalibration calLow storeOk s
  | .islMailboxSealArm calLow => Sys2Proof.Machine.execIslMailboxSealArm calLow s
  | .islSealFuse storeOk => Sys2Proof.Machine.execIslSealFuse storeOk s
  | .islSealArmLapse => Sys2Proof.Machine.execIslSealArmLapse s
  | .islSealBreak storeOk => Sys2Proof.Machine.execIslSealBreak storeOk s
  | .islHoldEnter => Sys2Proof.Machine.execIslHoldEnter s
  | .islHoldExit storeOk => Sys2Proof.Machine.execIslHoldExit storeOk s
  | .islColdStart storeOk => Sys2Proof.Machine.execIslColdStart storeOk s
  | .islWatchdogReset storeOk => Sys2Proof.Machine.execIslWatchdogReset storeOk s
  | .islStatusUpdate calLow vbat up => Sys2Proof.Machine.execIslStatusUpdate calLow vbat up s
  | .islLinkTimeout => Sys2Proof.Machine.execIslLinkTimeout s
  | .regionStallTimeout region place => Sys2Proof.Machine.execRegionStallTimeout region place s
  | .sprCmdDeclare region => Sys2Proof.Machine.execSprCmdDeclare region s
  | .sprCmdTest region => Sys2Proof.Machine.execSprCmdTest region s
  | .sprCmdApprove => Sys2Proof.Machine.execSprCmdApprove s
  | .sprCmdDeny => Sys2Proof.Machine.execSprCmdDeny s
  | .sprCmdRetire slot => Sys2Proof.Machine.execSprCmdRetire slot s
  | .approvalTimeout => Sys2Proof.Machine.execApprovalTimeout s
  | .repairStart => Sys2Proof.Machine.execRepairStart s
  | .repairComplete pass => Sys2Proof.Machine.execRepairComplete pass s
  | .eventAccept => Sys2Proof.Machine.execEventAccept s
  | .squallAccept => Sys2Proof.Machine.execSquallAccept s
  | .evrRecordStore first second => Sys2Proof.Machine.execEvrRecordStore first second s
  | .evrHeaderWrite => Sys2Proof.Machine.execEvrHeaderWrite s
  | .evrStartScan => Sys2Proof.Machine.execEvrStartScan s
  | .evrMirrorSelect seq => Sys2Proof.Machine.execEvrMirrorSelect seq s
  | .evrSwEvent value => Sys2Proof.Machine.execEvrSwEvent value s
  | .porRelease mode => Sys2Proof.Machine.execPorRelease mode s
  | .porAssert => Sys2Proof.Machine.execPorAssert s
  | .pwrEnSdsTimer => Sys2Proof.Machine.execPwrEnSdsTimer s
  | .pwrEnHbmTimer => Sys2Proof.Machine.execPwrEnHbmTimer s
  | .railCheck rail inRange => Sys2Proof.Machine.execRailCheck rail inRange s
  | .warmReset => Sys2Proof.Machine.execWarmReset s
  | .bootHeaderCheck => Sys2Proof.Machine.execBootHeaderCheck s
  | .sectionRegisterWrites otpOk => Sys2Proof.Machine.execSectionRegisterWrites otpOk s
  | .sectionWindowWrites => Sys2Proof.Machine.execSectionWindowWrites s
  | .sectionTableCommands => Sys2Proof.Machine.execSectionTableCommands s
  | .sectionTenant => Sys2Proof.Machine.execSectionTenant s
  | .sectionAllocation otpOk => Sys2Proof.Machine.execSectionAllocation otpOk s
  | .sectionPoll => Sys2Proof.Machine.execSectionPoll s
  | .sectionChangeSet => Sys2Proof.Machine.execSectionChangeSet s
  | .lullEnterCmd => Sys2Proof.Machine.execLullEnterCmd s
  | .lullReqPin high => Sys2Proof.Machine.execLullReqPin high s
  | .lullDrainExpire => Sys2Proof.Machine.execLullDrainExpire s
  | .lullGo => Sys2Proof.Machine.execLullGo s
  | .lullHoldExpire => Sys2Proof.Machine.execLullHoldExpire s
  | .lullPowerDownDone => Sys2Proof.Machine.execLullPowerDownDone s
  | .lullAbort pin => Sys2Proof.Machine.execLullAbort pin s
  | .wakePin low => Sys2Proof.Machine.execWakePin low s
  | .wakeTimer => Sys2Proof.Machine.execWakeTimer s
  | .lullExit => Sys2Proof.Machine.execLullExit s
  | .dbgReceiverReset => Sys2Proof.Machine.execDbgReceiverReset s
  | .dbgSessionOpen => Sys2Proof.Machine.execDbgSessionOpen s
  | .dbgSessionClose => Sys2Proof.Machine.execDbgSessionClose s
  | .dbgRespPush value => Sys2Proof.Machine.execDbgRespPush value s
  | .dbgUnlock => Sys2Proof.Machine.execDbgUnlock s
  | .dbgIdleTimeout => Sys2Proof.Machine.execDbgIdleTimeout s
  | .dbgHaltWrite halt => Sys2Proof.Machine.execDbgHaltWrite halt s
  | .dbgStep pipe stage => Sys2Proof.Machine.execDbgStep pipe stage s
  | .dbgTokenSelect pipe stage => Sys2Proof.Machine.execDbgTokenSelect pipe stage s
  | .dbgMemAccess space inc write => Sys2Proof.Machine.execDbgMemAccess space inc write s
  | .dbgMemAccessDone => Sys2Proof.Machine.execDbgMemAccessDone s
  | .jtagInstruction opcode => Sys2Proof.Machine.execJtagInstruction opcode s
  | .jtagReset => Sys2Proof.Machine.execJtagReset s
  | .initEnd => Sys2Proof.Machine.execInitEnd s
  | .pcieLinkUp speed width => Sys2Proof.Machine.execPcieLinkUp speed width s
  | .laneLockAcquired quad lane what => Sys2Proof.Machine.execLaneLockAcquired quad lane what s
  | .remoteFaultReceived port fault => Sys2Proof.Machine.execRemoteFaultReceived port fault s
  | .clockLossHeld domain => Sys2Proof.Machine.execClockLossHeld domain s
  | .lockOverlapWaitEnd => Sys2Proof.Machine.execLockOverlapWaitEnd s
  | .stackHotChange stack temp => Sys2Proof.Machine.execStackHotChange stack temp s

end Sys2Proof.Machine
end

