-- ==== Sys2Proof/Safety.lean ====
section
/-! DEFINITION. The terms that statements about the block use: a host write that no check refuses, what two states have in
common, the invariants of the whole block. -/

namespace Sys2Proof.Machine

/-- The requests of the host reach the device (R52, R524, R526) and every check of R62 passes for a write of a word at a BAR0
address. -/
abbrev State.accepts (s : State) (addr : Nat) (data : Word) : Prop :=
  s.hostOpen = true ∧ s.regCheck .host true (resolve addr data) = 0

/-- Registers that a watchpoint hit may change beside what a write itself does (R557, R558). -/
def watchRegs : List Nat := [dbgA 0x008, dbgA 0x058, dbgA 0x060, dbgA 0x064]

/-- Registers that a performance counter which passes half range may change (R405, R417). -/
def countRegs : List Nat := [staA 0x008, staA 0x060]

/-- Every register word is as it was but those listed, and those that any command may change through a watchpoint or a
performance counter. -/
def RegsBut (xs : List Nat) (s t : State) : Prop :=
  ∀ a, a ∉ xs → a ∉ watchRegs → a ∉ countRegs → t.rd a = s.rd a

/-- Every register word outside a set of pages is as it was, but for those that any command may change (as in RegsBut). -/
def RegsOut (pages : List Nat) (s t : State) : Prop :=
  ∀ a, a / 0x1000 ∉ pages → a ∉ watchRegs → a ∉ countRegs → t.rd a = s.rd a

/-- Every byte of the on-chip cell store reads as it did but the `n` bytes from `a`. -/
def SramBut (a n : Nat) (s t : State) : Prop := ∀ x, (x < a ∨ a + n ≤ x) → t.sram.at 0 x = s.sram.at 0 x

/-- Every register word is as it was. -/
def RegsKept (s t : State) : Prop := ∀ a, t.rd a = s.rd a

/-- Every byte of host memory, HBM, the cell store, the recorder's memory and the boot image reads as it did. -/
def MemKept (s t : State) : Prop :=
  ∀ a, t.host.at 0 a = s.host.at 0 a ∧ t.hbmRd a 1 = s.hbmRd a 1 ∧ t.sram.at 0 a = s.sram.at 0 a ∧
    t.spi.at 0 a = s.spi.at 0 a ∧ t.flash.at 0 a = s.flash.at 0 a

/-- Every byte of the BAR2 windows reads as it did but the `n` bytes from `a`. -/
def WinBut (a n : Nat) (s t : State) : Prop := ∀ x, (x < a ∨ a + n ≤ x) → t.win.at 0 x = s.win.at 0 x

/-- Every byte of the BAR2 windows reads as it did. -/
def WinKept (s t : State) : Prop := ∀ x, t.win.at 0 x = s.win.at 0 x

/-- Every byte of host memory reads as it did but the `n` bytes from `a`. -/
def HostBut (a n : Nat) (s t : State) : Prop := ∀ x, (x < a ∨ a + n ≤ x) → t.host.at 0 x = s.host.at 0 x

/-- Every byte of HBM reads as it did but the `n` bytes from `a`. -/
def HbmBut (a n : Nat) (s t : State) : Prop := ∀ x, (x < a ∨ a + n ≤ x) → t.hbmRd x 1 = s.hbmRd x 1

/-- R291: HBM reads a fresh descriptor in every place of one in a spill region, and every other byte as it did. -/
def FreshDescs (base z : Nat) (s t : State) : Prop :=
  ∀ a, t.hbmRd a 1 = match descByte base z a with
    | some i => [freshDesc.getD i 0]
    | none => s.hbmRd a 1

/-- The frames inside the device, their copies and the fabric stand as they did. -/
def FlowKept (s t : State) : Prop :=
  t.frames = s.frames ∧ t.copies = s.copies ∧ t.eframes = s.eframes ∧ t.glf = s.glf ∧ t.rsq = s.rsq

/-- R70: the levels that the device remembers of its MSI-X vectors are the OR of the sources assigned to each. -/
abbrev State.Settled (s : State) : Prop := s.hif.levels = s.levels

/-- A byte memory in its canonical form: addresses strictly rising, no entry equal to what an unlisted address reads as. -/
abbrev Memory.wf (m : SMap Byte) : Prop := SMap.WF (fun _ => 0) m

/-- Every byte memory of the block is in its canonical form. -/
def State.MemWF (s : State) : Prop :=
  Memory.wf s.win ∧ Memory.wf s.host ∧ Memory.wf s.hbm ∧ Memory.wf s.sram ∧
    Memory.wf s.spi ∧ Memory.wf s.flash

/-- An event of a page with a code waits for the recorder (R508). -/
abbrev State.raised (s : State) (page code : Nat) : Prop := ∃ e ∈ s.evr.waiting, e.page = page ∧ e.code = code

/-- A well-formed command of an operation stands at the head of the warden's queue, from a domain that is not locked out,
and the warden runs with room for its answer (R432 to R435). -/
abbrev State.commands (s : State) (cmd : WCmd) (rest : List WCmd) (op : Nat) : Prop :=
  s.alive = true ∧ s.regionDown 59 = false ∧ s.sec.inbox = cmd :: rest ∧ s.sec.locked.contains cmd.dom = false ∧
    cmd.dom < 16 ∧ cmd.input.formOk = true ∧ cmd.input.op = op ∧ s.stageHeld 4 = 0

/-- A command passes orders 3 to 7 of R434: its key and signature (or the key's hash), its nonce, its seq, its operation. -/
abbrev State.authentic (s : State) (c : WIn) : Prop :=
  s.authCheck c = 0 ∧ s.sec.nonces.at [] c.dom = c.nonce ∧ s.sec.seqs.at 0 c.dom ≤ c.seq ∧ s.opAllowed c = true

/-- The bytes of the response from `off` of its header on (R435). -/
def respAt (t : State) (id : Nat) (cmd : WCmd) (off n : Nat) : List Byte :=
  slice (t.frame id).bytes (cmdStart cmd.bytes + off) n

/-- The head of the warden's queue is taken and answered with a status: a response frame of its domain enters staging from
port 67, and copies, memories and the registers outside SEC, the fabric's staging levels and some pages stand. -/
abbrev Answered (pages : List Nat) (s t : State) (cmd : WCmd) (rest : List WCmd) (st : Nat) : Prop :=
  t.sec.inbox = rest ∧ (t.frame s.nextId).src = 67 ∧ (t.frame s.nextId).domain = cmd.dom ∧
    (t.frame s.nextId).place = .staged ∧ beVal (respAt t s.nextId cmd 2 2) = cmd.input.op + 0x8000 ∧
    beVal (respAt t s.nextId cmd 28 2) = st ∧ t.copies = s.copies ∧ t.eframes = s.eframes ∧
    RegsOut (0x0B :: 0x0F :: pages) s t ∧ MemKept s t

/-- Registers, frames, windows and memories stand: what a command of the island leaves of the switch. -/
abbrev SwitchKept (s t : State) : Prop := RegsBut [] s t ∧ FlowKept s t ∧ WinKept s t ∧ MemKept s t

/-- `k` bytes at offset `off` of the record of a seq: in its slot when its store went well, else kept beside it (R470, R472). -/
def recAt (t : State) (ok : Bool) (n off k : Nat) : Nat :=
  beAt (if ok then readBytes t.isl.mram (n % 16384 * 128) 128 else t.isl.unstored.at [] n) off k

/-- The island makes one event record with a code under its next seq; a store that fails shows (R470, R472, R478). -/
abbrev EventStored (s t : State) (ok : Bool) (code : Nat) : Prop :=
  t.isl.made = s.isl.made + 1 ∧ recAt t ok s.isl.made 0 1 = 0x4E ∧ recAt t ok s.isl.made 1 1 = 0x40 ∧
    recAt t ok s.isl.made 4 4 = s.isl.made % 2 ^ 32 ∧ recAt t ok s.isl.made 12 2 = code ∧ (ok = false → t.isl.storeBad = true)

/-- The device is awake and no check refuses a debug probe's write of a word to the DBG page (R550). -/
abbrev State.wireAccepts (s : State) (off : Nat) (v : Word) : Prop :=
  s.alive = true ∧ s.regCheck .wire true ⟨6, off, maskOf 31 0, v⟩ = 0

/-- An image is being loaded, the section at hand has a type and a body whose digest its entry holds, and another section
follows it (R530 to R533). -/
abbrev State.loads (s : State) (type : Nat) (body : List Byte) : Prop :=
  s.alive = true ∧ s.topState = 1 ∧ s.pmu.loading = true ∧ sectType (s.sect s.pmu.sect) = type ∧
    body = s.sectBody (s.sect s.pmu.sect) ∧ Crypto.sha384 body = slice (s.sect s.pmu.sect) 16 48 ∧
    s.pmu.sect + 1 < s.imgCount

/-- The section at hand has completed and the next is at hand; the image and every memory stand, and no frame moved. -/
abbrev SectionDone (s t : State) : Prop :=
  t.pmu.sect = s.pmu.sect + 1 ∧ t.pmu.loading = true ∧ t.topState = 1 ∧ FlowKept s t ∧ MemKept s t

end Sys2Proof.Machine
end

