-- ==== Sys2Proof/Certificates/Slice0/Obligations.lean ====
section
/-! DEFINITION. What is to be proved of the block: its commands' effects and their completion, its invariants. -/

open Sys2Proof
open Sys2Proof.Machine

/-- For every command c, queue rest cs and state s: when s's queue is c followed by cs, step s is exec of c on s with the queue cs. That commands wait in a queue is the model's form (log entry 1). Rests on 03_host_and_registers.md (R55); 00_scope.md. -/
def Obligations.StepRunsTheFrontCommand : Prop :=
  ∀ (c : Instr) (cs : List Instr) (s : State), s.pending = c :: cs → step s = exec c { s with pending := cs }

/-- On an empty queue a step always answers a next state: the clock is one cycle on, and registers, windows, memories, frames and the queue stand; while the core is powered and the TSU is good, each of the four time bases takes one cycle with its own adj. That idling is a cycle is the model's choice (log entry 2). Rests on 14_time_sync.md (R332, R333). -/
def Obligations.IdleTimePasses : Prop :=
  (∀ (s : State), s.pending = [] →
        ∃ t, step s = .next t ∧ t.clk = s.clk + 1 ∧ t.pending = [] ∧ RegsKept s t ∧ FlowKept s t ∧ WinKept s t ∧ MemKept s t) ∧
    (∀ (s : State) (b : Fin 4), s.pending = [] → s.alive = true → s.regionDown 61 = false →
        ∃ t, step s = .next t ∧ t.tb b.val = (s.tb b.val).cycle (s.tbAdj b.val))

/-- For every command and state, exec answers a next state, never a fault and never a refusal; the waiting commands are those that waited before; and the levels remembered of the MSI-X vectors are the OR of the sources assigned to each, so that a level that rose has sent its message. Rests on 03_host_and_registers.md (R55, R61, R70). -/
def Obligations.EveryCommandAnswers : Prop :=
  ∀ (c : Instr) (s : State), ∃ t, exec c s = .next t ∧ t.pending = s.pending ∧ t.Settled

/-- For every state s whose remembered vector levels are the OR of the routed page summaries and ring interrupts assigned to each vector, whatever waits in its queue, and every state t that step answers from s, the remembered levels of t are that OR in t. So no change of a cause, an enable, a route or a ring interrupt by any command, and no passing of time, leaves a level stale. Rests on 03_host_and_registers.md (R69, R70, R77). -/
def Obligations.LevelsStaySettled : Prop :=
  ∀ (s t : State), s.Settled → step s = .next t → t.Settled

/-- State.reset has no command waiting, no frame and no copy, POR_N low and its core unpowered; its memories are in canonical form and its vector levels are up to date; TOP_ID and TOP_STEP hold 0x5A4B6400 and 0xA1; every page's PAGE_IRQ_RAW and PAGE_IRQ_EN hold 0. Rests on 23_power_and_startup.md (R521, R524); 03_host_and_registers.md (R58, R70); 01_architecture.md (R1). -/
def Obligations.ResetIsEmptyAndSettled : Prop :=
  State.reset.pending = [] ∧ State.reset.frames = [] ∧ State.reset.copies = [] ∧ State.reset.pmu.por = false ∧
    State.reset.pmu.enCore = false ∧ State.reset.MemWF ∧ State.reset.Settled ∧ State.reset.rd (topA 0x040) = 0x5A4B6400 ∧
    State.reset.rd (topA 0x044) = 0xA1 ∧
    (∀ page : Fin 176, State.reset.rd (page.val * 0x1000 + 8) = 0 ∧ State.reset.rd (page.val * 0x1000 + 0xC) = 0)

/-- For every state and every n below 64, bit n of TOP_IRQ_PEND reads 1 exactly when some page in the set that R69 gives n has a nonzero PAGE_IRQ_PEND: the page n for 0 to 15, the SDS, MAC and MSC pages of quad q for 16 + q, the PRS, PIP and POL pages of k for 32 + k, the RSQ, TMG and TGS pages of e for 37 + e, MIR for 42, the HBC pages for 43 and 44, none for 45 to 63. For every page index below 176, the bit of HIF_IRQ_SRC for it reads 1 exactly when its PAGE_IRQ_PEND is nonzero. Rests on R69. -/
def Obligations.InterruptSummaryFollowsPages : Prop :=
  (∀ (s : State) (n : Nat), n < 64 →
        ((s.readReg .top 0 (0x060 + 4 * (n / 32))).getLsbD (n % 32) = true ↔ ∃ page, s.pagePend page ≠ 0 ∧
          ((n < 16 ∧ page = n) ∨
           (16 ≤ n ∧ n < 32 ∧ (page = n ∨ page = 0x90 + n ∨ (0x20 + 4 * (n - 16) ≤ page ∧ page < 0x24 + 4 * (n - 16)))) ∨
           (32 ≤ n ∧ n < 37 ∧ (page = 0x40 + n ∨ page = 0x48 + n ∨ page = 0x50 + n)) ∨
           (37 ≤ n ∧ n < 42 ∧ (page = 0x53 + n ∨ page = 0x5B + n ∨ page = 0x63 + n)) ∨
           (n = 42 ∧ page = 0x90) ∨ (43 ≤ n ∧ n < 45 ∧ page = 0x6D + n)))) ∧
      (∀ (s : State) (page : Nat), page < 176 →
        ((s.readReg .hif 0 (0x060 + 4 * (page / 32))).getLsbD (page % 32) = true ↔ s.pagePend page ≠ 0))

/-- For every event code, the severity (0 info, 1 warning, 2 error, 3 fatal) is fatal for 0x2007, error for the fourteen codes that R507 lists as errors, info for the fourteen it lists as info, and warning for every other. Rests on R507. -/
def Obligations.EventSeveritiesAreFixed : Prop :=
  ∀ code : Nat,
      evSeverity code =
        if code = 0x2007 then 3
        else if code = 0x0801 ∨ code = 0x0803 ∨ code = 0x2001 ∨ code = 0x2006 ∨ code = 0x2410 ∨ code = 0x2C02 ∨ code = 0x2C04 ∨
          code = 0x3801 ∨ code = 0x3C03 ∨ code = 0x3C06 ∨ code = 0x5401 ∨ code = 0x6401 ∨ code = 0x1403 ∨ code = 0x1404 then 2
        else if code = 0x0010 ∨ code = 0x0013 ∨ code = 0x0014 ∨ code = 0x1001 ∨ code = 0x1402 ∨ code = 0x1405 ∨ code = 0x2004 ∨
          code = 0x2C03 ∨ code = 0x2C05 ∨ code = 0x3C02 ∨ code = 0x4401 ∨ code = 0x4C05 ∨ code = 0x5C04 ∨ code = 0x6404 then 0
        else 1

/-- REGISTER_WRITE: for every page, when no check of R62 refuses the write, exec answers a next state in which PAGE_IRQ_EN holds the data, PAGE_IRQ_PEND is RAW AND EN, and every other register word, every window byte and every byte of memory is unchanged but for what a watchpoint or a performance counter may change. Rests on 03_host_and_registers.md (R55, R58, R62). -/
def Obligations.HostWriteOfPageEnable : Prop :=
  (∀ (s : State) (page : Nat) (data : Word) (otp : Bool),
      (pageOf page).isSome = true →
      s.accepts (page * 0x1000 + 0xC) data →
      ∃ t, exec (.registerWrite (.write .bar0 (page * 0x1000 + 0xC) true (leBytes 4 data.toNat)) otp) s = .next t ∧
        t.rd (page * 0x1000 + 0xC) = data ∧
        (page ≠ 6 → page ≠ 9 → t.pagePend page = s.rd (page * 0x1000 + 8) &&& data) ∧
        RegsBut [page * 0x1000 + 0xC] s t ∧
        WinKept s t ∧
        MemKept s t)

/-- MASKED_ALIAS_WRITE to PAGE_IRQ_EN of any page, when no check refuses it: the bits that the upper half of the data selects, in the lower half of the register for the low alias and in the upper half for the high alias, take the lower half of the data; every other bit and every other register word is unchanged, and so are the windows and memory. Rests on 03_host_and_registers.md (R64). -/
def Obligations.MaskedAliasWritesSelectedBits : Prop :=
  (∀ (s : State) (page : Nat) (sel val : BitVec 16),
      (pageOf page).isSome = true →
      s.accepts (page * 0x1000 + 0x80C) (word (sel.toNat * 65536 + val.toNat)) →
      ∃ t, exec (.maskedAliasWrite page 0xC false sel val) s = .next t ∧
        t.rd (page * 0x1000 + 0xC) = (s.rd (page * 0x1000 + 0xC) &&& ~~~ word sel.toNat) ||| (word val.toNat &&& word sel.toNat) ∧
        RegsBut [page * 0x1000 + 0xC] s t ∧
        WinKept s t ∧
        MemKept s t) ∧
  (∀ (s : State) (page : Nat) (sel val : BitVec 16),
      (pageOf page).isSome = true →
      s.accepts (page * 0x1000 + 0xC0C) (word (sel.toNat * 65536 + val.toNat)) →
      ∃ t, exec (.maskedAliasWrite page 0xC true sel val) s = .next t ∧
        t.rd (page * 0x1000 + 0xC) = (s.rd (page * 0x1000 + 0xC) &&& ~~~ word (sel.toNat * 65536)) ||| (word (val.toNat * 65536) &&& word (sel.toNat * 65536)) ∧
        RegsBut [page * 0x1000 + 0xC] s t ∧
        WinKept s t ∧
        MemKept s t)

/-- REGISTER_WRITE that a check of R62 refuses, with no capture held: HIF_ERR_CAP becomes valid with the kind, HIF_ERR_ADDR and HIF_ERR_DATA hold the offset and the data, cause 0 of the HIF page sets and event 0x0401 waits; beside these only the page's own PAGE_ERR_CAP and overrun flag and the fence counters of SEC may change, and no window byte and no memory byte does. Rests on 03_host_and_registers.md (R61, R62, R65). -/
def Obligations.RejectedWriteChangesNoRegister : Prop :=
  (∀ (s : State) (addr : Nat) (data : Word) (otp : Bool),
      s.hostOpen = true →
      addr < 2 ^ 24 →
      addr % 4 = 0 →
      s.regCheck .host true (resolve addr data) ≠ 0 →
      s.b (hifA 0x048) 31 = false →
      ∃ t, exec (.registerWrite (.write .bar0 addr true (leBytes 4 data.toNat)) otp) s = .next t ∧
        t.b (hifA 0x048) 31 = true ∧
        t.f (hifA 0x048) 27 24 = s.regCheck .host true (resolve addr data) ∧
        (t.rd (hifA 0x04C)).toNat = addr ∧
        t.rd (hifA 0x050) = data ∧
        t.b (hifA 0x008) 0 = true ∧
        t.raised 1 0x0401 ∧
        RegsBut ([hifA 0x048, hifA 0x04C, hifA 0x050, hifA 0x008, addr / 0x1000 * 0x1000 + 0x14, addr / 0x1000 * 0x1000 + 4,
        secA 0x07C] ++ (List.range 16).map (fun d => secA (0x100 + 4 * d))) s t ∧
        WinKept s t ∧
        MemKept s t)

/-- FAR_WRITE_COMPLETE of a write to MAC_WAKE_PAT[0] stores the written bits, ends busy and forgets the post; FAR_WRITE_TIMEOUT ends busy and forgets the post with the register as it was, captures kind 0x8 with the address and the data as the host sent them, sets cause 3 and logs 0x0403; STALL_LIMIT_REACHED captures kind 0x9 with the register's address, sets cause 4, logs 0x0404, answers a read with Completer Abort and leaves the register as it was. In each case the other registers and memory are unchanged. Rests on 03_host_and_registers.md (R65, R67, R68). -/
def Obligations.PostedWritesEndAtTheirPage : Prop :=
  (∀ (s : State) (p : Port) (w : FarPost),
      s.b (macA p.val 4) 31 = true →
      s.hif.far.at {} (macPage p.val) = w →
      w.off = 0x080 →
      ∃ t, exec (.farWriteComplete (macPage p.val)) s = .next t ∧
        t.rd (macA p.val 0x080) = (s.rd (macA p.val 0x080) &&& ~~~ w.mask) ||| (w.mask &&& w.data) ∧
        t.b (macA p.val 4) 31 = false ∧
        t.hif.far.at {} (macPage p.val) = ({} : FarPost) ∧
        RegsBut [macA p.val 4, macA p.val 0x080] s t ∧
        MemKept s t) ∧
  (∀ (s : State) (page : Nat) (w : FarPost),
      (pageOf page).isSome = true →
      s.b (page * 0x1000 + 4) 31 = true →
      s.hif.far.at {} page = w →
      w.off < 0x1000 →
      w.addr < 2 ^ 30 →
      s.b (hifA 0x048) 31 = false →
      ∃ t, exec (.farWriteTimeout page) s = .next t ∧
        t.b (page * 0x1000 + 4) 31 = false ∧
        t.hif.far.at {} page = ({} : FarPost) ∧
        t.f (hifA 0x048) 27 24 = 8 ∧
        (t.rd (hifA 0x04C)).toNat = w.addr ∧
        t.rd (hifA 0x050) = w.sent ∧
        t.b (hifA 0x008) 3 = true ∧
        t.raised 1 0x0403 ∧
        RegsBut [hifA 0x048, hifA 0x04C, hifA 0x050, hifA 0x008, page * 0x1000 + 4, page * 0x1000 + 0x14] s t ∧
        MemKept s t) ∧
  (∀ (s : State) (reg : StallReg) (write : Bool) (data : Word),
      s.hostOpen = true →
      s.b (hifA 0x048) 31 = false →
      ∃ t, exec (.stallLimitReached reg write data) s = .next t ∧
        t.f (hifA 0x048) 27 24 = 9 ∧
        (t.rd (hifA 0x04C)).toNat = stallAddr reg ∧
        t.b (hifA 0x008) 4 = true ∧
        t.raised 1 0x0404 ∧
        (write = false → Out.completerAbort ∈ t.out) ∧
        t.rd (stallAddr reg) = s.rd (stallAddr reg) ∧
        RegsBut [hifA 0x048, hifA 0x04C, hifA 0x050, hifA 0x008, stallAddr reg / 0x1000 * 0x1000 + 0x14] s t ∧
        MemKept s t)

/-- APERTURE_ACCESS that nothing refuses reaches HBM byte address base x 2 MB + offset: a write stores its bytes there and leaves every other byte of HBM and every register as it was; a read completes with the bytes that stand there and changes no memory. Only what stands in the free-store area of an enabled BPM, whose layout R288 leaves internal, reads as free values (log entry 174). Rests on 03_host_and_registers.md (R56, R57). -/
def Obligations.ApertureReachesHbm : Prop :=
  (∀ (s : State) (off : Nat) (bs : List Byte),
      s.hostOpen = true →
      s.apertureKind off bs.length = 0 →
      ∃ t, exec (.apertureAccess off bs.length (some bs)) s = .next t ∧
        t.hbmRd (s.f (hifA 0x058) 13 0 * 0x200000 + off) bs.length = bs ∧
        HbmBut (s.f (hifA 0x058) 13 0 * 0x200000 + off) bs.length s t ∧
        HostBut 0 0 s t ∧
        WinKept s t ∧
        RegsBut [] s t) ∧
  (∀ (s : State) (off len : Nat),
      s.hostOpen = true →
      s.apertureKind off len = 0 →
      ∃ t, exec (.apertureAccess off len none) s = .next t ∧
        Out.completion (s.hbmLook (s.f (hifA 0x058) 13 0 * 0x200000 + off) len).1 ∈ t.out ∧
        (s.b (bpmA 0x044) 0 = false ∨ s.f (hifA 0x058) 13 0 * 0x200000 + off + len ≤ s.f (bpmA 0x050) 13 0 * 0x200000 ∨ s.f (bpmA 0x050) 13 0 * 0x200000 + 2 ^ 30 ≤ s.f (hifA 0x058) 13 0 * 0x200000 + off → Out.completion (s.hbmRd (s.f (hifA 0x058) 13 0 * 0x200000 + off) len) ∈ t.out) ∧
        MemKept s t ∧
        WinKept s t ∧
        RegsBut [] s t)

/-- HIF_IRQ_EOI, accepted, with the levels up to date and no watchpoint enabled: when the vector's level is 1 and it is unmasked, its message is put on the link and nothing else changes; otherwise nothing changes at all. Rests on R71. -/
def Obligations.EndOfInterruptResends : Prop :=
  (∀ (s : State) (v : Fin 256),
      s.accepts (hifA 0x05C) (word v.val) →
      s.Settled →
      (∀ j : Fin 4, s.b (dbgA (0x180 + 16 * j.val)) 0 = false) →
      v.val ∈ s.levels →
      (s.msix v.val).masked = false →
      ∃ t, exec (.hifIrqEoi v) s = .next t ∧
        t.out = s.out ++ [Out.msix v.val (s.msix v.val).addr (s.msix v.val).data] ∧
        RegsKept s t ∧
        t.hif = s.hif ∧
        t.evr = s.evr ∧
        WinKept s t ∧
        MemKept s t) ∧
  (∀ (s : State) (v : Fin 256),
      s.accepts (hifA 0x05C) (word v.val) →
      s.Settled →
      (∀ j : Fin 4, s.b (dbgA (0x180 + 16 * j.val)) 0 = false) →
      ¬ (v.val ∈ s.levels ∧ (s.msix v.val).masked = false) →
      ∃ t, exec (.hifIrqEoi v) s = .next t ∧
        t.out = s.out ∧
        RegsKept s t ∧
        t.hif = s.hif ∧
        t.evr = s.evr ∧
        WinKept s t ∧
        MemKept s t)

/-- MSIX_VECTOR_UNMASK of a masked vector with level 1 clears its mask, sends its message, and leaves every other vector's entry, the registers and memory as they were; with level 0 it clears the mask. Rests on 03_host_and_registers.md (R70). -/
def Obligations.VectorUnmaskSends : Prop :=
  (∀ (s : State) (v : Fin 256),
      s.hostOpen = true →
      s.Settled →
      (s.msix v.val).masked = true →
      ∃ t, exec (.msixVectorUnmask v) s = .next t ∧
        (t.msix v.val).masked = false ∧
        (t.msix v.val).addr = (s.msix v.val).addr ∧
        (v.val ∈ s.levels → Out.msix v.val (s.msix v.val).addr (s.msix v.val).data ∈ t.out) ∧
        (∀ w : Fin 256, w ≠ v → t.msix w.val = s.msix w.val) ∧
        RegsBut [] s t ∧
        WinKept s t ∧
        MemKept s t)

/-- FUNCTION_LEVEL_RESET, D3HOT_ENTRY and PCIE_RESET clear the enable of every ring and of table DMA; the first logs event 0x0406, the second puts the function in D3hot, and PERST_N low besides puts the HIF page and the MSI-X table at their reset values, takes the link down and sets its reset cause. PERST_N high only lets requests through again. When no table command is running, no other register and no memory byte changes. Rests on 03_host_and_registers.md (R52); 23_power_and_startup.md (R524). -/
def Obligations.FunctionResetsStopHostDma : Prop :=
  (∀ (s : State),
      s.pmu.por = true →
      s.hif.linkUp = true →
      s.dmaReady = false →
      ∃ t, exec (.functionLevelReset) s = .next t ∧
        (∀ i : Fin 2048, t.ringFlag i.val 0 = false) ∧
        t.b (tblA 0x04C) 0 = false ∧
        t.hif.d3hot = false ∧
        t.raised 1 0x0406 ∧
        t.hif.msix = s.hif.msix ∧
        RegsBut [tblA 0x04C] s t ∧
        MemKept s t) ∧
  (∀ (s : State),
      s.pmu.por = true →
      s.hif.linkUp = true →
      s.dmaReady = false →
      ∃ t, exec (.d3hotEntry) s = .next t ∧
        (∀ i : Fin 2048, t.ringFlag i.val 0 = false) ∧
        t.b (tblA 0x04C) 0 = false ∧
        t.hif.d3hot = true ∧
        t.hif.msix = s.hif.msix ∧
        RegsBut [tblA 0x04C] s t ∧
        MemKept s t) ∧
  (∀ (s : State),
      s.pmu.por = true →
      ∃ t, exec (.pcieReset true) s = .next t ∧
        (∀ i : Fin 2048, t.ringFlag i.val 0 = false) ∧
        t.b (tblA 0x04C) 0 = false ∧
        t.hif.linkUp = false ∧
        t.hif.perst = true ∧
        (∀ v : Fin 256, (t.msix v.val).masked = true) ∧
        (∀ o : Fin 0x1000, t.rd (hifA o.val) = resetWord (hifA o.val)) ∧
        t.b (topA 0x05C) 2 = true ∧
        RegsBut ((List.range 0x1000).map hifA ++ [tblA 0x04C, topA 0x05C]) s t ∧
        MemKept s t) ∧
  (∀ (s : State),
      s.pmu.por = true →
      ∃ t, exec (.pcieReset false) s = .next t ∧
        t.hif.perst = false ∧
        t.hif.linkUp = s.hif.linkUp ∧
        t.hif.msix = s.hif.msix ∧
        RegsBut [] s t ∧
        WinKept s t ∧
        MemKept s t)

/-- From Run or later with requests reaching the device: RING_TAIL_WRITE sets the tail of that entry; RING_DISABLE clears its en and no other flag, head standing; RING_IRQ_PEND_CLEAR clears irq_pend unless the unreported completions already meet R76 with irq_en set, when it sets again; RING_COALESCE_TIMEOUT sets irq_pend of a ring with irq_en and unreported completions; HOST_DMA_DISABLE clears HIF_DMA_CTL.en, so that no ring takes part in DMA. Each names the window bytes it changes; every other window byte, register and memory byte is as it was. Rests on 03_host_and_registers.md (R73, R76, R77, R81, R83). -/
def Obligations.RingControlWrites : Prop :=
  (∀ (s : State) (i : Fin 2048) (tail : BitVec 16),
      s.hostOpen = true →
      2 ≤ s.f (topA 0x048) 2 0 →
      ∃ t, exec (.ringTailWrite i tail) s = .next t ∧
        t.ringTail i.val = tail.toNat ∧
        WinBut (ringA i.val + 14) 2 s t ∧
        RegsBut [] s t ∧
        MemKept s t) ∧
  (∀ (s : State) (i : Fin 2048),
      s.hostOpen = true →
      2 ≤ s.f (topA 0x048) 2 0 →
      ∃ t, exec (.ringDisable i) s = .next t ∧
        t.ringFlag i.val 0 = false ∧
        (∀ b : Fin 8, b ≠ 0 → t.ringFlag i.val b.val = s.ringFlag i.val b.val) ∧
        t.ringHead i.val = s.ringHead i.val ∧
        WinBut (ringA i.val + 22) 1 s t ∧
        RegsBut [] s t ∧
        MemKept s t) ∧
  (∀ (s : State) (i : Fin 2048),
      s.hostOpen = true →
      2 ≤ s.f (topA 0x048) 2 0 →
      s.ringDue i.val = false →
      ∃ t, exec (.ringIrqPendClear i) s = .next t ∧
        t.ringFlag i.val 5 = false ∧
        WinBut (ringA i.val + 22) 1 s t ∧
        RegsBut [] s t ∧
        MemKept s t) ∧
  (∀ (s : State) (i : Fin 2048),
      s.hostOpen = true →
      2 ≤ s.f (topA 0x048) 2 0 →
      s.ringDue i.val = true →
      s.ringFlag i.val 1 = true →
      ∃ t, exec (.ringIrqPendClear i) s = .next t ∧
        t.ringFlag i.val 5 = true ∧
        t.ringX i.val = ({} : RingX) ∧
        WinBut (ringA i.val + 22) 1 s t ∧
        RegsBut [] s t ∧
        MemKept s t) ∧
  (∀ (s : State) (i : Fin 2048),
      0 < (s.ringX i.val).unrep →
      s.winLE (ringA i.val + 20) 2 ≠ 0 →
      s.ringFlag i.val 1 = true →
      s.ringFlag i.val 5 = false →
      ∃ t, exec (.ringCoalesceTimeout i) s = .next t ∧
        t.ringFlag i.val 5 = true ∧
        t.ringX i.val = ({} : RingX) ∧
        WinBut (ringA i.val + 22) 1 s t ∧
        RegsBut [] s t ∧
        MemKept s t) ∧
  (∀ (s : State),
      s.accepts (hifA 0x044) 0 →
      ∃ t, exec (.hostDmaDisable) s = .next t ∧
        t.b (hifA 0x044) 0 = false ∧
        (∀ i : Fin 2048, t.ringOn i.val = false) ∧
        RegsBut [hifA 0x044] s t ∧
        WinKept s t ∧
        MemKept s t)

/-- GOVERNOR_INTERVAL_END in governed mode with the slowest reading below guard, no fault and no transaction in progress: the voltage asked for rises by one step, at most to vmax, goes out on AVSBus and shows in CLK_AVS_VNOW, and CLK_GOV_LOAD shows the load; while the bus is busy with a read it waits. MONITOR_WINDOW_END stores every region's reading and, on a fall below 1,120 from at or above it, sets floor_alarm with cause 0 and event 0x0801. CLK_MON_CLR puts the minimum back to 0xFFF and clears floor_alarm. Rests on 02_self_timed_core.md (R38, R42, R43, R48). -/
def Obligations.GovernorStepsTheVoltage : Prop :=
  (∀ (s : State) (load : BitVec 8) (v : Nat),
      s.alive = true →
      s.govMode = 1 →
      s.gov.vset = some v →
      s.gov.next = none →
      s.gov.writing = none →
      s.b (clkA 0x074) 31 = false →
      s.b (clkA 0x078) 0 = true →
      s.slowest.1 < s.f (clkA 0x050) 11 0 →
      v < s.vmax →
      0 < s.ff (clkA 0x04C) 7 0 →
      s.gov.reading = false →
      ∃ t, exec (.governorIntervalEnd (load, false)) s = .next t ∧
        t.gov.vset = some (min (v + s.ff (clkA 0x04C) 7 0) s.vmax) ∧
        Out.avsWrite (min (v + s.ff (clkA 0x04C) 7 0) s.vmax) ∈ t.out ∧
        t.f (clkA 0x070) 9 0 = min (v + s.ff (clkA 0x04C) 7 0) s.vmax ∧
        t.f (clkA 0x068) 7 0 = load.toNat ∧
        RegsBut [clkA 0x068, clkA 0x040, clkA 0x070] s t ∧
        MemKept s t) ∧
  (∀ (s : State) (load : BitVec 8) (v : Nat),
      s.alive = true →
      s.govMode = 1 →
      s.gov.vset = some v →
      s.gov.next = none →
      s.gov.writing = none →
      s.b (clkA 0x074) 31 = false →
      s.b (clkA 0x078) 0 = true →
      s.slowest.1 < s.f (clkA 0x050) 11 0 →
      v < s.vmax →
      0 < s.ff (clkA 0x04C) 7 0 →
      ∃ t, exec (.governorIntervalEnd (load, true)) s = .next t ∧
        t.gov.next = some (min (v + s.ff (clkA 0x04C) 7 0) s.vmax) ∧
        t.gov.reading = true ∧
        t.gov.vset = some v ∧
        t.f (clkA 0x068) 7 0 = load.toNat ∧
        RegsBut [clkA 0x068, clkA 0x040] s t ∧
        MemKept s t) ∧
  (∀ (s : State) (readings : List (BitVec 12)) (bus : Bool),
      s.alive = true →
      readings.length = 37 →
      ∃ t, exec (.monitorWindowEnd (readings, bus)) s = .next t ∧
        (∀ r : Fin 37, t.rd (clkA (0x100 + 4 * r.val)) = word (readings.getD r.val 0).toNat) ∧
        t.f (clkA 0x040) 5 0 = t.slowest.2 ∧
        ((∀ x ∈ readings, 0 < x.toNat) → MemKept s t)) ∧
  (∀ (s : State) (readings : List (BitVec 12)) (r : Fin 37) (bus : Bool),
      s.alive = true →
      readings.length = 37 →
      1120 ≤ s.f (clkA (0x100 + 4 * r.val)) 11 0 →
      (readings.getD r.val 0).toNat < 1120 →
      ∃ t, exec (.monitorWindowEnd (readings, bus)) s = .next t ∧
        t.b (clkA 0x040) 16 = true ∧
        t.b (clkA 0x008) 0 = true ∧
        t.raised 2 0x0801) ∧
  (∀ (s : State),
      s.accepts (clkA 0x084) 1 →
      ∃ t, exec (.clkMonClr) s = .next t ∧
        t.rd (clkA 0x080) = 0xFFF ∧
        t.b (clkA 0x040) 16 = false ∧
        RegsBut [clkA 0x080, clkA 0x040] s t ∧
        MemKept s t)

/-- AVS_TRANSACTION_COMPLETE: a good write ends the write in progress, and the voltage that waits for it goes out; a good read shows its value in CLK_AVS_VNOW; a failed write goes out again, and a failed read is made again, while fewer than 3 retries were made, and is counted; after the third it sets the fault, cause 2 and event 0x0803. AVS_READBACK_TIMEOUT with more than 10 mV of difference does the same. AVS_FAULT_CLEAR clears the fault. CLOCK_LOSS of a visible domain sets its bit, cause 3 and event 0x0804. Rests on 02_self_timed_core.md (R44, R48, R49). -/
def Obligations.VoltageTransactions : Prop :=
  (∀ (s : State) (v : Nat),
      s.alive = true →
      s.gov.writing = some v →
      s.gov.next = none →
      ∃ t, exec (.avsTransactionComplete true .write) s = .next t ∧
        t.gov.writing = none ∧
        t.gov.tries = 0 ∧
        RegsBut [] s t ∧
        MemKept s t) ∧
  (∀ (s : State) (r : BitVec 10),
      s.alive = true →
      s.gov.writing = none →
      s.gov.next = none →
      ∃ t, exec (.avsTransactionComplete true (.voltage r)) s = .next t ∧
        t.gov.reading = false ∧
        t.f (clkA 0x070) 25 16 = r.toNat ∧
        t.f (clkA 0x070) 9 0 = s.f (clkA 0x070) 9 0 ∧
        RegsBut [clkA 0x070] s t ∧
        MemKept s t) ∧
  (∀ (s : State) (v : Nat),
      s.alive = true →
      s.gov.writing = some v →
      s.gov.tries < 3 →
      ∃ t, exec (.avsTransactionComplete false .write) s = .next t ∧
        t.gov.tries = s.gov.tries + 1 ∧
        Out.avsWrite v ∈ t.out ∧
        t.f (clkA 0x074) 15 0 = min (s.f (clkA 0x074) 15 0 + 1) 0xFFFF ∧
        RegsBut [clkA 0x074] s t ∧
        MemKept s t) ∧
  (∀ (s : State) (v : Nat),
      s.alive = true →
      s.gov.writing = some v →
      s.gov.tries = 3 →
      s.b (clkA 0x074) 31 = false →
      ∃ t, exec (.avsTransactionComplete false .write) s = .next t ∧
        t.b (clkA 0x074) 31 = true ∧
        t.gov.writing = none ∧
        t.b (clkA 0x008) 2 = true ∧
        t.raised 2 0x0803 ∧
        RegsBut [clkA 0x074, clkA 0x008] s t ∧
        MemKept s t) ∧
  (∀ (s : State) (op : AvsOp),
      s.alive = true →
      s.gov.writing = none →
      op ≠ .write →
      s.gov.tries < 3 →
      ∃ t, exec (.avsTransactionComplete false op) s = .next t ∧
        t.gov.tries = s.gov.tries + 1 ∧
        t.gov.reading = true ∧
        t.f (clkA 0x074) 15 0 = min (s.f (clkA 0x074) 15 0 + 1) 0xFFFF ∧
        RegsBut [clkA 0x074] s t ∧
        MemKept s t) ∧
  (∀ (s : State) (v : Nat),
      s.alive = true →
      s.gov.writing.isSome = true →
      s.gov.next = some v →
      s.avsWrites = true →
      ∃ t, exec (.avsTransactionComplete true .write) s = .next t ∧
        t.gov.writing = some v ∧
        t.gov.next = none ∧
        Out.avsWrite v ∈ t.out ∧
        RegsBut [clkA 0x070] s t ∧
        MemKept s t) ∧
  (∀ (s : State),
      s.gov.vset.isSome = true →
      s.f (clkA 0x070) 25 16 + 10 < s.f (clkA 0x070) 9 0 ∨ s.f (clkA 0x070) 9 0 + 10 < s.f (clkA 0x070) 25 16 →
      s.b (clkA 0x074) 31 = false →
      ∃ t, exec (.avsReadbackTimeout) s = .next t ∧
        t.b (clkA 0x074) 31 = true ∧
        t.b (clkA 0x008) 2 = true ∧
        t.raised 2 0x0803 ∧
        RegsBut [clkA 0x074, clkA 0x008] s t ∧
        MemKept s t) ∧
  (∀ (s : State),
      s.accepts (clkA 0x074) (word (2 ^ 31)) →
      ∃ t, exec (.avsFaultClear) s = .next t ∧
        t.b (clkA 0x074) 31 = false ∧
        t.f (clkA 0x074) 15 0 = s.f (clkA 0x074) 15 0 ∧
        RegsBut [clkA 0x074] s t ∧
        MemKept s t) ∧
  (∀ (s : State) (d : Fin 212),
      s.pmu.por = true →
      d.val < 208 →
      s.b (clkA (0x220 + 4 * (d.val / 32))) (d.val % 32) = false →
      ∃ t, exec (.clockLoss d) s = .next t ∧
        t.b (clkA (0x220 + 4 * (d.val / 32))) (d.val % 32) = true ∧
        t.b (clkA 0x008) 3 = true ∧
        t.raised 2 0x0804 ∧
        RegsBut [clkA (0x220 + 4 * (d.val / 32)), clkA 0x008] s t ∧
        MemKept s t)

/-- LANE_ENABLE_CHANGE on the lowest lane of a port, from 0 to 1, enables every lane of the port and starts the quad's PLL, from 1 to 0 disables them and clears their status; on any other lane it stores the bit and changes no lane; LANE_LOCK_ACQUIRED sets the bit that has been gained; AUTONEG_COMPLETE on an enabled 1.25 Gb/s lane that negotiates sets an_done and, for SGMII, the speed, a half-duplex partner being refused; TRAINING_DONE, TRAINING_TIMEOUT and TRAINING_RESTART move the training state from running to done, from running to failed with cause 5 + lane, and from failed to running. Rests on 04_ports_and_macs.md (R86, R90, R91, R107, R108, R109). -/
def Obligations.LanesTrainAndLock : Prop :=
  (∀ (s : State) (q : Quad) (l : Fin 4),
      s.govLane q.val l.val = l.val →
      s.b (laneCtlA q.val l.val) 0 = false →
      s.accepts (laneCtlA q.val l.val) (setBit (s.rd (laneCtlA q.val l.val)) 0 true) →
      ∃ t, exec (.laneEnableChange q l true) s = .next t ∧
        (∀ m : Fin 4, s.govLane q.val m.val = l.val → t.laneOn q.val m.val = true) ∧
        t.b (sdsA q.val 0x044) 0 = true ∧
        RegsBut (laneCtlA q.val l.val :: sdsA q.val 0x044 :: (s.governed q.val l.val).map (laneStA q.val)) s t ∧
        MemKept s t) ∧
  (∀ (s : State) (q : Quad) (l : Fin 4),
      s.govLane q.val l.val = l.val →
      s.b (laneCtlA q.val l.val) 0 = true →
      s.accepts (laneCtlA q.val l.val) (setBit (s.rd (laneCtlA q.val l.val)) 0 false) →
      ∃ t, exec (.laneEnableChange q l false) s = .next t ∧
        (∀ m : Fin 4, s.govLane q.val m.val = l.val → t.laneOn q.val m.val = false ∧ t.rd (laneStA q.val m.val) = 0)) ∧
  (∀ (s : State) (q : Quad) (l : Fin 4) (en : Bool),
      s.govLane q.val l.val ≠ l.val →
      s.accepts (laneCtlA q.val l.val) (setBit (s.rd (laneCtlA q.val l.val)) 0 en) →
      ∃ t, exec (.laneEnableChange q l en) s = .next t ∧
        t.b (laneCtlA q.val l.val) 0 = en ∧
        (∀ m : Fin 4, t.laneOn q.val m.val = s.laneOn q.val m.val) ∧
        RegsBut [laneCtlA q.val l.val] s t ∧
        MemKept s t) ∧
  (∀ (s : State) (q : Quad) (l : Fin 4) (w : Fin 5),
      s.laneOn q.val l.val = true →
      w.val < 3 →
      ∃ t, exec (.laneLockAcquired q l w) s = .next t ∧
        t.b (laneStA q.val l.val) w.val = true ∧
        RegsBut [laneStA q.val l.val] s t ∧
        MemKept s t) ∧
  (∀ (s : State) (q : Quad) (l : Fin 4),
      s.laneOn q.val l.val = true →
      ∃ t, exec (.laneLockAcquired q l 4) s = .next t ∧
        (t.lane (4 * q.val + l.val)).fecLock = true ∧
        RegsBut [] s t ∧
        MemKept s t) ∧
  (∀ (s : State) (q : Quad) (l : Fin 4) (speed : Fin 3),
      s.laneOn q.val l.val = true →
      s.f (laneCtlA q.val (s.govLane q.val l.val)) 6 4 = 0 →
      s.b (laneCtlA q.val (s.govLane q.val l.val)) 14 = true →
      ∃ t, exec (.autonegComplete q l speed false) s = .next t ∧
        t.b (laneStA q.val l.val) 8 = true ∧
        t.f (laneStA q.val l.val) 13 12 = speed.val ∧
        RegsBut [laneStA q.val l.val] s t ∧
        MemKept s t) ∧
  (∀ (s : State) (q : Quad) (l : Fin 4) (speed : Fin 3),
      s.laneOn q.val l.val = true →
      s.f (laneCtlA q.val (s.govLane q.val l.val)) 6 4 = 0 →
      s.b (laneCtlA q.val (s.govLane q.val l.val)) 13 = true →
      ∃ t, exec (.autonegComplete q l speed true) s = .next t ∧
        (t.lane (4 * q.val + l.val)).anRefuse = true ∧
        RegsBut [] s t ∧
        MemKept s t) ∧
  (∀ (s : State) (q : Quad) (l : Fin 4),
      s.f (laneStA q.val l.val) 6 4 = 1 →
      ∃ t, exec (.trainingDone q l) s = .next t ∧
        t.f (laneStA q.val l.val) 6 4 = 2 ∧
        RegsBut [laneStA q.val l.val] s t ∧
        MemKept s t) ∧
  (∀ (s : State) (q : Quad) (l : Fin 4),
      s.f (laneStA q.val l.val) 6 4 = 1 →
      ∃ t, exec (.trainingTimeout q l) s = .next t ∧
        t.f (laneStA q.val l.val) 6 4 = 3 ∧
        t.b (sdsA q.val 0x008) (5 + l.val) = true ∧
        ((s.lane (4 * q.val + l.val)).trainLogged = false → t.raised (sdsPage q.val) 0x4003) ∧
        RegsBut [laneStA q.val l.val, sdsA q.val 0x008] s t ∧
        MemKept s t) ∧
  (∀ (s : State) (q : Quad) (l : Fin 4),
      s.laneOn q.val l.val = true →
      s.f (laneStA q.val l.val) 6 4 = 3 →
      ∃ t, exec (.trainingRestart q l) s = .next t ∧
        t.f (laneStA q.val l.val) 6 4 = 1 ∧
        RegsBut [laneStA q.val l.val] s t ∧
        MemKept s t)

/-- LINK_UP with the conditions of R91 shows the link up and reports it with cause 0 and event 0x4401; LINK_DOWN of a carried port whose link is up shows it down with the same report; REMOTE_FAULT_RECEIVED shows the fault and, from none, sets cause 1 with event 0x4402; SERDES_PLL_LOCK_LOST clears the lock and, with a lane enabled, sets cause 4 with event 0x4002; QUAD_MODE_CHANGE stores the mode and clears both enables of every port that the mode leaves uncarried. Rests on 04_ports_and_macs.md (R85, R87, R91, R100, R109, R112). -/
def Obligations.LinksComeUpAndGoDown : Prop :=
  (∀ (s : State) (p : Port),
      s.b (macA p.val 0x048) 0 = false →
      s.linkOk p.val = true →
      s.regionDown (37 + p.val / 4) = false →
      ∃ t, exec (.linkUp p) s = .next t ∧
        t.b (macA p.val 0x048) 0 = true ∧
        t.b (macA p.val 0x008) 0 = true ∧
        t.b (sdsA (p.val / 4) 0x008) (p.val % 4) = true ∧
        t.raised (macPage p.val) 0x4401 ∧
        RegsBut [macA p.val 0x048, macA p.val 0x008, macA p.val 0x068, sdsA (p.val / 4) 0x008] s t ∧
        MemKept s t) ∧
  (∀ (s : State) (p : Port) (l : Fin 4) (lost : Fin 6),
      s.carried p.val = true →
      (s.portLanes p.val).contains l.val = true →
      s.b (macA p.val 0x048) 0 = true →
      ∃ t, exec (.linkDown p (l, lost)) s = .next t ∧
        t.b (macA p.val 0x048) 0 = false ∧
        t.b (macA p.val 0x008) 0 = true ∧
        t.raised (macPage p.val) 0x4401) ∧
  (∀ (s : State) (p : Port),
      s.carried p.val = true →
      s.f (macA p.val 0x048) 5 4 = 0 →
      ∃ t, exec (.remoteFaultReceived p 2) s = .next t ∧
        t.f (macA p.val 0x048) 5 4 = 2 ∧
        t.b (macA p.val 0x048) 0 = s.b (macA p.val 0x048) 0 ∧
        t.b (macA p.val 0x008) 1 = true ∧
        t.raised (macPage p.val) 0x4402 ∧
        RegsBut [macA p.val 0x048, macA p.val 0x008] s t ∧
        MemKept s t) ∧
  (∀ (s : State) (q : Quad),
      s.b (sdsA q.val 0x044) 0 = true →
      (List.range 4).any (s.laneOn q.val) = true →
      ∃ t, exec (.serdesPllLockLost q) s = .next t ∧
        t.b (sdsA q.val 0x044) 0 = false ∧
        t.b (sdsA q.val 0x008) 4 = true ∧
        t.raised (sdsPage q.val) 0x4002) ∧
  (∀ (s : State) (q : Quad) (mode : Fin 4),
      s.accepts (sdsA q.val 0x040) (word mode.val) →
      ∃ t, exec (.quadModeChange q mode) s = .next t ∧
        t.quadMode (4 * q.val) = mode.val ∧
        (∀ i : Fin 4, carriedIn mode.val i.val = false → t.f (macA (4 * q.val + i.val) 0x040) 1 0 = 0 ∧ (t.mac (4 * q.val + i.val)).rxEn = false))

/-- A pause frame to the group address or to the port's own address at an open port that honours pause loads the timer and shows paused exactly when its quanta are not 0, and does nothing at one that does not; a PFC frame loads the timers of the priorities it selects; PAUSE_TIMER_EXPIRE and PFC_TIMER_EXPIRE end them; PAUSE_FRAME_SEND at an idle port sends the oldest request; MAC_RX_ENABLE_CHANGE and MAC_TX_DISABLE between frames bring the enable into force; PREEMPT_VERIFY_SEND sends one of at most 3 verify packets, PREEMPT_VERIFY_RESPONSE makes preemption active, and PREEMPT_VERIFY_TIMEOUT after the third reports failure. Rests on 04_ports_and_macs.md (R101, R102, R103, R104, R105, R111). -/
def Obligations.MacControlFrames : Prop :=
  (∀ (s : State) (p : Port) (own : Bool) (quanta : BitVec 16),
      s.rxWire p.val = true →
      s.b (macA p.val 0x054) 0 = true →
      ∃ t, exec (.pauseFrameReceived p own quanta) s = .next t ∧
        (t.mac p.val).pause = quanta.toNat ∧
        t.b (macA p.val 0x048) 1 = decide (quanta ≠ 0) ∧
        RegsBut [macA p.val 0x048] s t ∧
        MemKept s t) ∧
  (∀ (s : State) (p : Port) (own : Bool) (quanta : BitVec 16),
      s.rxWire p.val = true →
      s.b (macA p.val 0x054) 0 = false →
      ∃ t, exec (.pauseFrameReceived p own quanta) s = .next t ∧
        t.mac p.val = s.mac p.val ∧
        RegsBut [] s t ∧
        FlowKept s t ∧
        MemKept s t) ∧
  (∀ (s : State) (p : Port) (enable : BitVec 8) (timers : List (BitVec 16)) (pr : Fin 8),
      s.rxWire p.val = true →
      s.b (macA p.val 0x054) 1 = true →
      timers.length = 8 →
      enable.getLsbD pr.val = true →
      ∃ t, exec (.pfcFrameReceived p enable timers) s = .next t ∧
        (t.mac p.val).pfc.at 0 pr.val = (if timers.getD pr.val 0 = 0 then 0 else (timers.getD pr.val 0).toNat * 8 + s.f (macA p.val 0x060) (3 * pr.val + 2) (3 * pr.val)) ∧
        RegsBut [macA p.val 0x048] s t ∧
        MemKept s t) ∧
  (∀ (s : State) (p : Port),
      ∃ t, exec (.pauseTimerExpire p) s = .next t ∧
        (t.mac p.val).pause = 0 ∧
        t.b (macA p.val 0x048) 1 = false ∧
        RegsBut [macA p.val 0x048] s t ∧
        MemKept s t) ∧
  (∀ (s : State) (p : Port) (pr : Fin 8),
      ∃ t, exec (.pfcTimerExpire p pr) s = .next t ∧
        (t.mac p.val).pfc.at 0 pr.val = 0 ∧
        RegsBut [macA p.val 0x048] s t ∧
        MemKept s t) ∧
  (∀ (s : State) (p : Port) (f : List Byte) (rest : List (List Byte)),
      (s.mac p.val).ctlOut = f :: rest →
      s.portDown p.val = false →
      s.tx p.val = none →
      ∃ t, exec (.pauseFrameSend p) s = .next t ∧
        (s.portLoop p.val = 0 → Out.macControl p.val f ∈ t.out) ∧
        (s.portLoop p.val = 1 → (t.mac p.val).loop = (s.mac p.val).loop ++ [f]) ∧
        (t.mac p.val).ctlOut = rest ∧
        RegsBut [] s t ∧
        MemKept s t) ∧
  (∀ (s : State) (p : Port) (en : Bool),
      s.accepts (macA p.val 0x040) (setBit (s.rd (macA p.val 0x040)) 0 en) →
      (s.mac p.val).rx = none →
      ∃ t, exec (.macRxEnableChange p en) s = .next t ∧
        (t.mac p.val).rxEn = en ∧
        t.b (macA p.val 0x040) 0 = en ∧
        t.b (macA p.val 0x040) 1 = s.b (macA p.val 0x040) 1 ∧
        RegsBut [macA p.val 0x040] s t ∧
        MemKept s t) ∧
  (∀ (s : State) (p : Port),
      s.accepts (macA p.val 0x040) (setBit (s.rd (macA p.val 0x040)) 1 false) →
      s.tx p.val = none →
      ∃ t, exec (.macTxDisable p) s = .next t ∧
        (t.mac p.val).txEn = false ∧
        t.b (macA p.val 0x040) 1 = false) ∧
  (∀ (s : State) (p : Port),
      s.b (macA p.val 0x048) 0 = true →
      s.b (macA p.val 0x064) 0 = true →
      s.b (macA p.val 0x064) 1 = false →
      (s.f (macA p.val 0x068) 2 0 = 1 ∨ s.f (macA p.val 0x068) 2 0 = 2) →
      (s.mac p.val).verifyTries < 3 →
      ∃ t, exec (.preemptVerifySend p) s = .next t ∧
        (s.portLoop p.val = 0 → Out.mPacket p.val false ∈ t.out) ∧
        (t.mac p.val).verifyTries = (s.mac p.val).verifyTries + 1 ∧
        t.f (macA p.val 0x068) 2 0 = 2 ∧
        RegsBut [macA p.val 0x068] s t ∧
        MemKept s t) ∧
  (∀ (s : State) (p : Port),
      s.b (macA p.val 0x064) 0 = true →
      s.b (macA p.val 0x064) 1 = false →
      s.f (macA p.val 0x068) 2 0 = 2 →
      ∃ t, exec (.preemptVerifyResponse p) s = .next t ∧
        t.f (macA p.val 0x068) 2 0 = 3 ∧
        t.b (macA p.val 0x068) 4 = true ∧
        RegsBut [macA p.val 0x068] s t ∧
        MemKept s t) ∧
  (∀ (s : State) (p : Port),
      s.f (macA p.val 0x068) 2 0 = 2 →
      (s.mac p.val).verifyTries = 3 →
      ∃ t, exec (.preemptVerifyTimeout p) s = .next t ∧
        t.f (macA p.val 0x068) 2 0 = 4 ∧
        t.b (macA p.val 0x008) 2 = true ∧
        t.raised (macPage p.val) 0x4403 ∧
        RegsBut [macA p.val 0x068, macA p.val 0x008] s t ∧
        MemKept s t)

/-- RX_FRAME_START at an open port holds a frame of fewer than 64 bytes at the MAC with no frame in the core, and hands a longer one that staging has room for to the core with its bytes; in near-end loop the frame is the oldest that the port has sent. RX_OVERSIZE stops the frame and counts reason 0x02 at the port, or 0x04 with a code error. RX_FRAME_END counts a frame shorter than 64 bytes under 0x01, or 0x04 with a code error, and makes a whole frame that passes every check of R94 complete with all its bytes. Rests on 04_ports_and_macs.md (R92, R93, R94); 18_statistics_counters.md (R409). -/
def Obligations.FramesAreReceived : Prop :=
  (∀ (s : State) (p : Port) (bytes : List Byte),
      s.rxOpen p.val = true →
      s.portLoop p.val ≠ 1 →
      (s.mac p.val).rx.isSome = false →
      bytes.length < 64 →
      ∃ t, exec (.rxFrameStart p bytes) s = .next t ∧
        (t.mac p.val).rx.isSome = true ∧
        (((t.mac p.val).rx.map (fun (r : RxFrame) => r.bytes)) = some bytes) ∧
        FlowKept s t ∧
        RegsBut [] s t ∧
        MemKept s t) ∧
  (∀ (s : State) (p : Port) (bytes : List Byte),
      s.rxOpen p.val = true →
      s.portLoop p.val ≠ 1 →
      (s.mac p.val).rx.isSome = false →
      64 ≤ bytes.length →
      heldAtMac (s.mscPort p.val) bytes = false →
      s.stageFits (p.val / 16) 0 bytes.length = true →
      ∃ t, exec (.rxFrameStart p bytes) s = .next t ∧
        t.nextId = s.nextId + 1 ∧
        (t.frame s.nextId).bytes = bytes ∧
        (t.frame s.nextId).src = p.val ∧
        (t.frame s.nextId).place = Place.staged ∧
        ((t.mac p.val).rx.bind (fun (r : RxFrame) => r.fid)) = some s.nextId ∧
        MemKept s t) ∧
  (∀ (s : State) (p : Port) (bytes f : List Byte) (rest : List (List Byte)),
      s.rxOpen p.val = true →
      s.portLoop p.val = 1 →
      (s.mac p.val).rx.isSome = false →
      (s.mac p.val).loop = f :: rest →
      bytes.length < 64 →
      ∃ t, exec (.rxFrameStart p bytes) s = .next t ∧
        (((t.mac p.val).rx.map (fun (r : RxFrame) => (r.bytes, r.loop))) = some (f.take bytes.length, some (f.drop bytes.length))) ∧
        (t.mac p.val).loop = rest ∧
        FlowKept s t ∧
        RegsBut [] s t ∧
        MemKept s t) ∧
  (∀ (s : State) (p : Port) (r : RxFrame) (codeErr : Bool),
      (s.mac p.val).rx = some r →
      r.stopped = false →
      r.begun = true →
      r.full = 0 →
      r.fid = none →
      s.passed (macPage p.val) = false →
      s.freeMode (macPage p.val) = false →
      ∃ t, exec (.rxOversize p codeErr) s = .next t ∧
        ((t.mac p.val).rx.map (fun (r : RxFrame) => r.stopped)) = some true ∧
        t.sta.cnt.at 0 (p.val * 0x200 + 8 * (if codeErr then 4 else 2)) = satAdd 48 (s.sta.cnt.at 0 (p.val * 0x200 + 8 * (if codeErr then 4 else 2))) 1 ∧
        FlowKept s t ∧
        MemKept s t) ∧
  (∀ (s : State) (p : Port) (r : RxFrame) (rest : List Byte) (codeErr full : Bool) (reasm : Fin 3) (fec : List (Nat × Nat)),
      (s.mac p.val).rx = some r →
      r.stopped = false →
      r.begun = true →
      r.fid = none →
      r.loop = none →
      r.bytes.length + rest.length < 64 →
      s.passed (macPage p.val) = false →
      s.freeMode (macPage p.val) = false →
      ∃ t, exec (.rxFrameEnd p rest (codeErr, fec) full reasm) s = .next t ∧
        (t.mac p.val).rx.isSome = false ∧
        t.sta.cnt.at 0 (p.val * 0x200 + 8 * (if codeErr then 4 else 1)) = satAdd 48 (s.sta.cnt.at 0 (p.val * 0x200 + 8 * (if codeErr then 4 else 1))) 1 ∧
        FlowKept s t ∧
        MemKept s t) ∧
  (∀ (s : State) (p : Port) (r : RxFrame) (fid : Nat) (rest : List Byte) (fec : List (Nat × Nat)),
      (s.mac p.val).rx = some r →
      r.stopped = false →
      r.begun = true →
      r.full = 0 →
      r.loop = none →
      r.fid = some fid →
      (s.frame fid).id = fid →
      (s.frame fid).place = Place.staged →
      (s.frame fid).verdict = 0 →
      (s.frame fid).bytes = r.bytes →
      s.stageFits (p.val / 16) r.bytes.length rest.length = true →
      64 ≤ (r.bytes ++ rest).length →
      (r.bytes ++ rest).length ≤ s.f (macA p.val 0x044) 13 0 →
      heldAtMac r.msc (r.bytes ++ rest) = false →
      leVal ((r.bytes ++ rest).drop ((r.bytes ++ rest).length - 4)) = crc32 ((r.bytes ++ rest).take ((r.bytes ++ rest).length - 4)) →
      ∃ t, exec (.rxFrameEnd p rest (false, fec) false 0) s = .next t ∧
        (t.mac p.val).rx.isSome = false ∧
        (t.frame fid).complete = true ∧
        (t.frame fid).bytes = r.bytes ++ rest ∧
        (t.frame fid).wireLen = (r.bytes ++ rest).length ∧
        MemKept s t)

/-- PARSE_ADMIT of an untagged front-port frame by its own free, good and running pipeline, with no parse start configured and no breakpoint enabled: the frame stands at stage 0 with the VLAN's domain and version C, and the drain counter of C rises by one. PIPELINE_STAGE below 11 with no program in the stage moves a token to the free next stage and changes nothing else of it; stage 11 hands a unicast frame with no request, to a queue of its own domain, to policing. LATE_CLAIM_CHECK of a whole D0 frame with a claim beyond its bytes counts and captures it and forgets the claims. Rests on 05_parser.md (R113, R124, R125); 06_pipelines.md (R133, R143); 08_rule_versions.md (R192, R197); 01_architecture.md (R21, R22). -/
def Obligations.FramesEnterAndPassThePipeline : Prop :=
  (∀ (s : State) (k : Group) (p : AnyPort) (f : Frame) (d : Nat),
      k.val < 4 →
      s.pipeOf p.val = k.val →
      s.halted k.val = false →
      (s.stageToken k.val 0).isNone = true →
      s.nextStaged p.val = some f →
      f.parseReady = true →
      f.pass = 1 →
      f.startNode = none →
      f.inPort ≠ 64 →
      f.inPort ≠ 67 →
      s.critical = false →
      s.region (5 + f.grp) ≠ 2 →
      s.region (10 + f.grp) ≠ 2 →
      s.region k.val = 0 →
      tagCount (s.tpid k.val s.verC) (f.bytes.take 256) = 0 →
      bit (s.prsCfg k.val f.inPort s.verC) 31 = false →
      (∀ i : Fin 8, s.b (dbgA (0x100 + 16 * i.val)) 0 = false) →
      (s.vlanHalf k.val (fld (s.prsCfg k.val f.inPort s.verC) 11 0) s.verC).map (fun h => h.1) = some d →
      s.drain s.verC + 1 < 2 ^ 32 →
      ∃ t, exec (.parseAdmit k p) s = .next t ∧
        (t.frame f.id).place = Place.stage 0 ∧
        (t.frame f.id).pipe = k.val ∧
        (t.frame f.id).domain = d ∧
        (t.frame f.id).version = s.verC ∧
        (t.frame f.id).admitted = true ∧
        (t.frame f.id).bytes = f.bytes ∧
        t.drain s.verC = s.drain s.verC + 1 ∧
        MemKept s t) ∧
  (∀ (s : State) (k : Group) (n : Fin 12) (f : Frame),
      n.val < 11 →
      s.halted k.val = false →
      s.regionDown k.val = false →
      (s.stageToken k.val (n.val + 1)).isNone = true →
      s.stageToken k.val n.val = some f →
      s.frame f.id = f →
      f.held = false →
      s.stageProgs k.val n.val f.version = [] →
      ∃ t, exec (.pipelineStage k n) s = .next t ∧
        t.frame f.id = { f with place := Place.stage (n.val + 1) } ∧
        (∀ i : Fin 16, i.val ≠ f.id → t.frame i.val = s.frame i.val) ∧
        RegsBut [] s t ∧
        MemKept s t) ∧
  (∀ (s : State) (k : Group) (f : Frame),
      s.halted k.val = false →
      s.regionDown k.val = false →
      s.stageToken k.val 11 = some f →
      s.frame f.id = f →
      f.held = false →
      s.stageProgs k.val 11 f.version = [] →
      f.acts.frozen = false →
      f.acts.ttl = none →
      f.acts.rnatReq = false →
      f.acts.learn = none →
      f.direct = none →
      f.etherType ≠ 0x88B5 →
      f.mdGet 8 = 1 →
      f.mdGet 9 < 64 →
      s.qOwner f.queueId = f.domain →
      ∃ t, exec (.pipelineStage k 11) s = .next t ∧
        (t.frame f.id).place = Place.police ∧
        (t.frame f.id).md = f.md ∧
        MemKept s t) ∧
  (∀ (s : State) (k : Group) (e : Nat × Frame),
      s.frames.find? (fun e => decide (e.2.pipe = k.val) && e.2.complete && !e.2.late.isEmpty) = some e →
      e.2.place ≠ Place.gone →
      e.2.verdict = 0 →
      e.2.domain = 0 →
      (e.2.late.find? (fun l => decide (e.2.wireLen - 4 < l.claim))).isSome = true →
      s.b (prsA k.val 0x044) 31 = false →
      ∃ t, exec (.lateClaimCheck k) s = .next t ∧
        (t.frame e.2.id).late = [] ∧
        t.rd (prsA k.val 0x054) = word (satAdd 32 (s.rd (prsA k.val 0x054)).toNat 1) ∧
        t.b (prsA k.val 0x044) 31 = true ∧
        t.b (prsA k.val 0x044) 30 = true ∧
        t.raised (prsPage k.val) 0x4801 ∧
        RegsBut [prsA k.val 0x054, prsA k.val 0x044, prsA k.val 0x048, prsA k.val 0x008] s t ∧
        MemKept s t)

/-- PUNT_METER_REFILL adds each meter's rate up to its burst (a newly written one fills) and ends the newness. TAKEOVER_FORCE, accepted, makes P4 cover the group and reports it; TAKEOVER_PORT_SWITCH moves a port of the covered group with no token inside into P4, and back once release is set; TAKEOVER_RELEASE with ports moved sets release. EGRESS_EDIT hands a copy with no program, no request and no tag on with its first cell unchanged, and such a copy toward port 66 whatever programs its frame names; a copy whose first cell is found to compute another check value is not made, and is counted, captured and logged under 0x2411 when it is the first. Rests on 06_pipelines.md (R147, R149, R151, R155, R158). -/
def Obligations.TakeoverAndEgressEdit : Prop :=
  (∀ (s : State),
      ∃ t, exec (.puntMeterRefill) s = .next t ∧
        (∀ i : Fin 80, (t.puntBucket (i.val / 16) (i.val % 16)).1 =
        (if s.pol.puntNew.contains (i.val % 16) then s.f (pipA (i.val / 16) (0x0C0 + 4 * (i.val % 16))) 31 24 * 1000000
        else min ((s.puntBucket (i.val / 16) (i.val % 16)).1 + s.f (pipA (i.val / 16) (0x0C0 + 4 * (i.val % 16))) 23 0)
        (s.f (pipA (i.val / 16) (0x0C0 + 4 * (i.val % 16))) 31 24 * 1000000))) ∧
        t.pol.puntNew = [] ∧
        FlowKept s t ∧
        RegsBut [] s t ∧
        MemKept s t) ∧
  (∀ (s : State) (g : Fin 4),
      s.accepts (pipA 4 0x080) (word (1 + 2 * g.val + s.f (pipA 4 0x080) 8 8 * 256)) →
      ∃ t, exec (.takeoverForce g) s = .next t ∧
        t.covering = true ∧
        t.coveredGroup = g.val ∧
        t.b (pipA g.val 0x040) 2 = true ∧
        t.b (pipA 4 0x080) 0 = false ∧
        t.f (pipA 4 0x084) 31 16 = min (s.f (pipA 4 0x084) 31 16 + 1) 0xFFFF ∧
        t.raised (pipPage 4) 0x4C05 ∧
        RegsBut [pipA 4 0x080, pipA 4 0x084, pipA g.val 0x040, pipA 4 0x008] s t ∧
        MemKept s t) ∧
  (∀ (s : State) (p : Port),
      s.covering = true →
      s.coveredGroup = p.val / 16 →
      s.b (pipA 4 0x080) 16 = false →
      s.spr.moved.contains p.val = false →
      s.portInside (p.val / 16) p.val = false →
      ∃ t, exec (.takeoverPortSwitch p) s = .next t ∧
        t.pipeOf p.val = 4 ∧
        t.spr.moved = p.val :: s.spr.moved ∧
        FlowKept s t ∧
        RegsBut [pipA 4 0x084] s t ∧
        MemKept s t) ∧
  (∀ (s : State) (p : Port) (q : Port),
      s.covering = true →
      s.coveredGroup = p.val / 16 →
      s.b (pipA 4 0x080) 16 = true →
      s.spr.moved.contains p.val = true →
      s.spr.moved.contains q.val = true →
      p ≠ q →
      s.portInside 4 p.val = false →
      ∃ t, exec (.takeoverPortSwitch p) s = .next t ∧
        t.pipeOf p.val = p.val / 16 ∧
        t.pipeOf q.val = 4 ∧
        FlowKept s t ∧
        RegsBut [] s t ∧
        MemKept s t) ∧
  (∀ (s : State),
      s.accepts (pipA 4 0xC80) 0x00010001 →
      s.covering = true →
      s.spr.moved.isEmpty = false →
      ∃ t, exec (.takeoverRelease) s = .next t ∧
        t.b (pipA 4 0x080) 16 = true ∧
        t.b (pipA 4 0x084) 4 = true ∧
        t.spr.moved = s.spr.moved ∧
        RegsBut [pipA 4 0x080, pipA 4 0x084] s t ∧
        MemKept s t) ∧
  (∀ (s : State) (g : Group) (x : EFrame) (spec : CopySpec) (rest : List CopySpec),
      s.regionDown (25 + g.val) = false →
      s.eframes.find? (fun y => decide (y.e = g.val) && !y.todo.isEmpty && !(s.behind (s.frame y.fid) && !s.passed (tmgPage g.val))) = some x →
      x.todo = spec :: rest →
      (s.frame x.fid).id = x.fid →
      s.copyOwner (s.frame x.fid) spec = (s.frame x.fid).domain →
      spec.owner.getD (s.frame x.fid).domain = (s.frame x.fid).domain →
      s.portDown spec.port = false →
      spec.port < 64 →
      spec.vid = 0 →
      spec.edit = 0 →
      (s.frame x.fid).mdGet 0x12 = 0 →
      s.portProg g.val spec.port = 0 →
      (s.frame x.fid).acts.ttl = none →
      (s.frame x.fid).acts.rnatReq = false →
      (s.frame x.fid).rtag = false →
      x.strip = false →
      s.critical = false →
      s.region (53 + g.val) ≠ 2 →
      ∃ t, exec (.egressEdit g none) s = .next t ∧
        t.nextId = s.nextId + 1 ∧
        (t.copy s.nextId).head = (s.frame x.fid).bytes.take 256 ∧
        (t.copy s.nextId).port = spec.port ∧
        (t.copy s.nextId).fid = x.fid ∧
        (t.copy s.nextId).delta = 0 ∧
        t.frames = s.frames ∧
        RegsBut [] s t ∧
        MemKept s t) ∧
  (∀ (s : State) (g : Group) (x : EFrame) (spec : CopySpec) (rest : List CopySpec) (v : Option Word),
      s.regionDown (25 + g.val) = false →
      s.eframes.find? (fun y => decide (y.e = g.val) && !y.todo.isEmpty && !(s.behind (s.frame y.fid) && !s.passed (tmgPage g.val))) = some x →
      x.todo = spec :: rest →
      (s.frame x.fid).id = x.fid →
      s.copyOwner (s.frame x.fid) spec = (s.frame x.fid).domain →
      spec.owner.getD (s.frame x.fid).domain = (s.frame x.fid).domain →
      spec.port = 66 →
      v.all (fun w => decide (w.toNat = crc32c ((s.frame x.fid).bytes.take 256))) = true →
      (s.frame x.fid).acts.ttl = none →
      (s.frame x.fid).acts.rnatReq = false →
      (s.frame x.fid).rtag = false →
      x.strip = false →
      ∃ t, exec (.egressEdit g v) s = .next t ∧
        t.nextId = s.nextId + 1 ∧
        (t.copy s.nextId).head = (s.frame x.fid).bytes.take 256 ∧
        (t.copy s.nextId).port = 66 ∧
        t.frames = s.frames ∧
        RegsBut [] s t ∧
        MemKept s t) ∧
  (∀ (s : State) (g : Group) (x : EFrame) (spec : CopySpec) (rest : List CopySpec) (v : Word),
      s.regionDown (25 + g.val) = false →
      s.eframes.find? (fun y => decide (y.e = g.val) && !y.todo.isEmpty && !(s.behind (s.frame y.fid) && !s.passed (tmgPage g.val))) = some x →
      x.todo = spec :: rest →
      (s.frame x.fid).id = x.fid →
      s.copyOwner (s.frame x.fid) spec = (s.frame x.fid).domain →
      spec.owner.getD (s.frame x.fid).domain = (s.frame x.fid).domain →
      s.portDown spec.port = false →
      v.toNat ≠ crc32c ((s.frame x.fid).bytes.take 256) →
      s.b (staA 0x440) 31 = false →
      ∃ t, exec (.egressEdit g (some v)) s = .next t ∧
        t.copy s.nextId = ({} : Copy) ∧
        t.rd (staA 0x454) = word (satAdd 32 (s.rd (staA 0x454)).toNat 1) ∧
        (t.rd (staA 0x440)).toNat = (2 ^ 31 + 2 * 2 ^ 24 + g.val * 65536 + spec.port * 256) % 2 ^ 32 ∧
        (t.rd (staA 0x444)).toNat = crc32c ((s.frame x.fid).bytes.take 256) ∧
        t.rd (staA 0x448) = v ∧
        t.raised 9 0x2411 ∧
        MemKept s t)

/-- LEARN_PROCESS with an unlocked request at the head: an address with no entry is entered in all five copies at the lowest free way with its hit bits set, and counted; a frozen entry is left as it is and counted. AGING_SCAN over a table with one learned, unfrozen entry that no pipeline has hit and whose age reaches the limit removes it and counts it. PENDING_SWEEP clears the pending mark of an entry that has waited twice the hold time and nothing else of it. Rests on 07_tables_and_learning.md (R168, R174, R175, R176). -/
def Obligations.AddressesAreLearnedAndAge : Prop :=
  (∀ (s : State) (r : LearnReq) (rest : List LearnReq) (j : Nat),
      s.regionDown 32 = false →
      s.tbl.park = [] →
      s.tbl.fifo = r :: rest →
      s.reqLocked r = false →
      s.anyKey 0 r.owner r.key = none →
      (candidates 0 (entKey 0 (learnedEnt r)).1 (entKey 0 (learnedEnt r)).2).find? (fun i => !entValid 0 (s.ent 0 0 i)) = some j →
      ∃ t, exec (.learnProcess) s = .next t ∧
        (∀ k : Fin 5, t.ent k.val 0 j = learnedEnt r) ∧
        (∀ k : Fin 5, t.hit k.val j = true) ∧
        t.tbl.fifo = rest ∧
        t.rd (lrnA 0x058) = word (satAdd 32 (s.rd (lrnA 0x058)).toNat 1) ∧
        RegsBut [lrnA 0x058, lrnA 0x044] s t ∧
        MemKept s t) ∧
  (∀ (s : State) (r : LearnReq) (rest : List LearnReq) (j : Nat),
      s.regionDown 32 = false →
      s.tbl.park = [] →
      s.tbl.fifo = r :: rest →
      s.reqLocked r = false →
      s.anyKey 0 r.owner r.key = some j →
      bitsOf (leAt (s.ent 0 0 j) 9 1) 1 1 = 1 →
      ∃ t, exec (.learnProcess) s = .next t ∧
        t.tbl.banks = s.tbl.banks ∧
        t.tbl.fifo = rest ∧
        t.rd (lrnA 0x060) = word (satAdd 32 (s.rd (lrnA 0x060)).toNat 1) ∧
        RegsBut [lrnA 0x060, lrnA 0x044] s t ∧
        MemKept s t) ∧
  (∀ (s : State) (j : Nat),
      s.b (lrnA 0x04C) 31 = true →
      s.regionDown 32 = false →
      s.listed 0 0 = [j] →
      isLearned (s.ent 0 0 j) = true →
      bitsOf (leAt (s.ent 0 0 j) 9 1) 1 1 = 0 →
      (∀ k : Fin 5, s.hit k.val j = false) →
      s.f (lrnA 0x04C) 19 16 ≤ leAt (s.ent 0 0 j) 12 4 % 16 + 1 →
      ∃ t, exec (.agingScan) s = .next t ∧
        (∀ k : Fin 5, t.ent k.val 0 j = List.replicate 16 0) ∧
        t.rd (lrnA 0x074) = word (satAdd 32 (s.rd (lrnA 0x074)).toNat 1) ∧
        RegsBut [lrnA 0x074] s t ∧
        MemKept s t) ∧
  (∀ (s : State) (j : Nat),
      s.regionDown 32 = false →
      s.listed 0 0 = [j] →
      entValid 0 (s.ent 0 0 j) = true →
      leAt (s.ent 0 0 j) 9 1 < 16 →
      bitsOf (leAt (s.ent 0 0 j) 9 1) 2 2 = 1 →
      2 * s.f (lrnA 0x048) 7 0 ≤ (s.lrnTime % 1024 + 1024 - sfld (s.ent 0 0 j) 116 107) % 1024 →
      ∃ t, exec (.pendingSweep) s = .next t ∧
        (∀ k : Fin 5, t.ent k.val 0 j = macDyn (s.ent 0 0 j) (leAt (s.ent 0 0 j) 9 1 - 4) (leAt (s.ent 0 0 j) 12 4)) ∧
        RegsBut [] s t ∧
        MemKept s t)

/-- TBL_CMD_WRITE, _READ, _INSERT, _DELETE and _SEARCH of one entry that no check refuses: a write stands in all five copies, a read returns the copy's bytes to the buffer, an insert into a hashed table takes the lowest way that is free and reports its index, a delete leaves zeros in all copies, a search reports the index; each writes status 0 and its counts into bytes 24 to 31 of the command, advances head and counts the command; every other byte of host memory stands. Rests on 07_tables_and_learning.md (R163, R177, R178, R179, R180). -/
def Obligations.TableCommandsRun : Prop :=
  (∀ (s : State) (tg index copy buf : Nat),
      s.dmaReady = true →
      leAt (s.hostRd s.dmaCmdAddr 32) 0 2 = 1 + tg * 256 →
      leAt (s.hostRd s.dmaCmdAddr 32) 2 1 % 8 = copy →
      leAt (s.hostRd s.dmaCmdAddr 32) 4 4 = index →
      leAt (s.hostRd s.dmaCmdAddr 32) 8 2 = 1 →
      leAt (s.hostRd s.dmaCmdAddr 32) 16 8 = buf →
      cmdRsv (s.hostRd s.dmaCmdAddr 32) = false →
      s.cmdHead 1 tg copy index 1 = 0 →
      s.bankHeld tg index 1 = false →
      entRsv tg (s.hostRd buf (entSize tg)) = false →
      entEnc tg (s.hostRd buf (entSize tg)) = false →
      s.entGuard tg index 0 (s.ent 0 tg index) (s.hostRd buf (entSize tg)) = 0 →
      s.clash tg index (s.hostRd buf (entSize tg)) = false →
      ∃ t, exec (.tblCmdWrite) s = .next t ∧
        (∀ k : Fin 5, t.ent k.val tg index = s.hostRd buf (entSize tg)) ∧
        t.hostRd (s.dmaCmdAddr + 24) 8 = [1, 0, 1, 0, 0, 0, 0, 0] ∧
        HostBut (s.dmaCmdAddr + 24) 8 s t ∧
        HbmBut 0 0 s t ∧
        t.dmaHead = (s.dmaHead + 1) % s.dmaSize ∧
        t.rd (tblA 0x05C) = word (satAdd 32 (s.rd (tblA 0x05C)).toNat 1) ∧
        RegsBut [tblA 0x050, tblA 0x05C] s t) ∧
  (∀ (s : State) (tg index copy buf : Nat) (e : List Byte),
      s.dmaReady = true →
      leAt (s.hostRd s.dmaCmdAddr 32) 0 2 = 2 + tg * 256 →
      leAt (s.hostRd s.dmaCmdAddr 32) 2 1 % 8 = copy →
      leAt (s.hostRd s.dmaCmdAddr 32) 4 4 = index →
      leAt (s.hostRd s.dmaCmdAddr 32) 8 2 = 1 →
      leAt (s.hostRd s.dmaCmdAddr 32) 16 8 = buf →
      cmdRsv (s.hostRd s.dmaCmdAddr 32) = false →
      s.cmdHead 2 tg copy index 1 = 0 →
      s.entRead tg index 0 copy = (0, e) →
      (buf + entSize tg ≤ s.dmaCmdAddr + 24 ∨ s.dmaCmdAddr + 32 ≤ buf) →
      ∃ t, exec (.tblCmdRead) s = .next t ∧
        t.hostRd buf (entSize tg) = e ∧
        t.hostRd (s.dmaCmdAddr + 24) 8 = [1, 0, 1, 0, 0, 0, 0, 0] ∧
        t.tbl.banks = s.tbl.banks ∧
        t.dmaHead = (s.dmaHead + 1) % s.dmaSize ∧
        RegsBut [tblA 0x050, tblA 0x05C] s t) ∧
  (∀ (s : State) (tg index copy buf j : Nat),
      (tg = 0 ∨ tg = 4 ∨ tg = 5) →
      s.dmaReady = true →
      leAt (s.hostRd s.dmaCmdAddr 32) 0 2 = 3 + tg * 256 →
      leAt (s.hostRd s.dmaCmdAddr 32) 2 1 % 8 = copy →
      leAt (s.hostRd s.dmaCmdAddr 32) 4 4 = index →
      leAt (s.hostRd s.dmaCmdAddr 32) 8 2 = 1 →
      leAt (s.hostRd s.dmaCmdAddr 32) 16 8 = buf →
      cmdRsv (s.hostRd s.dmaCmdAddr 32) = false →
      s.cmdHead 3 tg copy index 1 = 0 →
      s.bankHeld tg index 1 = false →
      entRsv tg (s.hostRd buf (entSize tg)) = false →
      entEnc tg (s.hostRd buf (entSize tg)) = false →
      (entKey tg (s.hostRd buf (entSize tg))).1 = 0 →
      s.anyKey tg 0 (entKey tg (s.hostRd buf (entSize tg))).2 = none →
      s.entGuard tg (2 ^ 20) 0 (List.replicate (entSize tg) 0) (s.hostRd buf (entSize tg)) = 0 →
      (candidates tg 0 (entKey tg (s.hostRd buf (entSize tg))).2).find? (fun i => !entValid tg (s.ent 0 tg i)) = some j →
      ∃ t, exec (.tblCmdInsert) s = .next t ∧
        (∀ k : Fin 5, t.ent k.val tg j = s.hostRd buf (entSize tg)) ∧
        t.hostRd (s.dmaCmdAddr + 24) 8 = [1, 0, 1, 0] ++ leBytes 4 j ∧
        HostBut (s.dmaCmdAddr + 24) 8 s t ∧
        t.dmaHead = (s.dmaHead + 1) % s.dmaSize ∧
        RegsBut [tblA 0x050, tblA 0x05C] s t) ∧
  (∀ (s : State) (tg index copy buf j : Nat),
      s.dmaReady = true →
      leAt (s.hostRd s.dmaCmdAddr 32) 0 2 = 4 + tg * 256 →
      leAt (s.hostRd s.dmaCmdAddr 32) 2 1 % 8 = copy →
      leAt (s.hostRd s.dmaCmdAddr 32) 4 4 = index →
      leAt (s.hostRd s.dmaCmdAddr 32) 8 2 = 1 →
      leAt (s.hostRd s.dmaCmdAddr 32) 16 8 = buf →
      cmdRsv (s.hostRd s.dmaCmdAddr 32) = false →
      s.cmdHead 4 tg copy index 1 = 0 →
      s.bankHeld tg index 1 = false →
      entRsv tg (s.hostRd buf (entSize tg)) = false →
      entEnc tg (s.hostRd buf (entSize tg)) = false →
      (tg = 0 ∨ tg = 4 ∨ tg = 5) →
      (entKey tg (s.hostRd buf (entSize tg))).1 = 0 →
      s.entFind tg 0 (s.hostRd buf (entSize tg)) = some j →
      s.entGuard tg j 0 (s.ent 0 tg j) (s.ent 0 tg j) = 0 →
      ∃ t, exec (.tblCmdDelete) s = .next t ∧
        (∀ k : Fin 5, t.ent k.val tg j = List.replicate (entSize tg) 0) ∧
        t.hostRd (s.dmaCmdAddr + 24) 8 = [1, 0, 1, 0, 0, 0, 0, 0] ∧
        HostBut (s.dmaCmdAddr + 24) 8 s t ∧
        t.dmaHead = (s.dmaHead + 1) % s.dmaSize ∧
        RegsBut [tblA 0x050, tblA 0x05C] s t) ∧
  (∀ (s : State) (tg index copy buf j : Nat),
      s.dmaReady = true →
      leAt (s.hostRd s.dmaCmdAddr 32) 0 2 = 5 + tg * 256 →
      leAt (s.hostRd s.dmaCmdAddr 32) 2 1 % 8 = copy →
      leAt (s.hostRd s.dmaCmdAddr 32) 4 4 = index →
      leAt (s.hostRd s.dmaCmdAddr 32) 8 2 = 1 →
      leAt (s.hostRd s.dmaCmdAddr 32) 16 8 = buf →
      cmdRsv (s.hostRd s.dmaCmdAddr 32) = false →
      s.cmdHead 5 tg copy index 1 = 0 →
      s.bankHeld tg index 1 = false →
      entRsv tg (s.hostRd buf (entSize tg)) = false →
      entEnc tg (s.hostRd buf (entSize tg)) = false →
      (s.entFind tg 0 (s.hostRd buf (entSize tg)) = some j ∨ s.entHeld tg 0 (s.hostRd buf (entSize tg)) = [j]) →
      ∃ t, exec (.tblCmdSearch) s = .next t ∧
        t.hostRd (s.dmaCmdAddr + 24) 8 = [1, 0, 1, 0] ++ leBytes 4 j ∧
        HostBut (s.dmaCmdAddr + 24) 8 s t ∧
        t.tbl.banks = s.tbl.banks ∧
        t.dmaHead = (s.dmaHead + 1) % s.dmaSize ∧
        RegsBut [tblA 0x050, tblA 0x05C] s t)

/-- TBL_CMD_LOCK that can be taken locks its slots; TBL_CMD_UNLOCK and LOCK_AUTO_RELEASE clear the lock's registers, the latter counting it and logging 0x3402; LOCK_OVERLAP_WAIT_END runs the lock command that waited; TBL_DMA_DISABLE clears en and keeps log2size, and a read command that is running then stops at an entry boundary, its result written back and head past it. SCRUB_WORD over five equal copies moves on by one word and changes no table byte; with one copy different and repair in place, that copy takes the majority's word and the finding is counted. Rests on 07_tables_and_learning.md (R177, R181, R182, R188). -/
def Obligations.TableLocksAndScrubbing : Prop :=
  (∀ (s : State) (tg index count : Nat),
      s.dmaReady = true →
      leAt (s.hostRd s.dmaCmdAddr 32) 0 2 = 6 + tg * 256 →
      leAt (s.hostRd s.dmaCmdAddr 32) 4 4 = index →
      leAt (s.hostRd s.dmaCmdAddr 32) 8 2 = count →
      cmdRsv (s.hostRd s.dmaCmdAddr 32) = false →
      s.cmdHead 6 tg (leAt (s.hostRd s.dmaCmdAddr 32) 2 1 % 8) index count = 0 →
      s.lockWaits tg index count = false →
      (s.takeLock tg index count).1 = 0 →
      ∃ t, exec (.tblCmdLock) s = .next t ∧
        t.slotLocked tg index = true ∧
        t.slotLocked tg (index + count - 1) = true ∧
        t.hostRd (s.dmaCmdAddr + 24) 8 = [1, 0] ++ leBytes 2 count ++ [0, 0, 0, 0] ∧
        HostBut (s.dmaCmdAddr + 24) 8 s t ∧
        t.dmaHead = (s.dmaHead + 1) % s.dmaSize ∧
        t.tbl.banks = s.tbl.banks) ∧
  (∀ (s : State) (tg index count : Nat) (i : Fin 8),
      s.dmaReady = true →
      leAt (s.hostRd s.dmaCmdAddr 32) 0 2 = 7 + tg * 256 →
      leAt (s.hostRd s.dmaCmdAddr 32) 4 4 = index →
      leAt (s.hostRd s.dmaCmdAddr 32) 8 2 = count →
      cmdRsv (s.hostRd s.dmaCmdAddr 32) = false →
      s.cmdHead 7 tg (leAt (s.hostRd s.dmaCmdAddr 32) 2 1 % 8) index count = 0 →
      (List.range 8).find? (fun n => s.b (tblA (0x0C0 + 4 * n)) 31 && decide (s.f (tblA (0x0C0 + 4 * n)) 27 24 = tg) && decide (s.f (tblA (0x0E0 + 4 * n)) 15 0 = index) && decide (s.f (tblA (0x0C0 + 4 * n)) 12 0 = count)) = some i.val →
      ∃ t, exec (.tblCmdUnlock) s = .next t ∧
        t.rd (tblA (0x0C0 + 4 * i.val)) = 0 ∧
        t.rd (tblA (0x0E0 + 4 * i.val)) = 0 ∧
        t.hostRd (s.dmaCmdAddr + 24) 8 = [1, 0] ++ leBytes 2 count ++ [0, 0, 0, 0] ∧
        t.dmaHead = (s.dmaHead + 1) % s.dmaSize ∧
        t.tbl.banks = s.tbl.banks) ∧
  (∀ (s : State) (i : Fin 8),
      s.b (tblA (0x0C0 + 4 * i.val)) 31 = true →
      ∃ t, exec (.lockAutoRelease i) s = .next t ∧
        t.rd (tblA (0x0C0 + 4 * i.val)) = 0 ∧
        t.rd (tblA (0x0E0 + 4 * i.val)) = 0 ∧
        t.rd (tblA 0x088) = word (satAdd 32 (s.rd (tblA 0x088)).toNat 1) ∧
        t.b (tblA 0x008) 2 = true ∧
        t.raised 13 0x3402 ∧
        t.tbl.banks = s.tbl.banks ∧
        RegsBut [tblA (0x0C0 + 4 * i.val), tblA (0x0E0 + 4 * i.val), tblA 0x040, tblA 0x088, tblA 0x008] s t ∧
        MemKept s t) ∧
  (∀ (s : State) (tg index count : Nat),
      s.tbl.waiting = true →
      s.dmaReady = true →
      leAt (s.hostRd s.dmaCmdAddr 32) 0 2 = 6 + tg * 256 →
      leAt (s.hostRd s.dmaCmdAddr 32) 4 4 = index →
      leAt (s.hostRd s.dmaCmdAddr 32) 8 2 = count →
      cmdRsv (s.hostRd s.dmaCmdAddr 32) = false →
      s.cmdHead 6 tg (leAt (s.hostRd s.dmaCmdAddr 32) 2 1 % 8) index count = 0 →
      (s.takeLock tg index count).1 = 0 →
      ∃ t, exec (.lockOverlapWaitEnd) s = .next t ∧
        t.slotLocked tg index = true ∧
        t.tbl.waiting = false ∧
        t.hostRd (s.dmaCmdAddr + 24) 8 = [1, 0] ++ leBytes 2 count ++ [0, 0, 0, 0] ∧
        t.dmaHead = (s.dmaHead + 1) % s.dmaSize) ∧
  (∀ (s : State),
      s.accepts (tblA 0x04C) (word (s.f (tblA 0x04C) 11 8 * 256)) →
      s.dmaReady = false →
      ∃ t, exec (.tblDmaDisable) s = .next t ∧
        t.b (tblA 0x04C) 0 = false ∧
        t.dmaSize = s.dmaSize ∧
        t.dmaHead = s.dmaHead ∧
        RegsBut [tblA 0x04C] s t ∧
        MemKept s t) ∧
  (∀ (s : State) (tg index count copy : Nat),
      s.accepts (tblA 0x04C) (word (s.f (tblA 0x04C) 11 8 * 256)) →
      s.dmaReady = true →
      leAt (s.hostRd s.dmaCmdAddr 32) 0 2 = 2 + tg * 256 →
      leAt (s.hostRd s.dmaCmdAddr 32) 2 1 % 8 = copy →
      leAt (s.hostRd s.dmaCmdAddr 32) 4 4 = index →
      leAt (s.hostRd s.dmaCmdAddr 32) 8 2 = count →
      cmdRsv (s.hostRd s.dmaCmdAddr 32) = false →
      s.cmdHead 2 tg copy index count = 0 →
      ∃ t, exec (.tblDmaDisable) s = .next t ∧
        t.b (tblA 0x04C) 0 = false ∧
        (∃ n, n ≤ count ∧ t.hostRd (s.dmaCmdAddr + 24) 8 = [1, 0] ++ leBytes 2 n ++ [0, 0, 0, 0]) ∧
        t.dmaHead = (s.dmaHead + 1) % s.dmaSize ∧
        t.tbl.banks = s.tbl.banks ∧
        RegsBut [tblA 0x04C, tblA 0x050, tblA 0x05C] s t) ∧
  (∀ (s : State) (bad : Bool),
      s.b (tblA 0x060) 0 = true →
      s.b (tblA 0x060) 3 = false →
      s.regionDown 31 = false →
      s.tbl.unread = [] →
      0 < s.tbl.scrubWord →
      s.tbl.scrubWord + 1 < 96 * 1024 →
      (∀ c : Fin 5, s.scrubWord c.val (s.tbl.scrubWord / 1024) (s.tbl.scrubWord % 1024) = s.scrubWord 0 (s.tbl.scrubWord / 1024) (s.tbl.scrubWord % 1024)) →
      ∃ t, exec (.scrubWord ([], []) bad) s = .next t ∧
        t.tbl.banks = s.tbl.banks ∧
        t.tbl.scrubWord = s.tbl.scrubWord + 1 ∧
        t.f (tblA 0x064) 6 0 = (s.tbl.scrubWord + 1) / 1024 ∧
        RegsBut [tblA 0x064] s t ∧
        MemKept s t) ∧
  (∀ (s : State) (bad : Bool),
      s.b (tblA 0x060) 0 = true →
      s.b (tblA 0x060) 3 = false →
      s.f (tblA 0x060) 2 1 = 1 →
      s.regionDown 31 = false →
      s.tbl.unread = [] →
      0 < s.tbl.scrubWord →
      s.tbl.scrubWord + 1 < 96 * 1024 →
      (∀ c : Fin 4, s.scrubWord c.val (s.tbl.scrubWord / 1024) (s.tbl.scrubWord % 1024) = s.scrubWord 0 (s.tbl.scrubWord / 1024) (s.tbl.scrubWord % 1024)) →
      s.scrubWord 4 (s.tbl.scrubWord / 1024) (s.tbl.scrubWord % 1024) ≠ s.scrubWord 0 (s.tbl.scrubWord / 1024) (s.tbl.scrubWord % 1024) →
      ∃ t, exec (.scrubWord ([], []) bad) s = .next t ∧
        t.scrubWord 4 (s.tbl.scrubWord / 1024) (s.tbl.scrubWord % 1024) = s.scrubWord 0 (s.tbl.scrubWord / 1024) (s.tbl.scrubWord % 1024) ∧
        t.rd (tblA 0x074) = word (satAdd 32 (s.rd (tblA 0x074)).toNat 1) ∧
        t.rd (tblA 0x080) = word (satAdd 32 (s.rd (tblA 0x080)).toNat 1) ∧
        t.tbl.scrubWord = s.tbl.scrubWord + 1 ∧
        MemKept s t)

/-- VER_SET_OPEN, accepted and not busy, with no set open, opens one for D0 with result 1; VER_SET_COMMIT with D0's set open and fewer than four versions live asks for the commit point; VER_SET_CLOSE gives every staged register C's value and closes with result 5; COMMIT_POINT with nothing queued makes version N = C + 1 mod 8 the current one with the values written since the last commit, closes the set with result 1, counts the commit and logs 0x0010; OPEN_SET_LIMIT of an open set logs 0x0012 once with cause 18. Rests on 08_rule_versions.md (R191, R193, R201, R204, R206). -/
def Obligations.RuleVersionsCommit : Prop :=
  (∀ (s : State),
      s.accepts (topA 0x304) (word 1) →
      s.b (topA 0x300) 24 = false →
      s.b (topA 0x300) 12 = false →
      ∃ t, exec (.verSetOpen) s = .next t ∧
        t.b (topA 0x300) 12 = true ∧
        t.f (topA 0x300) 19 16 = 0 ∧
        t.f (topA 0x300) 30 28 = 1 ∧
        t.verC = s.verC ∧
        t.ver.openAt = s.clk ∧
        RegsBut [topA 0x300] s t ∧
        MemKept s t) ∧
  (∀ (s : State),
      s.accepts (topA 0x304) (word 2) →
      s.b (topA 0x300) 24 = false →
      s.setOpenFor 0 = true →
      s.f (topA 0x300) 10 8 < 4 →
      ∃ t, exec (.verSetCommit) s = .next t ∧
        t.b (topA 0x300) 24 = true ∧
        t.ver.pendingCommit = some 0 ∧
        t.verC = s.verC ∧
        RegsBut [topA 0x300] s t ∧
        MemKept s t) ∧
  (∀ (s : State),
      s.accepts (topA 0x304) (word 3) →
      s.b (topA 0x300) 24 = false →
      s.setOpenFor 0 = true →
      topA 0x300 ∉ s.ver.staged →
      ∃ t, exec (.verSetClose) s = .next t ∧
        t.b (topA 0x300) 12 = false ∧
        t.f (topA 0x300) 30 28 = 5 ∧
        (∀ a ∈ s.ver.staged, a ∉ watchRegs → a ∉ countRegs → t.rd a = s.rwv a s.verC) ∧
        t.ver.staged = [] ∧
        RegsBut (topA 0x300 :: s.ver.staged) s t ∧
        MemKept s t) ∧
  (∀ (s : State) (d : Nat),
      s.ver.pendingCommit = some d →
      s.tbl.repairs = [] →
      s.tbl.dirty = false →
      (∀ a ∈ s.ver.staged, a < 2 ^ 24) →
      ∃ t, exec (.commitPoint) s = .next t ∧
        t.verC = (s.verC + 1) % 8 ∧
        t.b (topA 0x300) 12 = false ∧
        t.b (topA 0x300) 24 = false ∧
        t.f (topA 0x300) 30 28 = 1 ∧
        (∀ a ∈ s.ver.staged, t.rwv a ((s.verC + 1) % 8) = s.rd a) ∧
        t.f (topA 0x30C) 15 0 = min (s.f (topA 0x30C) 15 0 + 1) 0xFFFF ∧
        t.ver.pendingCommit = none ∧
        t.b (topA 0x008) 16 = true ∧
        t.raised 0 0x0010 ∧
        MemKept s t) ∧
  (∀ (s : State),
      s.b (topA 0x300) 12 = true →
      s.ver.late = false →
      msec s.ver.limit < s.clk - s.ver.openAt →
      ∃ t, exec (.openSetLimit) s = .next t ∧
        t.ver.late = true ∧
        t.b (topA 0x008) 18 = true ∧
        t.raised 0 0x0012 ∧
        RegsBut [topA 0x008] s t ∧
        MemKept s t)

/-- POLICE_FRAME on a unicast frame with no stream handle and no meter enters the frame at the tail of its send queue and changes nothing else of it; on a frame of a blocked stream of its own domain it counts the frame as dropped by size. METER_REFILL adds each rate to its bucket up to the burst; a staged configuration with fill comes into force with full buckets. STREAM_GATE_ENTRY brings a schedule's entry to the present time of its base and SCHEDULE_CYCLE_START takes in the content last written. Rests on 09_stream_policing.md (R210, R213, R215, R216, R217, R220, R221); 10_gale_fabric.md (R233). -/
def Obligations.PolicingRunsItsChecks : Prop :=
  (∀ (s : State) (k : Group) (f : Frame),
      s.regionDown (10 + k.val) = false →
      s.nextPolice k.val = some f →
      s.frame f.id = f →
      f.pol = none →
      f.mdGet 0x0F = 0xFFFF →
      f.mdGet 0x0E = 0xFFFF →
      f.mdGet 8 = 1 →
      ∃ t, exec (.policeFrame k) s = .next t ∧
        t.frame f.id = { f with place := Place.queued (groupOf (f.mdGet 9)), groups := 2 ^ groupOf (f.mdGet 9) } ∧
        t.glf.queues.at [] (f.grp * 6 + groupOf (f.mdGet 9)) = s.glf.queues.at [] (f.grp * 6 + groupOf (f.mdGet 9)) ++ [f.id] ∧
        RegsBut [] s t ∧
        WinKept s t ∧
        MemKept s t) ∧
  (∀ (s : State) (k : Group) (f : Frame),
      s.regionDown (10 + k.val) = false →
      s.nextPolice k.val = some f →
      s.frame f.id = f →
      f.pol = none →
      s.polWaits k.val f (s.polView k.val f) = true →
      ∃ t, exec (.policeFrame k) s = .next t ∧
        t.frame f.id = { f with pol := some (s.polView k.val f) } ∧
        RegsBut [] s t ∧
        WinKept s t ∧
        MemKept s t) ∧
  (∀ (s : State) (k : Group) (f : Frame) (h : Nat),
      s.regionDown (10 + k.val) = false →
      s.nextPolice k.val = some f →
      s.frame f.id = f →
      f.pol = none →
      s.polWaits k.val f (s.polView k.val f) = false →
      f.mdGet 0x0F = h →
      h < 4096 →
      f.sentN = 0 →
      s.winLE (filterA k.val h) 1 % 2 = 1 →
      bitsOf (leAt (s.filterRd k.val h) 0 1) 2 2 = 1 →
      s.polFenced k.val (s.polUse k.val f) f.domain = false →
      ∃ t, exec (.policeFrame k) s = .next t ∧
        t.rd (polA k.val 0x050) = word (satAdd 32 (s.rd (polA k.val 0x050)).toNat 1) ∧
        (t.frame f.id).place ≠ Place.police ∧
        RegsBut ([polA k.val 0x050, glfA (0x068 + 4 * f.grp), topA 0x300, topA 0x008] ++ (List.range 128).map (fun i => mirA (4 * i)) ++
        [topA (0x310 + 4 * f.version)]) s t ∧
        WinKept s t ∧
        MemKept s t) ∧
  (∀ (s : State) (k : Group) (m : Fin 8192),
      m.val < meterCount k.val →
      s.meterStaged k.val m.val = false →
      meterEn (s.meterCfg k.val m.val) = true →
      ∃ t, exec (.meterRefill k (m, false)) s = .next t ∧
        t.tc k.val m.val = min (256 * leAt (s.meterCfg k.val m.val) 8 3) (s.tc k.val m.val + leAt (s.meterCfg k.val m.val) 0 4) ∧
        t.tp k.val m.val = min (256 * leAt (s.meterCfg k.val m.val) 12 3) (s.tp k.val m.val + leAt (s.meterCfg k.val m.val) 4 4) ∧
        t.meterCfg k.val m.val = s.meterCfg k.val m.val ∧
        WinBut (meterA k.val m.val + 24) 8 s t ∧
        FlowKept s t ∧
        RegsBut [] s t ∧
        MemKept s t) ∧
  (∀ (s : State) (k : Group) (m : Fin 8192),
      m.val < meterCount k.val →
      s.meterStaged k.val m.val = false →
      meterEn (s.meterCfg k.val m.val) = true →
      s.spr.rows = [] →
      ∃ t, exec (.meterRefill k (m, true)) s = .next t ∧
        t.tc k.val m.val = min (256 * leAt (s.meterCfg k.val m.val) 8 3) (leAt (s.meterCfg k.val m.val) 0 4) ∧
        t.tp k.val m.val = min (256 * leAt (s.meterCfg k.val m.val) 12 3) (leAt (s.meterCfg k.val m.val) 4 4) ∧
        WinBut (meterA k.val m.val + 24) 8 s t ∧
        FlowKept s t ∧
        MemKept s t) ∧
  (∀ (s : State) (k : Group) (m : Fin 8192),
      m.val < meterCount k.val →
      s.meterStaged k.val m.val = true →
      bitsOf (leAt (s.winRd (meterA k.val m.val) 24) 18 1) 5 5 = 1 →
      ∃ t, exec (.meterRefill k (m, false)) s = .next t ∧
        t.meterCfg k.val m.val = s.winRd (meterA k.val m.val) 24 ∧
        t.meterStaged k.val m.val = false ∧
        t.tc k.val m.val = 256 * s.winLE (meterA k.val m.val + 8) 3 ∧
        t.tp k.val m.val = 256 * s.winLE (meterA k.val m.val + 12) 3 ∧
        WinBut (meterA k.val m.val + 19) 13 s t ∧
        FlowKept s t ∧
        RegsBut [] s t ∧
        MemKept s t) ∧
  (∀ (s : State) (k : Group) (j : Fin 256),
      s.tsuDown = false →
      schedValid (s.sched k.val j.val) = true →
      ∃ t, exec (.streamGateEntry k j) s = .next t ∧
        t.pol.entry.at none (k.val * 256 + j.val) = schedEntry (s.sched k.val j.val) (s.tb (leAt (s.sched k.val j.val) 10 1 % 4)).sec (s.tb (leAt (s.sched k.val j.val) 10 1 % 4)).ns ∧
        t.pol.scheds = s.pol.scheds ∧
        FlowKept s t ∧
        RegsBut [] s t ∧
        WinKept s t ∧
        MemKept s t) ∧
  (∀ (s : State) (k : Group) (j : Fin 256),
      s.tsuDown = false →
      schedValid (s.sched k.val j.val) = true →
      schedValid (s.winRd (schedA k.val j.val) 128) = true →
      ∃ t, exec (.scheduleCycleStart k j) s = .next t ∧
        t.sched k.val j.val = s.winRd (schedA k.val j.val) 128 ∧
        t.pol.entry.at none (k.val * 256 + j.val) = schedEntry (t.sched k.val j.val) (s.tb (leAt (t.sched k.val j.val) 10 1 % 4)).sec (s.tb (leAt (t.sched k.val j.val) 10 1 % 4)).ns ∧
        FlowKept s t ∧
        RegsBut [] s t ∧
        WinKept s t ∧
        MemKept s t)

/-- CELL_SEND of a unicast frame whose queue is first in turn: the cell flies to its group on the spray slot's plane under the path's next number, takes a credit, stays unacknowledged, and the number and counts advance. CELL_ACK of the last group a cell waits for releases it from staging; of a number staging no longer holds it is only consumed. ACK_TIMEOUT_RESEND, the first time and below the error threshold, sends the cell again on the next active slot and counts an error of the plane. FABRIC_ENABLE_CHANGE from 0 to 1 gives each account its configured credits. Rests on 10_gale_fabric.md (R232, R233, R234, R235, R237, R239, R243, R247, R248); 11_resequencer.md (R261). -/
def Obligations.CellsCrossTheFabric : Prop :=
  (∀ (s : State) (k : Group) (q j e : Nat) (f : Frame) (cls : Bool),
      s.regionDown (5 + k.val) = false →
      (∀ x : Fin 5, s.pacerOk k.val x.val = true) →
      ((List.range 6).map (fun i => (s.glf.rr.at 0 k.val + 1 + i) % 6)).find? (s.sendReady k.val) = some q →
      s.resendOf k.val q = none →
      s.sendHead k.val q = some f →
      s.frame f.id = f →
      s.spraySlot k.val q (decide (f.sentN = 0)) = some j →
      maskGroups f.groups = [e] →
      s.liveGroups f = [e] →
      s.creditFor k.val e j f.prot = some cls →
      ∃ t, exec (.cellSend k) s = .next t ∧
        t.glf.flights = s.glf.flights ++ [({ k := k.val, e, plane := s.slotPlane j, seq := s.seqNext k.val e, fid := f.id, idx := f.sentN, first := decide (f.sentN = 0), last := f.cellLast } : Flight)] ∧
        t.glf.unacked = s.glf.unacked ++ [({ k := k.val, fid := f.id, idx := f.sentN, first := decide (f.sentN = 0), last := f.cellLast, q, slot := j, plane := s.slotPlane j, wait := [(e, s.seqNext k.val e)] } : SentCell)] ∧
        t.glf.credits = s.glf.credits ++ [({ k := k.val, e, slot := j, seq := s.seqNext k.val e, prot := cls } : Credit)] ∧
        t.glf.free.at 0 (credKey k.val e j cls) = s.glf.free.at 0 (credKey k.val e j cls) - 1 ∧
        t.seqNext k.val e = (s.seqNext k.val e + 1) % 2 ^ 20 ∧
        (t.frame f.id).sentN = f.sentN + 1 ∧
        t.unackedN k.val = (s.unackedN k.val + 1) % 2 ^ 14 ∧
        RegsBut [glfA (0x068 + 4 * k.val)] s t ∧
        WinKept s t ∧
        MemKept s t) ∧
  (∀ (s : State) (k : Group) (e seq : Nat) (c : SentCell) (cs : List SentCell) (rest : List (Nat × Nat × Nat)),
      takeFirst (fun a => decide (a.1 = k.val)) s.glf.acks = some ((k.val, e, seq), rest) →
      s.glf.unacked = c :: cs →
      c.k = k.val →
      c.wait = [(e, seq)] →
      ({ c with wait := [] } : SentCell) ∉ cs →
      ∃ t, exec (.cellAck k) s = .next t ∧
        t.glf.acks = rest ∧
        t.glf.unacked = cs ∧
        t.stageHeld k.val = s.stageHeld k.val - 1 ∧
        t.unackedN k.val = s.unackedN k.val - 1 ∧
        t.glf.flights = s.glf.flights ∧
        RegsBut [glfA (0x068 + 4 * k.val)] s t ∧
        WinKept s t ∧
        MemKept s t) ∧
  (∀ (s : State) (k : Group) (e seq : Nat) (rest : List (Nat × Nat × Nat)),
      takeFirst (fun a => decide (a.1 = k.val)) s.glf.acks = some ((k.val, e, seq), rest) →
      s.glf.unacked.find? (fun c => decide (c.k = k.val) && c.wait.contains (e, seq)) = none →
      ∃ t, exec (.cellAck k) s = .next t ∧
        t.glf = { s.glf with acks := rest } ∧
        t.frames = s.frames ∧
        RegsBut [] s t ∧
        WinKept s t ∧
        MemKept s t) ∧
  (∀ (s : State) (k e : Group) (seq : BitVec 20) (j : Nat) (c : SentCell) (cs : List SentCell),
      s.glf.unacked = c :: cs →
      c.k = k.val →
      c.wait = [(e.val, seq.toNat)] →
      c.resends = 0 →
      s.slotFrom (c.slot + 1) = some j →
      (s.glf.errs.filter (fun x => decide (s.clk < x.2 + usec 100) && decide (x.1 = c.plane))).length + 1 < s.f (glfA 0x05C) 23 16 →
      ∃ t, exec (.ackTimeoutResend k e seq) s = .next t ∧
        t.glf.flights = s.glf.flights ++ [({ k := k.val, e := e.val, plane := s.slotPlane j, seq := seq.toNat, fid := c.fid, idx := c.idx, first := c.first, last := c.last, resend := true } : Flight)] ∧
        t.glf.unacked = { c with slot := j, plane := s.slotPlane j, resends := 1 } :: cs ∧
        t.rd (glfA (0x0A0 + 4 * c.plane)) = word (satAdd 32 (s.rd (glfA (0x0A0 + 4 * c.plane))).toNat 1) ∧
        t.frames = s.frames ∧
        RegsBut [glfA (0x0A0 + 4 * c.plane)] s t ∧
        WinKept s t ∧
        MemKept s t) ∧
  (∀ (s : State),
      s.b (glfA 0x044) 31 = false →
      s.accepts (glfA 0x044) (setBit (s.rd (glfA 0x044)) 31 true) →
      ∃ t, exec (.fabricEnableChange true) s = .next t ∧
        t.b (glfA 0x044) 31 = true ∧
        (∀ (k e : Fin 5) (j : Fin 4), t.glf.free.at 0 (credKey k.val e.val j.val false) = s.f (glfA 0x058) 7 0) ∧
        (∀ (k e : Fin 5) (j : Fin 4), t.glf.free.at 0 (credKey k.val e.val j.val true) = s.f (glfA 0x058) 22 16) ∧
        t.glf.unacked = s.glf.unacked ∧
        RegsBut [glfA 0x044] s t ∧
        WinKept s t ∧
        MemKept s t)

/-- CMD_PLANE_ISOLATE of an active plane, accepted: its state becomes isolated, its slot empty, cause 4 is captured when nothing was, the isolation counts with event 0x3C01, and the cells inside it are lost. PLANE_STALL_DETECT on an active plane does the same under cause 2 with the path's staging and group, and declares region 15 + p under cause 4 with event 0x2001, both captured when nothing was; a spare plane or one under test becomes failed instead; an isolated or failed one stays as it is. Rests on 10_gale_fabric.md (R241, R245, R246, R250, R257, R258); 21_spares_and_faults.md (R486, R487). -/
def Obligations.PlanesFailAndAreSwapped : Prop :=
  (∀ (s : State) (p : Group) (j : Fin 4),
      s.accepts (glfA 0x050) (word (16 + p.val)) →
      (List.range 4).find? (fun j => s.slotValid j && decide (s.slotPlane j = p.val)) = some j.val →
      ∃ t, exec (.cmdPlaneIsolate p) s = .next t ∧
        t.planeState p.val = 2 ∧
        t.slotValid j.val = false ∧
        (s.b (glfA 0x060) 31 = false → t.rd (glfA 0x060) = word (2 ^ 31 + 4 * 2 ^ 24 + p.val * 2 ^ 16 + 7 * 2 ^ 8 + 7)) ∧
        t.rd (glfA 0x080) = word (satAdd 32 (s.rd (glfA 0x080)).toNat 1) ∧
        t.raised 15 0x3C01 ∧
        (∀ x ∈ t.glf.flights, x.plane ≠ p.val) ∧
        RegsBut [glfA 0x048, glfA 0x04C, glfA 0x040, glfA 0x060, glfA 0x064, glfA 0x080, glfA 0x008, sprA 0x040, sprA 0x050, sprA 0x054, sprA 0x068, sprA 0x008] s t ∧
        WinKept s t ∧
        MemKept s t) ∧
  (∀ (s : State) (p k e : Group) (j : Fin 4),
      s.planeState p.val = 0 →
      (List.range 4).find? (fun j => s.slotValid j && decide (s.slotPlane j = p.val)) = some j.val →
      s.regionExists (15 + p.val) = true →
      ∃ t, exec (.planeStallDetect p k e) s = .next t ∧
        t.planeState p.val = 2 ∧
        t.slotValid j.val = false ∧
        t.region (15 + p.val) = (if (List.range 5).any (fun x => decide (x ≠ p.val ∧ s.planeState x = 1)) then 1 else 2) ∧
        (s.b (glfA 0x060) 31 = false → t.rd (glfA 0x060) = word (2 ^ 31 + 2 * 2 ^ 24 + p.val * 2 ^ 16 + k.val * 2 ^ 8 + e.val)) ∧
        (s.b (sprA 0x058) 31 = false → (t.rd (sprA 0x058)).toNat / 2 ^ 16 = 2 ^ 15 + 4 * 2 ^ 8 + 15 + p.val) ∧
        t.rd (glfA 0x080) = word (satAdd 32 (s.rd (glfA 0x080)).toNat 1) ∧
        (∀ x ∈ t.glf.flights, x.plane ≠ p.val) ∧
        t.raised 15 0x3C01 ∧
        t.raised 8 0x2001 ∧
        RegsBut ([glfA 0x048, glfA 0x04C, glfA 0x040, glfA 0x060, glfA 0x064, glfA 0x080, glfA 0x008] ++ (List.range 64).map (fun i => sprA (4 * i)) ++ (List.range 7).map (fun i => bpmA (0x0E0 + 4 * i))) s t ∧
        WinKept s t ∧
        MemKept s t) ∧
  (∀ (s : State) (p k e : Group),
      (s.planeState p.val = 1 ∨ s.planeState p.val = 3) →
      s.regionExists (15 + p.val) = true →
      ∃ t, exec (.planeStallDetect p k e) s = .next t ∧
        t.planeState p.val = 4 ∧
        (s.b (glfA 0x060) 31 = false → t.rd (glfA 0x060) = word (2 ^ 31 + 2 * 2 ^ 24 + p.val * 2 ^ 16 + k.val * 2 ^ 8 + e.val)) ∧
        (s.b (sprA 0x058) 31 = false → (t.rd (sprA 0x058)).toNat / 2 ^ 16 = 2 ^ 15 + 4 * 2 ^ 8 + 15 + p.val) ∧
        t.glf.flights = s.glf.flights ∧
        (∀ x ∈ t.glf.tests, x.1 ≠ p.val) ∧
        t.raised 8 0x2001 ∧
        WinKept s t ∧
        MemKept s t) ∧
  (∀ (s : State) (p k e : Group),
      (s.planeState p.val = 2 ∨ s.planeState p.val = 4) →
      ∃ t, exec (.planeStallDetect p k e) s = .next t ∧
        t.glf = s.glf ∧
        RegsBut [] s t ∧
        FlowKept s t ∧
        WinKept s t ∧
        MemKept s t)

/-- CMD_PLANE_TEST, accepted, puts the plane under test; CMD_PLANE_SWAP, accepted, does so for the lowest empty slot. PLANE_SELF_TEST_DONE of a swap that passes makes the plane active in the slot and counts with event 0x3C02; of a commanded test that passes, with no slot waiting for a spare, makes it spare; one that fails makes it failed under cause 5, captured when nothing was, with event 0x3C04 and ends its test, and in a swap the lowest spare is tried next for the slot; with no test of the plane running nothing changes. Rests on 10_gale_fabric.md (R245, R249, R250, R257, R258). -/
def Obligations.PlanesAreTestedAndSwapped : Prop :=
  (∀ (s : State) (p : Group),
      s.accepts (glfA 0x050) (word (32 + p.val)) →
      ∃ t, exec (.cmdPlaneTest p) s = .next t ∧
        t.planeState p.val = 3 ∧
        t.glf.tests = s.glf.tests ++ [(p.val, none)] ∧
        RegsBut [glfA 0x04C, glfA 0x040] s t ∧
        WinKept s t ∧
        MemKept s t) ∧
  (∀ (s : State) (p : Group) (j : Fin 4),
      s.accepts (glfA 0x050) (word (48 + p.val)) →
      (List.range 4).find? (fun j => !s.slotValid j) = some j.val →
      ∃ t, exec (.cmdPlaneSwap p) s = .next t ∧
        t.planeState p.val = 3 ∧
        t.glf.tests = s.glf.tests ++ [(p.val, some j.val)] ∧
        t.b (glfA 0x040) 8 = true ∧
        RegsBut [glfA 0x04C, glfA 0x040] s t ∧
        WinKept s t ∧
        MemKept s t) ∧
  (∀ (s : State) (p : Group) (j : Fin 4),
      s.glf.tests.find? (fun x => decide (x.1 = p.val)) = some (p.val, some j.val) →
      s.regionDown (15 + p.val) = false →
      ∃ t, exec (.planeSelfTestDone p true) s = .next t ∧
        t.planeState p.val = 0 ∧
        t.slotValid j.val = true ∧
        t.slotPlane j.val = p.val ∧
        t.rd (glfA 0x084) = word (satAdd 32 (s.rd (glfA 0x084)).toNat 1) ∧
        t.raised 15 0x3C02 ∧
        RegsBut [glfA 0x048, glfA 0x04C, glfA 0x040, glfA 0x084, glfA 0x008] s t ∧
        WinKept s t ∧
        MemKept s t) ∧
  (∀ (s : State) (p : Group) (sl : Option Nat),
      s.glf.tests.find? (fun x => decide (x.1 = p.val)) = some (p.val, sl) →
      s.planeState p.val = 3 →
      ∃ t, exec (.planeSelfTestDone p false) s = .next t ∧
        t.planeState p.val = 4 ∧
        (s.b (glfA 0x060) 31 = false → t.rd (glfA 0x060) = word (2 ^ 31 + 5 * 2 ^ 24 + p.val * 2 ^ 16 + 7 * 2 ^ 8 + 7)) ∧
        (∀ x ∈ t.glf.tests, x.1 ≠ p.val) ∧
        t.raised 15 0x3C04 ∧
        RegsBut [glfA 0x04C, glfA 0x040, glfA 0x060, glfA 0x064, glfA 0x008] s t ∧
        WinKept s t ∧
        MemKept s t) ∧
  (∀ (s : State) (p r : Group) (j : Fin 4),
      s.glf.tests = [(p.val, some j.val)] →
      s.planeState p.val = 3 →
      s.sparePlane = some r.val →
      ∃ t, exec (.planeSelfTestDone p false) s = .next t ∧
        t.planeState p.val = 4 ∧
        t.planeState r.val = 3 ∧
        t.glf.tests = [(r.val, some j.val)] ∧
        t.raised 15 0x3C04 ∧
        WinKept s t ∧
        MemKept s t) ∧
  (∀ (s : State) (p : Group),
      s.glf.tests = [(p.val, none)] →
      s.glf.waiting = [] →
      s.regionDown (15 + p.val) = false →
      ∃ t, exec (.planeSelfTestDone p true) s = .next t ∧
        t.planeState p.val = 1 ∧
        t.glf.tests = [] ∧
        RegsBut [glfA 0x04C, glfA 0x040, glfA 0x008] s t ∧
        FlowKept { s with glf := t.glf } t ∧
        WinKept s t ∧
        MemKept s t) ∧
  (∀ (s : State) (p : Group),
      s.glf.tests.find? (fun x => decide (x.1 = p.val)) = none →
      ∃ t, exec (.planeSelfTestDone p true) s = .next t ∧
        t.glf = s.glf ∧
        RegsBut [] s t ∧
        WinKept s t ∧
        MemKept s t)

/-- RSQ_CELL_ARRIVE of a cell within the window that is not held: it is held and acknowledged; a duplicate is counted and acknowledged but not held; a bad header counts an error of the plane and the cell is gone. RSQ_CELL_PASS_OUT of the first cell of a unicast frame without recovery: the cell's slot is free, next advances, and the frame waits for its edit with one copy. GAP_TIMEOUT where the first cell of a frame is lost and its second is held: the loss is captured with event 0x5401 and counted, the frame is discarded, both numbers are passed. Rests on 11_resequencer.md (R260, R261, R262, R263, R264, R275). -/
def Obligations.CellsAreResequenced : Prop :=
  (∀ (s : State) (e k p : Group) (c : Flight) (rest : List Flight),
      s.regionDown (20 + e.val) = false →
      takeFirst (fun x => decide (x.e = e.val ∧ x.k = k.val ∧ x.plane = p.val)) s.glf.flights = some (c, rest) →
      (c.seq + 2 ^ 20 - s.rsqNext e.val k.val) % 2 ^ 20 < 2048 →
      s.isHeld e.val k.val c.seq = false →
      (s.rsq.held.filter (fun x => decide (x.e = e.val))).length < 4096 →
      ∃ t, exec (.rsqCellArrive e k p false) s = .next t ∧
        t.rsq.held = s.rsq.held ++ [({ e := e.val, k := k.val, seq := c.seq, fid := c.fid, idx := c.idx, first := c.first, last := c.last } : HeldCell)] ∧
        t.glf.acks = s.glf.acks ++ [(k.val, e.val, c.seq)] ∧
        t.glf.flights = rest ∧
        RegsBut [rsqA e.val 0x040, rsqA e.val (0x064 + 4 * k.val)] s t ∧
        WinKept s t ∧
        MemKept s t) ∧
  (∀ (s : State) (e k p : Group) (c : Flight) (rest : List Flight),
      s.regionDown (20 + e.val) = false →
      takeFirst (fun x => decide (x.e = e.val ∧ x.k = k.val ∧ x.plane = p.val)) s.glf.flights = some (c, rest) →
      2 ^ 19 ≤ (c.seq + 2 ^ 20 - s.rsqNext e.val k.val) % 2 ^ 20 →
      ∃ t, exec (.rsqCellArrive e k p false) s = .next t ∧
        t.rsq = s.rsq ∧
        t.glf.acks = s.glf.acks ++ [(k.val, e.val, c.seq)] ∧
        t.glf.flights = rest ∧
        t.rd (rsqA e.val 0x080) = word (satAdd 32 (s.rd (rsqA e.val 0x080)).toNat 1) ∧
        RegsBut [rsqA e.val 0x080] s t ∧
        WinKept s t ∧
        MemKept s t) ∧
  (∀ (s : State) (e k p : Group) (c : Flight) (rest : List Flight),
      s.regionDown (20 + e.val) = false →
      takeFirst (fun x => decide (x.e = e.val ∧ x.k = k.val ∧ x.plane = p.val)) s.glf.flights = some (c, rest) →
      (s.glf.errs.filter (fun x => decide (s.clk < x.2 + usec 100) && decide (x.1 = p.val))).length + 1 < s.f (glfA 0x05C) 23 16 →
      ∃ t, exec (.rsqCellArrive e k p true) s = .next t ∧
        t.rsq = s.rsq ∧
        t.glf.acks = s.glf.acks ∧
        t.glf.flights = rest ∧
        t.rd (glfA (0x0A0 + 4 * p.val)) = word (satAdd 32 (s.rd (glfA (0x0A0 + 4 * p.val))).toNat 1) ∧
        RegsBut [glfA (0x0A0 + 4 * p.val)] s t ∧
        WinKept s t ∧
        MemKept s t) ∧
  (∀ (s : State) (e : Group) (k : Nat) (c : HeldCell) (f : Frame),
      s.regionDown (20 + e.val) = false →
      s.regionDown (25 + e.val) = false →
      ((List.range 5).map (fun i => (s.rsq.rr.at 0 e.val + 1 + i) % 5)).find? (fun k => (s.readyCell e.val k).isSome) = some k →
      s.readyCell e.val k = some c →
      c.first = true →
      s.frame c.fid = f →
      s.rsq.dead.contains (e.val, c.fid) = false →
      f.verdict = 0 →
      f.mdGet 0x0F = 0xFFFF →
      f.mdGet 8 = 1 →
      f.mdGet 9 ≠ 64 →
      ∃ t, exec (.rsqCellPassOut e) s = .next t ∧
        t.rsq.held = s.rsq.held.filter (fun x => decide (x ≠ c)) ∧
        t.rsqNext e.val k = (c.seq + 1) % 2 ^ 20 ∧
        t.eframes = s.eframes ++ [({ e := e.val, fid := c.fid, k, order := s.nextId, got := 1, last := c.last, todo := [{ port := f.mdGet 9, queue := some f.queueId }] } : EFrame)] ∧
        t.frames = s.frames ∧
        RegsBut [rsqA e.val (0x050 + 4 * k), rsqA e.val (0x064 + 4 * k), rsqA e.val 0x040, staA 0x428, staA 0x414, staA 0x418, staA 0x41C, staA 0x420] s t ∧
        WinKept s t ∧
        MemKept s t) ∧
  (∀ (s : State) (e k : Group) (n m : Nat) (c : HeldCell) (c0 : SentCell),
      s.regionDown (20 + e.val) = false →
      s.rsqNext e.val k.val = n →
      s.gapNumbers e.val k.val = [n, m] →
      n ≠ m →
      s.heldOf e.val k.val = [c] →
      c.seq = m →
      c.last = false →
      s.sentCell k.val e.val n = some c0 →
      c0.fid = c.fid →
      c0.last = false →
      s.rsq.dead.contains (e.val, c.fid) = false →
      (s.frame c.fid).verdict = 0 →
      s.eframe e.val c.fid = none →
      s.copies.filter (fun x => decide (x.2.fid = c.fid ∧ x.2.e = e.val)) = [] →
      s.b (rsqA e.val 0x048) 31 = false →
      ∃ t, exec (.gapTimeout e k) s = .next t ∧
        t.rd (rsqA e.val 0x048) = word (2 ^ 31 + k.val * 2 ^ 24 + n) ∧
        t.raised (rsqPage e.val) 0x5401 ∧
        t.rsqNext e.val k.val = (m + 1) % 2 ^ 20 ∧
        t.rsq.held = s.rsq.held.filter (fun x => decide (x ≠ c)) ∧
        t.rsq.dead.contains (e.val, c.fid) = true ∧
        t.rd (rsqA e.val 0x084) = word (satAdd 32 (s.rd (rsqA e.val 0x084)).toNat 1) ∧
        t.rd (rsqA e.val 0x088) = word (satAdd 32 (s.rd (rsqA e.val 0x088)).toNat 1) ∧
        t.glf.acks = s.glf.acks ++ [(k.val, e.val, n)] ∧
        WinKept s t ∧
        MemKept s t)

/-- RECOVERY_RESET_TIMEOUT of an enabled instance that is not at take_any sets take_any, keeps its sequence number and history, and counts the reset. RSQ_IND_READ and RSQ_IND_WRITE, accepted, put the target, index and direction into RSQ_IND_CTL and set busy. RSQ_IND_DONE of a read by the host puts the entry into the data registers with err 0 and busy 0; of an unfenced selector write it stores the first two data bytes. Rests on 11_resequencer.md (R266, R269, R272, R273, R274). -/
def Obligations.RecoveryEntriesAreReached : Prop :=
  (∀ (s : State) (e : Group) (i : Fin 1024),
      leAt (s.rsqEnt e.val 1 i.val) 0 1 % 2 = 1 →
      leAt (s.rsqEnt e.val 2 i.val) 2 1 % 2 = 0 →
      ∃ t, exec (.recoveryResetTimeout e i) s = .next t ∧
        t.rsqEnt e.val 2 i.val = stateBytes (leAt (s.rsqEnt e.val 2 i.val) 0 2) true (leAt (s.rsqEnt e.val 2 i.val) 8 8) ∧
        leAt (t.rsqEnt e.val 3 i.val) 20 4 = satAdd 32 (leAt (s.rsqEnt e.val 3 i.val) 20 4) 1 ∧
        t.rsqEnt e.val 1 i.val = s.rsqEnt e.val 1 i.val ∧
        t.rsqEnt e.val 0 i.val = s.rsqEnt e.val 0 i.val ∧
        t.rsq.held = s.rsq.held ∧
        RegsBut [] s t ∧
        WinKept s t ∧
        MemKept s t) ∧
  (∀ (s : State) (e : Group) (tg : Fin 4) (i : BitVec 15),
      s.accepts (rsqA e.val 0x0A0) (word (2 ^ 24 + tg.val * 65536 + i.toNat)) →
      ∃ t, exec (.rsqIndRead e tg i) s = .next t ∧
        t.b (rsqA e.val 0x0A0) 31 = true ∧
        t.b (rsqA e.val 0x0A0) 20 = false ∧
        t.f (rsqA e.val 0x0A0) 17 16 = tg.val ∧
        t.f (rsqA e.val 0x0A0) 14 0 = i.toNat ∧
        t.rsq = s.rsq ∧
        RegsBut [rsqA e.val 0x0A0] s t ∧
        MemKept s t) ∧
  (∀ (s : State) (e : Group) (tg : Fin 4) (i : BitVec 15),
      s.accepts (rsqA e.val 0x0A0) (word (2 ^ 24 + 2 ^ 20 + tg.val * 65536 + i.toNat)) →
      ∃ t, exec (.rsqIndWrite e tg i) s = .next t ∧
        t.b (rsqA e.val 0x0A0) 31 = true ∧
        t.b (rsqA e.val 0x0A0) 20 = true ∧
        t.f (rsqA e.val 0x0A0) 17 16 = tg.val ∧
        t.f (rsqA e.val 0x0A0) 14 0 = i.toNat ∧
        t.rsq = s.rsq ∧
        RegsBut [rsqA e.val 0x0A0] s t ∧
        MemKept s t) ∧
  (∀ (s : State) (e : Group),
      s.b (rsqA e.val 0x0A0) 31 = true →
      s.b (rsqA e.val 0x0A0) 20 = false →
      s.rsq.indBusy.at 0 e.val = 0 →
      s.f (rsqA e.val 0x0A0) 14 0 < rsqCount (s.f (rsqA e.val 0x0A0) 17 16) →
      s.sec.views = [] →
      ∃ t, exec (.rsqIndDone e) s = .next t ∧
        t.rsqData e.val = slice (s.rsqEnt e.val (s.f (rsqA e.val 0x0A0) 17 16) (s.f (rsqA e.val 0x0A0) 14 0)) 0 28 ∧
        t.b (rsqA e.val 0x0A0) 31 = false ∧
        t.f (rsqA e.val 0x0A0) 29 28 = 0 ∧
        t.rsq.ind = s.rsq.ind ∧
        RegsBut (rsqA e.val 0x0A0 :: (List.range 7).map (fun w => rsqA e.val (0x0C0 + 4 * w))) s t ∧
        MemKept s t) ∧
  (∀ (s : State) (e : Group),
      s.b (rsqA e.val 0x0A0) 31 = true →
      s.b (rsqA e.val 0x0A0) 20 = true →
      s.f (rsqA e.val 0x0A0) 17 16 = 0 →
      s.f (rsqA e.val 0x0A0) 14 0 < 20480 →
      rsqBad 0 (s.f (rsqA e.val 0x0A0) 14 0) (s.rsqData e.val) = false →
      s.rsqFenced e.val 0 (s.f (rsqA e.val 0x0A0) 14 0) (s.rsq.indBusy.at 0 e.val) (s.rsqData e.val) = false →
      ∃ t, exec (.rsqIndDone e) s = .next t ∧
        t.rsqEnt e.val 0 (s.f (rsqA e.val 0x0A0) 14 0) = (s.rsqData e.val).take 2 ∧
        t.b (rsqA e.val 0x0A0) 31 = false ∧
        t.f (rsqA e.val 0x0A0) 29 28 = 0 ∧
        RegsBut [rsqA e.val 0x0A0] s t ∧
        MemKept s t)

/-- BPM_ENABLE, the first time and accepted, sizes the stack pools and their reserves, fills the on-chip pools, and every descriptor of the spill region reads fresh while every other byte of HBM stands; BPM_INIT_DONE fills the stack pools and sets ready. FREE_STORE_MOVE moves handles of a pool with fewer than 1,024 cached from its ring. BPM_ADMIT of a frame of one copy whose cells go to its on-chip pool gives the copy a head with its first bytes and enqueues it. BPM_CELL_ALLOC stores the frame's next 256 bytes in a cell linked behind the head. Rests on 12_buffers_and_hbm.md (R278, R280, R282, R283, R284, R285, R288, R291, R296). -/
def Obligations.BuffersAreAdmittedAndFilled : Prop :=
  (∀ (s : State),
      s.b (bpmA 0x044) 0 = false →
      s.accepts (bpmA 0x044) (s.rd (bpmA 0x044) ||| 1) →
      ∃ t, exec (.bpmEnable) s = .next t ∧
        t.b (bpmA 0x044) 0 = true ∧
        (∀ p : Fin 5, t.poolFree p.val = s.poolSize p.val) ∧
        t.poolSize 5 = s.f (bpmA 0x04C) 13 0 * 128 / 17 * 480 ∧
        t.poolSize 6 = s.f (bpmA 0x04C) 13 0 * 128 / 17 * 480 ∧
        t.f (bpmA 0x0F4) 25 0 = t.poolSize 5 / 64 ∧
        t.bpm.cells = [] ∧
        RegsBut ([bpmA 0x044, bpmA 0x094, bpmA 0x098, bpmA 0x0F4, bpmA 0x0F8] ++ (List.range 5).map (fun p => bpmA (0x0A0 + 4 * p))) s t ∧
        WinKept s t ∧
        HostBut 0 0 s t ∧
        SramBut 0 0 s t ∧
        FreshDescs (s.f (bpmA 0x048) 13 0 * 0x200000) (s.f (bpmA 0x04C) 13 0) s t) ∧
  (∀ (s : State),
      s.b (bpmA 0x044) 0 = true →
      s.b (bpmA 0x040) 0 = false →
      ∃ t, exec (.bpmInitDone) s = .next t ∧
        t.b (bpmA 0x040) 0 = true ∧
        t.poolFree 5 = s.poolSize 5 ∧
        t.poolFree 6 = s.poolSize 6 ∧
        t.bpm.cells = s.bpm.cells ∧
        RegsBut [bpmA 0x040, bpmA 0x0B4, bpmA 0x0B8] s t ∧
        WinKept s t ∧
        MemKept s t) ∧
  (∀ (s : State) (p : Fin 7) (x : Pool) (n : Nat),
      s.pool p.val = x →
      x.cache < 1024 →
      min 1024 (s.poolFree p.val - x.cache) = n →
      (∀ i ∈ ((x.back ++ (List.range (x.cache + n - x.back.length)).map (fun i => x.fresh + i)).drop x.cache).take n, s.cellOut (handle p.val i) = false) →
      ∃ t, exec (.freeStoreMove p) s = .next t ∧
        (t.pool p.val).cache = x.cache + n ∧
        t.poolFree p.val = s.poolFree p.val ∧
        t.bpm.cells = s.bpm.cells ∧
        RegsBut [] s t ∧
        WinKept s t ∧
        MemKept s t) ∧
  (∀ (s : State) (e : Group) (x : EFrame) (c : Copy) (q n i : Nat) (rest : List Nat),
      s.critical = false →
      s.oldestE e.val (fun y => y.todo.isEmpty && !y.ready.isEmpty && !y.admitted) = some x →
      s.eframe x.e x.fid = some x →
      x.last = false →
      x.ready = [c.id] →
      s.copy c.id = c →
      c.queue = some q →
      s.qFlag q 0 = true →
      s.chargeOf (s.frame x.fid) = n →
      0 < n →
      s.qCells q + n ≤ s.qLE q 12 4 % 2 ^ 26 →
      s.rd (bpmA (0x200 + 4 * (16 * x.k + (s.frame x.fid).domain))) = 0xFFFF0000 →
      s.placeCells n (s.frame x.fid).prot x.e = some (x.e, false) →
      x.e < 5 →
      x.e = e.val →
      (s.frame x.fid).fcKey = none →
      (s.pool x.e).back = i :: rest →
      0 < (s.pool x.e).cache →
      i < 2 ^ 26 →
      0 < c.head.length →
      ∃ t, exec (.bpmAdmit e) s = .next t ∧
        t.copy c.id = { c with cells := n, headH := some (handle e.val i), headGen := (s.cell (handle e.val i)).gen, queued := true, enq := s.clk } ∧
        t.onQueue q = s.onQueue q ++ [c.id] ∧
        t.qCells q = s.qCells q + n ∧
        (t.cell (handle e.val i)).alloc = true ∧
        t.cellBytes (handle e.val i) = c.head.take 256 ∧
        (t.pool e.val).back = rest ∧
        SramBut (sramAddr (handle e.val i)) 256 s t ∧
        HbmBut 0 0 s t ∧
        RegsOut [0x0E, tmgPage (if c.port < 64 then c.port / 16 else 4)] s t) ∧
  (∀ (s : State) (e : Group) (x : EFrame) (c : Copy) (g i : Nat) (rest : List Nat),
      s.oldestE e.val (fun y => y.admitted && decide (y.alloc - y.copies + 1 < y.got)) = some x →
      s.eframe x.e x.fid = some x →
      x.alloc = x.copies →
      x.alloc = 1 →
      x.last = false →
      x.lastH = none →
      x.ready = [c.id] →
      s.copy c.id = c →
      c.headH = some g →
      (s.cell g).twin = none →
      g < 5 * 2 ^ 29 →
      x.dual = false →
      x.pool = e.val →
      x.resv = 0 →
      x.e = e.val →
      (s.pool e.val).back = i :: rest →
      i < 2 ^ 26 →
      g ≠ handle e.val i →
      256 < (s.frame x.fid).bytes.length →
      ∃ t, exec (.bpmCellAlloc e) s = .next t ∧
        t.copy c.id = { c with tailH := some (handle e.val i), tailGen := (s.cell (handle e.val i)).gen } ∧
        (t.cell g).next = some (handle e.val i) ∧
        (t.cell (handle e.val i)).share = 1 ∧
        t.cellBytes (handle e.val i) = ((s.frame x.fid).bytes.drop 256).take 256 ∧
        t.eframe x.e x.fid = some { x with alloc := 2, tail := some (x.tail.getD (handle e.val i)), lastH := some (handle e.val i) } ∧
        SramBut (sramAddr (handle e.val i)) 256 s t ∧
        HbmBut 0 0 s t ∧
        WinKept s t ∧
        RegsOut [0x0E] s t)

/-- COPY_RELEASE naming the head of a whole copy of one on-chip cell that is not in transmission: the copy is gone and its cell free; a release under another generation than the cell's is counted and captured with event 0x3802, and every copy, cell and pool stands. SWEEP_REQUEST, accepted while none runs, starts a sweep; SWEEP_COMPLETE of a lone on-chip orphan cell, with no further request waiting, frees and counts it, ends the sweep and reports event 0x3803. Rests on 12_buffers_and_hbm.md (R286, R287, R292, R293). -/
def Obligations.CellsAreReleasedAndSwept : Prop :=
  (∀ (s : State) (h gen : Nat) (e : Nat × Copy),
      s.copies.find? (fun e => decide (e.2.headH = some h)) = some e →
      (s.cell h).alloc = true →
      (s.cell h).gen = gen →
      e.2.headGen = gen →
      s.copy e.2.id = e.2 →
      e.2.id ≠ 0 →
      e.2.tailH = none →
      s.inTx e.2.id = false →
      e.2.done = true →
      h < 5 * 2 ^ 29 →
      (s.cell h).twin = none →
      s.eframe e.2.e e.2.fid = none →
      ∃ t, exec (.copyRelease h gen none) s = .next t ∧
        t.copy e.2.id = ({} : Copy) ∧
        (t.cell h).alloc = false ∧
        (t.cell h).gen = (gen + 1) % 4096 ∧
        MemKept s t) ∧
  (∀ (s : State) (h gen : Nat),
      (s.cell h).gen ≠ gen →
      s.b (bpmA 0x104) 31 = false →
      ∃ t, exec (.copyRelease h gen none) s = .next t ∧
        t.rd (bpmA 0x118) = word (satAdd 32 (s.rd (bpmA 0x118)).toNat 1) ∧
        t.b (bpmA 0x104) 31 = true ∧
        t.rd (bpmA 0x108) = word h ∧
        t.raised 14 0x3802 ∧
        t.copies = s.copies ∧
        t.bpm = s.bpm ∧
        RegsBut [bpmA 0x118, bpmA 0x104, bpmA 0x108, bpmA 0x008] s t ∧
        WinKept s t ∧
        MemKept s t) ∧
  (∀ (s : State),
      s.accepts (bpmA 0x044) (s.rd (bpmA 0x044) ||| word 256) →
      s.b (bpmA 0x040) 1 = false →
      ∃ t, exec (.sweepRequest) s = .next t ∧
        t.b (bpmA 0x040) 1 = true ∧
        t.bpm.sweepAt = s.clk ∧
        t.bpm.cells = s.bpm.cells ∧
        RegsBut [bpmA 0x044, bpmA 0x040] s t ∧
        WinKept s t ∧
        MemKept s t) ∧
  (∀ (s : State) (h : Nat),
      s.b (bpmA 0x040) 1 = true →
      s.b (bpmA 0x040) 2 = false →
      s.orphans = [h] →
      h < 5 * 2 ^ 29 →
      (s.cell h).twin = none →
      (s.cell h).fcKey = none →
      ∃ t, exec (.sweepComplete) s = .next t ∧
        (t.cell h).alloc = false ∧
        t.rd (bpmA 0x128) = word (satAdd 32 (s.rd (bpmA 0x128)).toNat 1) ∧
        t.b (bpmA 0x040) 1 = false ∧
        t.raised 14 0x3803 ∧
        t.copies = s.copies ∧
        RegsOut [0x0E] s t ∧
        WinKept s t ∧
        MemKept s t)

/-- HBM_STACK_ENABLE, accepted, sets HBC_CTL.en and HBM_INIT_DONE of an enabled stack sets ready. HBM_REFRESH of a live slot's bank closes its row and issues a refresh. HBM_REQUEST_SERVE takes the next request of a live slot, opens its row, counts one corrected symbol of a read, and freezes the slot on an uncorrectable read (two or more bad symbols), with cause 1, the place and the syndrome captured when nothing was and event 0x6401. STACK_HOT_CHANGE shows the temperature and whether it is 85 degrees or more. Rests on 12_buffers_and_hbm.md (R294, R295, R297, R298, R307). -/
def Obligations.HbmStacksServe : Prop :=
  (∀ (s : State) (k : Fin 2),
      s.accepts (hbcA k.val 0x044) 1 →
      ∃ t, exec (.hbmStackEnable k) s = .next t ∧
        t.b (hbcA k.val 0x044) 0 = true ∧
        t.bpm = s.bpm ∧
        RegsBut [hbcA k.val 0x044] s t ∧
        WinKept s t ∧
        MemKept s t) ∧
  (∀ (s : State) (k : Fin 2),
      s.b (hbcA k.val 0x044) 0 = true →
      ∃ t, exec (.hbmInitDone k) s = .next t ∧
        t.b (hbcA k.val 0x040) 0 = true ∧
        t.bpm = s.bpm ∧
        RegsBut [hbcA k.val 0x040] s t ∧
        WinKept s t ∧
        MemKept s t) ∧
  (∀ (s : State) (u b : Fin 64),
      s.slotLive u.val = true →
      ∃ t, exec (.hbmRefresh u b) s = .next t ∧
        t.bpm.openRow.at 0 (u.val * 64 + b.val) = 0 ∧
        (t.bpm.cmds.at [] u.val).head? = some (5 * 2 ^ 28 + b.val * 2 ^ 16) ∧
        t.bpm.hbmQ = s.bpm.hbmQ ∧
        RegsBut [] s t ∧
        WinKept s t ∧
        MemKept s t) ∧
  (∀ (s : State) (u : Fin 64) (r : HbmReq) (rest : List HbmReq) (bad : Nat) (synd : Word),
      s.slotLive u.val = true →
      s.nextRequest u.val = some (r, rest) →
      (r.write = true ∨ bad = 0) →
      ∃ t, exec (.hbmRequestServe u bad synd) s = .next t ∧
        t.hbmQueue u.val = rest ∧
        t.bpm.openRow.at 0 (u.val * 64 + s.hbmBank r.addr) = hbmRow r.addr + 1 ∧
        t.bpm.cells = s.bpm.cells ∧
        RegsBut [] s t ∧
        WinKept s t ∧
        MemKept s t) ∧
  (∀ (s : State) (u : Fin 64) (r : HbmReq) (rest : List HbmReq) (synd : Word),
      s.slotLive u.val = true →
      s.nextRequest u.val = some (r, rest) →
      r.write = false →
      ∃ t, exec (.hbmRequestServe u 1 synd) s = .next t ∧
        t.hbmQueue u.val = rest ∧
        t.rd (hbcA (u.val / 32) (0x100 + 4 * (u.val % 32))) = word (satAdd 32 (s.rd (hbcA (u.val / 32) (0x100 + 4 * (u.val % 32)))).toNat 1) ∧
        t.slotFrozen u.val = false ∧
        RegsBut [hbcA (u.val / 32) (0x100 + 4 * (u.val % 32)), hbcA (u.val / 32) 0x008, sprA 0x008, sprA 0x040, sprA 0x050, sprA 0x054, sprA 0x068] s t ∧
        WinKept s t ∧
        MemKept s t) ∧
  (∀ (s : State) (u : Fin 64) (r : HbmReq) (rest : List HbmReq) (bad : Nat) (synd : Word),
      s.slotLive u.val = true →
      s.nextRequest u.val = some (r, rest) →
      r.write = false →
      2 ≤ bad →
      s.b (hbcA (u.val / 32) (0x180 + 4 * (u.val % 32))) 31 = false →
      ∃ t, exec (.hbmRequestServe u bad synd) s = .next t ∧
        t.slotFrozen u.val = true ∧
        t.hbmQueue u.val = [] ∧
        t.rd (hbcA (u.val / 32) (0x180 + 4 * (u.val % 32))) = word (2 ^ 31 + 2 ^ 24 + min 64 rest.length) ∧
        t.rd (hbcA (u.val / 32) (0x200 + 4 * (u.val % 32))) = word (hbmRow r.addr * 2 ^ 16 + s.hbmBank r.addr * 256 + hbmCol r.addr) ∧
        t.rd (hbcA (u.val / 32) (0x280 + 4 * (u.val % 32))) = synd ∧
        t.raised (hbcPage (u.val / 32)) 0x6401 ∧
        WinKept s t ∧
        HostBut 0 0 s t ∧
        SramBut 0 0 s t) ∧
  (∀ (s : State) (k : Fin 2) (temp : BitVec 8),
      ∃ t, exec (.stackHotChange k temp) s = .next t ∧
        t.f (hbcA k.val 0x040) 15 8 = temp.toNat ∧
        t.b (hbcA k.val 0x040) 16 = decide (85 ≤ temp.toInt) ∧
        RegsBut [hbcA k.val 0x040] s t ∧
        WinKept s t ∧
        MemKept s t)

/-- PC_FREEZE of a live slot by a cause (1 to 3) freezes it, discards its queued requests, captures the cause and their number when nothing was captured, and reports event 0x6401. HBC_PPR_CMD, accepted, starts a row repair and PPR_COMPLETE ends it with its result (1 to 3) and event 0x6405. SLOT_RESUME of a drained slot, accepted, and SPARE_PC_TEST_DONE with a pass, which also maps the slot to the spare, clear its frozen and drained bits, make its region good, return its retired handles to the pool's size and report event 0x6404; a spare whose test fails leaves the slot frozen and its handles retired. Rests on 12_buffers_and_hbm.md (R297, R299, R301, R302); 21_spares_and_faults.md (R487, R494, R497). -/
def Obligations.HbmSlotsFreezeAndReturn : Prop :=
  (∀ (s : State) (u : Fin 64) (kind : Fin 4) (a : Nat) (synd : Word),
      s.slotLive u.val = true →
      kind.val ≠ 0 →
      s.b (hbcA (u.val / 32) (0x180 + 4 * (u.val % 32))) 31 = false →
      ∃ t, exec (.pcFreeze u kind a synd) s = .next t ∧
        t.slotFrozen u.val = true ∧
        t.hbmQueue u.val = [] ∧
        t.rd (hbcA (u.val / 32) (0x180 + 4 * (u.val % 32))) = word (2 ^ 31 + kind.val * 2 ^ 24 + min 64 (s.hbmQueue u.val).length) ∧
        t.raised (hbcPage (u.val / 32)) 0x6401 ∧
        RegsOut [hbcPage (u.val / 32), 0x08, 0x0E] s t ∧
        WinKept s t ∧
        HostBut 0 0 s t ∧
        SramBut 0 0 s t) ∧
  (∀ (s : State) (k : Fin 2) (pc : Fin 32) (bank : Fin 64) (row : BitVec 13),
      s.accepts (hbcA k.val 0x074) (word (row.toNat * 2 ^ 16 + bank.val * 256 + pc.val)) →
      ∃ t, exec (.hbcPprCmd k pc bank row) s = .next t ∧
        t.rd (hbcA k.val 0x078) = word (2 ^ 31) ∧
        t.bpm = { s.bpm with pprArg := s.bpm.pprArg.put 0 k.val (row.toNat * 2 ^ 16 + bank.val * 256 + pc.val + 1) } ∧
        RegsBut [hbcA k.val 0x074, hbcA k.val 0x078] s t ∧
        WinKept s t ∧
        MemKept s t) ∧
  (∀ (s : State) (k : Fin 2) (result : Fin 4),
      s.b (hbcA k.val 0x078) 31 = true →
      result.val ≠ 0 →
      ∃ t, exec (.pprComplete k result) s = .next t ∧
        t.rd (hbcA k.val 0x078) = word result.val ∧
        t.raised (hbcPage k.val) 0x6405 ∧
        RegsBut [hbcA k.val 0x078, hbcA k.val 0x008] s t ∧
        WinKept s t ∧
        MemKept s t) ∧
  (∀ (s : State) (u : Fin 64),
      s.accepts (hbcA (u.val / 32) 0x070) (word (256 + u.val % 32)) →
      s.b (hbcA (u.val / 32) 0x06C) (u.val % 32) = true →
      ∃ t, exec (.slotResume u) s = .next t ∧
        t.slotFrozen u.val = false ∧
        t.b (hbcA (u.val / 32) 0x06C) (u.val % 32) = false ∧
        t.region (64 + u.val) = 0 ∧
        t.bpm.retired = s.bpm.retired.filter (fun h => decide (cellSlot h ≠ u.val)) ∧
        t.poolSize (5 + u.val / 32) = (s.poolSize (5 + u.val / 32) + (s.bpm.retired.filter (fun h => decide (cellSlot h = u.val))).length) % 2 ^ 26 ∧
        t.raised (hbcPage (u.val / 32)) 0x6404 ∧
        RegsOut [hbcPage (u.val / 32), 0x08, 0x0E] s t ∧
        WinKept s t ∧
        HostBut 0 0 s t ∧
        SramBut 0 0 s t) ∧
  (∀ (s : State) (u : Fin 64) (pc : Nat),
      s.bpm.testSpare.at 0 u.val = pc + 1 →
      ∃ t, exec (.sparePcTestDone u true) s = .next t ∧
        t.f (hbcA (u.val / 32) (0x080 + 4 * (u.val % 32 / 4))) (8 * (u.val % 32 % 4) + 7) (8 * (u.val % 32 % 4)) = (128 + pc) % 256 ∧
        t.bpm.testSpare.at 0 u.val = 0 ∧
        t.slotFrozen u.val = false ∧
        t.b (hbcA (u.val / 32) 0x06C) (u.val % 32) = false ∧
        t.region (64 + u.val) = 0 ∧
        t.bpm.retired = s.bpm.retired.filter (fun h => decide (cellSlot h ≠ u.val)) ∧
        t.poolSize (5 + u.val / 32) = (s.poolSize (5 + u.val / 32) + (s.bpm.retired.filter (fun h => decide (cellSlot h = u.val))).length) % 2 ^ 26 ∧
        t.raised (hbcPage (u.val / 32)) 0x6404 ∧
        RegsOut [hbcPage (u.val / 32), 0x08, 0x0E] s t ∧
        WinKept s t ∧
        HostBut 0 0 s t ∧
        SramBut 0 0 s t) ∧
  (∀ (s : State) (u : Fin 64) (pc : Nat),
      s.bpm.testSpare.at 0 u.val = pc + 1 →
      ∃ t, exec (.sparePcTestDone u false) s = .next t ∧
        t.bpm.testSpare.at 0 u.val = 0 ∧
        t.slotFrozen u.val = s.slotFrozen u.val ∧
        t.bpm.retired = s.bpm.retired ∧
        t.bpm.cells = s.bpm.cells ∧
        RegsOut [hbcPage (u.val / 32), 0x08, 0x0E] s t ∧
        WinKept s t ∧
        MemKept s t)

/-- TMG_SELECT with nothing held: the copy that the selection rules choose once expired and unfitting heads are dropped is held for the port and class. TX_COPY_START of a selected copy whose first cell is good, at ports 65 to 67 when the crossing can take a copy, at a front port when the MAC may send, MACsec is off and the length is within MAC_MAX_LEN: the copy starts and leaves its queue; a suspended frame of a front port goes on as a new fragment when it may. TX_COPY_END hands a whole copy of one good cell at port 65 to the island; at a front port without MACsec, PTP correction or a timestamp request it leaves on the wire, padded to 60 bytes and with its FCS, and a cut-through copy that runs dry leaves with the inverse of its FCS. RESIDENCY_VISIT of a queue whose head is within its limit leaves it, and the head's age reads on; a head beyond its limit is dropped with 0x16, counted, and captured and logged when it is the first. SAMPLE_ROUND_START samples each sampled queue once, or counts a late start. Rests on 13_traffic_manager.md (R314, R315, R319, R320, R321, R323, R326, R327); 15_time_gates.md (R358). -/
def Obligations.CopiesAreSelectedAndSent : Prop :=
  (∀ (s : State) (p : AnyPort) (ex : Bool) (x : TxSel),
      p.val ≠ 64 →
      s.portStopped p.val = false →
      (s.tmg.sel.at {} (2 * p.val + b2n (!ex))).copy = 0 →
      (s.prunePort p.val).choose p.val ex = some x →
      ((s.prunePort p.val).copyChain ((s.prunePort p.val).copy x.copy)).1 = none →
      ∃ t, exec (.tmgSelect p ex) s = .next t ∧
        t.tmg.sel.at {} (2 * p.val + b2n (!ex)) = x ∧
        t.tmg.queues = (s.prunePort p.val).tmg.queues ∧
        t.copies = (s.prunePort p.val).copies ∧
        RegsBut [bpmA 0x11C] (s.prunePort p.val) t ∧
        WinKept (s.prunePort p.val) t ∧
        MemKept (s.prunePort p.val) t) ∧
  (∀ (s : State) (p : AnyPort) (x y : TxSel) (c : Copy) (upset : Option (Nat × Word)),
      65 ≤ p.val →
      s.portStopped p.val = false →
      s.tx p.val = none →
      s.crossingFree p.val = true →
      s.withdrawStale p.val = s →
      s.tmg.sel.at {} (2 * p.val) = x →
      x.copy ≠ 0 →
      s.choose p.val true = some y →
      x.rank ≤ y.rank →
      s.copy x.copy = c →
      c.id = x.copy →
      c.queued = true →
      c.queue = some x.queue →
      s.firstFault upset 0 ((s.copyCells c).take 1) = none →
      ∃ t, exec (.txCopyStart p true upset) s = .next t ∧
        (t.tx p.val).map (fun (z : TxState) => (z.copy, z.express, z.cut, z.since)) = some (x.copy, true, !c.done, s.clk) ∧
        (t.tmg.sel.at {} (2 * p.val)).copy = 0 ∧
        (t.copy x.copy).queued = false ∧
        t.onQueue x.queue = (s.onQueue x.queue).filter (fun i => decide (i ≠ x.copy)) ∧
        RegsOut [tmgPage 4, tmgPage (c.port / 16), mirPage] s t ∧
        MemKept s t) ∧
  (∀ (s : State) (p : Port) (ex : Bool) (x y : TxSel) (c : Copy) (upset : Option (Nat × Word)),
      s.portStopped p.val = false →
      (s.mac p.val).ctlOut = [] →
      s.b (macA p.val 0x040) 1 = true →
      s.tx p.val = none →
      (ex = true ∨ s.suspended p.val = none) →
      s.withdrawStale p.val = s →
      s.tmg.sel.at {} (2 * p.val + b2n (!ex)) = x →
      x.copy ≠ 0 →
      s.choose p.val ex = some y →
      (x.rank ≤ y.rank ∨ y.queue / 8 % 8 = x.queue / 8 % 8) →
      s.copy x.copy = c →
      c.id = x.copy →
      c.done = true →
      c.queued = true →
      c.queue = some x.queue →
      s.b (mscA (p.val / 4) (0x060 + 4 * (p.val % 4))) 0 = false →
      max 64 (s.copyLen x.copy) ≤ s.f (macA p.val 0x044) 13 0 →
      s.firstFault upset 0 ((s.copyCells c).take 1) = none →
      ∃ t, exec (.txCopyStart p.castSucc.castSucc.castSucc.castSucc ex upset) s = .next t ∧
        (t.tx p.val).map (fun (z : TxState) => (z.copy, z.express, z.cut, z.since)) = some (x.copy, ex, false, s.clk) ∧
        (t.tmg.sel.at {} (2 * p.val + b2n (!ex))).copy = 0 ∧
        (t.copy x.copy).queued = false ∧
        t.onQueue x.queue = (s.onQueue x.queue).filter (fun i => decide (i ≠ x.copy)) ∧
        RegsOut [tmgPage (p.val / 16), tmgPage (c.port / 16), mirPage] s t ∧
        MemKept s t) ∧
  (∀ (s : State) (p : Port) (z : TxState) (upset : Option (Nat × Word)),
      s.portStopped p.val = false →
      (s.mac p.val).ctlOut = [] →
      s.tx p.val = none →
      s.suspended p.val = some z →
      s.b (macA p.val 0x048) 1 = false →
      s.b (macA p.val 0x048) (8 + (s.copy z.copy).group) = false →
      s.gateOpen p.val (s.copy z.copy).group = true →
      s.fitsNow p.val (s.copy z.copy).group (s.copyLen z.copy - z.sent) = true →
      ∃ t, exec (.txCopyStart p.castSucc.castSucc.castSucc.castSucc false upset) s = .next t ∧
        t.tx p.val = some { z with since := s.clk, frags := z.frags + 1 } ∧
        t.suspended p.val = none ∧
        RegsBut [] s t ∧
        WinKept s t ∧
        MemKept s t) ∧
  (∀ (s : State) (z : TxState) (c : Copy) (h : Nat) (upset : Option (Nat × Word)),
      s.tx 65 = some z →
      s.copy z.copy = c →
      c.id = z.copy →
      c.done = true →
      c.headH = some h →
      c.tailH = none →
      h < 5 * 2 ^ 29 →
      s.copyCells c = [h] →
      s.firstFault upset 0 (s.copyCells c) = none →
      ∃ t, exec (.txCopyEnd 65 upset false) s = .next t ∧
        t.tx 65 = none ∧
        t.isl.inbox = s.isl.inbox ++ [s.copyBytes c] ∧
        t.copy z.copy = ({} : Copy) ∧
        MemKept s t) ∧
  (∀ (s : State) (p : Port) (z : TxState) (c : Copy) (h : Nat) (upset : Option (Nat × Word)),
      s.tx p.val = some z →
      z.stomp = false →
      z.cut = false →
      z.prot = none →
      s.copy z.copy = c →
      c.id = z.copy →
      c.done = true →
      c.headH = some h →
      c.tailH = none →
      h < 5 * 2 ^ 29 →
      s.copyCells c = [h] →
      (s.frame c.fid).tsReq = none →
      s.f (tsuA 0x280) 5 0 = 0 →
      s.portLoop p.val = 0 →
      ∃ t, exec (.txCopyEnd p.castSucc.castSucc.castSucc.castSucc upset false) s = .next t ∧
        t.tx p.val = none ∧
        t.out = s.out ++ [Out.frame p.val (s.copyBytes c ++ List.replicate (60 - (s.copyBytes c).length) 0 ++ leBytes 4 (crc32 (s.copyBytes c ++ List.replicate (60 - (s.copyBytes c).length) 0))) false] ∧
        t.copy z.copy = ({} : Copy) ∧
        MemKept s t) ∧
  (∀ (s : State) (p : Port) (z : TxState) (c : Copy) (upset : Option (Nat × Word)),
      s.tx p.val = some z →
      z.stomp = false →
      z.cut = true →
      z.prot = none →
      s.copy z.copy = c →
      c.id = z.copy →
      c.done = false →
      s.f (tsuA 0x280) 5 0 = 0 →
      s.portLoop p.val = 0 →
      ∃ t, exec (.txCopyEnd p.castSucc.castSucc.castSucc.castSucc upset true) s = .next t ∧
        t.tx p.val = none ∧
        t.out = s.out ++ [Out.frame p.val (s.copyBytes c ++ leBytes 4 (2 ^ 32 - 1 - crc32 (s.copyBytes c))) true] ∧
        t.copy z.copy = ({} : Copy) ∧
        MemKept s t) ∧
  (∀ (s : State) (q : Fin 5120) (cid : Nat),
      s.regionDown (53 + tmgOf (q.val / 64)) = false →
      (q.val / 64 ≠ 64 ∧ q.val / 64 < 68) →
      (s.onQueue q.val).head? = some cid →
      s.tooOld q.val (s.copy cid) = false →
      s.noFit (q.val / 64) (q.val / 8 % 8) cid = false →
      (s.tmg.sel.at {} (2 * (q.val / 64))).copy = 0 →
      (s.tmg.sel.at {} (2 * (q.val / 64) + 1)).copy = 0 →
      ∃ t, exec (.residencyVisit q) s = .next t ∧
        t.headAge q.val = min ((s.clk - (s.copy cid).enq) / 250) (2 ^ 20 - 1) ∧
        t.tmg = s.tmg ∧
        t.copies = s.copies ∧
        WinKept s t ∧
        RegsBut [] s t ∧
        MemKept s t) ∧
  (∀ (s : State) (q : Fin 5120) (c : Copy) (rest : List Nat),
      s.regionDown (53 + tmgOf (q.val / 64)) = false →
      (q.val / 64 ≠ 64 ∧ q.val / 64 < 68) →
      s.onQueue q.val = c.id :: rest →
      s.copy c.id = c →
      c.queue = some q.val →
      s.tooOld q.val c = true →
      (∀ i ∈ rest.head?, s.tooOld q.val (s.copy i) = false ∧ s.noFit (q.val / 64) (q.val / 8 % 8) i = false) →
      s.b (tmgA (tmgOf (q.val / 64)) 0x04C) 31 = false →
      (s.tmg.sel.at {} (2 * (q.val / 64))).copy = 0 →
      (s.tmg.sel.at {} (2 * (q.val / 64) + 1)).copy = 0 →
      ∃ t, exec (.residencyVisit q) s = .next t ∧
        t.onQueue q.val = rest.filter (fun i => decide (i ≠ c.id)) ∧
        t.copy c.id = ({} : Copy) ∧
        t.rd (tmgA (tmgOf (q.val / 64)) 0x050) = word (satAdd 32 (s.rd (tmgA (tmgOf (q.val / 64)) 0x050)).toNat 1) ∧
        (t.rd (tmgA (tmgOf (q.val / 64)) 0x04C)).toNat = (2 ^ 31 + c.domain * 2 ^ 24 + c.version * 2 ^ 20 + q.val) % 2 ^ 32 ∧
        t.b (tmgA (tmgOf (q.val / 64)) 0x008) 0 = true ∧
        t.raised (tmgPage (tmgOf (q.val / 64))) 0x5801 ∧
        MemKept s t) ∧
  (∀ (s : State) (e : Group),
      s.b (tmgA e.val 0x044) 31 = true →
      s.regionDown (53 + e.val) = false →
      ∃ t, exec (.sampleRoundStart e true) s = .next t ∧
        t.rd (tmgA e.val 0x05C) = word (satAdd 32 (s.rd (tmgA e.val 0x05C)).toNat 1) ∧
        t.b (tmgA e.val 0x040) 0 = true ∧
        t.raised (tmgPage e.val) 0x5803 ∧
        t.tmg = s.tmg ∧
        RegsBut [tmgA e.val 0x05C, tmgA e.val 0x040, tmgA e.val 0x008] s t ∧
        WinKept s t ∧
        MemKept s t) ∧
  (∀ (s : State) (e : Group) (q : Nat),
      s.b (tmgA e.val 0x044) 31 = true →
      s.regionDown (53 + e.val) = false →
      (((s.win.filter (fun x => decide (0x2000000 ≤ x.1 ∧ x.1 < 0x2044000 ∧ x.1 % 64 = 0 ∧ bitsOf x.2.toNat 1 1 = 1))).map (fun x => (x.1 - 0x2000000) / 64)).filter (fun q => decide (tmgOf (q / 64) = e.val))) = [q] →
      ∃ t, exec (.sampleRoundStart e false) s = .next t ∧
        (t.tmg.samples.at {} q).n = (s.tmg.samples.at {} q).n + 1 ∧
        (t.tmg.samples.at {} q).cells = addSample (decide ((s.tmg.samples.at {} q).n = 0)) (s.tmg.samples.at {} q).cells (s.qCells q) ∧
        t.tmg.queues = s.tmg.queues ∧
        RegsBut [] s t ∧
        WinKept s t ∧
        MemKept s t)

/-- SHAPER_REFILL of a group with one shaped queue and no staged setting or selection adds the queue's increments to its buckets up to 256 times the bursts. FC_REPEAT_TIMER at a port in pause mode with its state asserted queues one more pause frame of the configured quanta, when the MAC may send it, and counts it. Rests on 13_traffic_manager.md (R311, R313, R315, R325). -/
def Obligations.ShapersRefillAndPauseRepeats : Prop :=
  (∀ (s : State) (e : Group) (q : Nat) (c : List Byte),
      s.regionDown (53 + e.val) = false →
      s.tmg.qShp = [(q, c)] →
      c ≠ [] →
      s.tmg.gShp = [] →
      s.tmg.sel = [] →
      tmgOf (q / 64) = e.val →
      (∀ x ∈ s.win, (0x2000000 ≤ x.1 ∧ x.1 < 0x2044000 → x.1 % 64 ≠ 32) ∧ (0x2100000 ≤ x.1 ∧ x.1 < 0x2104400 → x.1 % 32 ≠ 0)) →
      q < 5120 →
      leAt c 8 4 % 2 ^ 24 < 2 ^ 23 →
      leAt c 12 4 % 2 ^ 24 < 2 ^ 23 →
      ∃ t, exec (.shaperRefill e) s = .next t ∧
        t.bucket (qA q + 44) = min ((256 * (leAt c 8 4 % 2 ^ 24) : Nat) : Int) (s.bucket (qA q + 44) + ((leAt c 0 4 % 2 ^ 24 : Nat) : Int)) ∧
        t.bucket (qA q + 48) = min ((256 * (leAt c 12 4 % 2 ^ 24) : Nat) : Int) (s.bucket (qA q + 48) + ((leAt c 4 4 % 2 ^ 24 : Nat) : Int)) ∧
        t.tmg = s.tmg ∧
        WinBut (qA q + 44) 8 s t ∧
        RegsBut [] s t ∧
        MemKept s t) ∧
  (∀ (s : State) (p : Port),
      s.f (tmgA (p.val / 16) (0x200 + 4 * (p.val % 16))) 1 0 = 1 →
      s.f (tmgA (p.val / 16) (0x240 + 4 * (p.val % 16))) 7 0 ≠ 0 →
      s.b (macA p.val 0x054) 2 = true →
      ∃ t, exec (.fcRepeatTimer p) s = .next t ∧
        (t.mac p.val).ctlOut.length = (s.mac p.val).ctlOut.length + 1 ∧
        (t.mac p.val).ctlOut.getLast?.map (fun b => (beAt b 0 6, beAt b 12 2, beAt b 14 2, beAt b 16 2, b.length)) = some (0x0180C2000001, 0x8808, 1, s.f (tmgA (p.val / 16) (0x200 + 4 * (p.val % 16))) 31 16, 64) ∧
        t.rd (tmgA (p.val / 16) 0x058) = word (satAdd 32 (s.rd (tmgA (p.val / 16) 0x058)).toNat 1) ∧
        RegsBut [tmgA (p.val / 16) 0x058] s t ∧
        WinKept s t ∧
        MemKept s t)

/-- TB_SET and TB_STEP, accepted, on a base that no gate list uses: the base takes the set time or is moved by the step, its epoch rises, event 0x1001 waits, the other bases stand. TB_SNAPSHOT latches the selected bases. TXTS_POP and PIN_EVENT_POP remove the oldest stamp. PIN_PULSE_RISE and PIN_PULSE_FALL drive an output pin to the level of its sense; PIN_INPUT_EDGE of at least 16 ns stamps an edge that is enabled in the pin's sense (inverted or not). TS_PLL_LOCK_LOST clears lock with event 0x1002. Rests on 14_time_sync.md (R332, R334, R335, R339, R342, R343, R345, R346). -/
def Obligations.TimeBasesAreCommanded : Prop :=
  (∀ (s : State) (b : Tb),
      s.accepts (tbA b.val 0x18) 1 →
      s.tgs.act.filter (fun e => decide (e.2.tb = b.val)) = [] →
      s.tgs.pend.filter (fun e => decide (e.2.tb = b.val)) = [] →
      ∃ t, exec (.tbSet b) s = .next t ∧
        t.tb b.val = ({ sec := s.f (tbA b.val 0x08) 15 0 * 2 ^ 32 + (s.rd (tbA b.val 0x0C)).toNat, ns := (s.rd (tbA b.val 0x10)).toNat, frac := 0, epoch := ((s.tb b.val).epoch + 1) % 16 } : TimeBase) ∧
        (∀ c : Fin 4, c ≠ b → t.tb c.val = s.tb c.val) ∧
        t.raised 4 0x1001 ∧
        FlowKept s t ∧
        RegsBut [tsuA 0x008] s t ∧
        WinKept s t ∧
        MemKept s t) ∧
  (∀ (s : State) (b : Tb),
      s.accepts (tbA b.val 0x18) 2 →
      s.tgs.act.filter (fun e => decide (e.2.tb = b.val)) = [] →
      s.tgs.pend.filter (fun e => decide (e.2.tb = b.val)) = [] →
      ∃ t, exec (.tbStep b) s = .next t ∧
        t.tb b.val = { (s.tb b.val).addNs (toSigned 32 (s.rd (tbA b.val 0x14)).toNat) with epoch := ((s.tb b.val).epoch + 1) % 16 } ∧
        (∀ c : Fin 4, c ≠ b → t.tb c.val = s.tb c.val) ∧
        t.raised 4 0x1001 ∧
        FlowKept s t ∧
        RegsBut [tsuA 0x008] s t ∧
        WinKept s t ∧
        MemKept s t) ∧
  (∀ (s : State) (bases : BitVec 4),
      s.accepts (tsuA 0x044) (word bases.toNat) →
      ∃ t, exec (.tbSnapshot bases) s = .next t ∧
        (∀ b : Fin 4, bitsOf bases.toNat b.val b.val = 1 → t.rd (tbA b.val 0x20) = word (s.tb b.val).sec) ∧
        (∀ b : Fin 4, bitsOf bases.toNat b.val b.val = 1 → t.rd (tbA b.val 0x24) = word (s.tb b.val).ns) ∧
        (∀ b : Fin 4, bitsOf bases.toNat b.val b.val = 1 → t.rd (tbA b.val 0x28) = word ((s.tb b.val).epoch * 65536 + (s.tb b.val).frac / 65536)) ∧
        t.tsu = s.tsu ∧
        RegsBut ((List.range 4).flatMap (fun b => [tbA b 0x1C, tbA b 0x20, tbA b 0x24, tbA b 0x28])) s t ∧
        WinKept s t ∧
        MemKept s t) ∧
  (∀ (s : State) (p : Port),
      s.accepts (tsuA (0x400 + 16 * p.val)) (word (2 ^ 31)) →
      ∃ t, exec (.txtsPop p) s = .next t ∧
        t.tsu.txts.at [] p.val = (s.tsu.txts.at [] p.val).drop 1 ∧
        t.b (tsuA (0x400 + 16 * p.val)) 31 = !((s.tsu.txts.at [] p.val).drop 1).isEmpty ∧
        t.tsu.tb = s.tsu.tb ∧
        RegsBut ((List.range 4).map (fun i => tsuA (0x400 + 16 * p.val + 4 * i))) s t ∧
        WinKept s t ∧
        MemKept s t) ∧
  (∀ (s : State) (n : Tb),
      s.accepts (pinA n.val 0x18) (word (2 ^ 31)) →
      ∃ t, exec (.pinEventPop n) s = .next t ∧
        t.tsu.pinEv.at [] n.val = (s.tsu.pinEv.at [] n.val).drop 1 ∧
        t.b (pinA n.val 0x18) 31 = !((s.tsu.pinEv.at [] n.val).drop 1).isEmpty ∧
        RegsBut [pinA n.val 0x10, pinA n.val 0x14, pinA n.val 0x18] s t ∧
        WinKept s t ∧
        MemKept s t) ∧
  (∀ (s : State) (n : Tb),
      s.alive = true →
      s.pinMode n.val = 1 →
      s.tsu.pinHigh.at false n.val = false →
      s.pinSince n.val < 5 →
      s.tsu.landed.at 0 (s.pinTb n.val) + s.pinSince n.val ≤ (s.tb (s.pinTb n.val)).total →
      ∃ t, exec (.pinPulseRise n) s = .next t ∧
        t.tsu.pinHigh.at false n.val = true ∧
        t.out = s.out ++ [Out.pin n.val (!bit (s.fw (pinA n.val 0)) 12)] ∧
        t.tsu.tb = s.tsu.tb ∧
        RegsBut [] s t ∧
        WinKept s t ∧
        MemKept s t) ∧
  (∀ (s : State) (n : Tb),
      s.alive = true →
      s.tsu.pinHigh.at false n.val = true →
      (((s.ff (pinA n.val 0x0C) 29 0 / 8 * 8 : Nat) : Int) ≤ (((s.tb (s.pinTb n.val)).sec : Int) - ((s.tsu.pinRose.at ({} : TimeBase) n.val).sec : Int)) * 1000000000 + ((s.tb (s.pinTb n.val)).ns : Int) - ((s.tsu.pinRose.at ({} : TimeBase) n.val).ns : Int)) →
      ∃ t, exec (.pinPulseFall n) s = .next t ∧
        t.tsu.pinHigh.at false n.val = false ∧
        t.out = s.out ++ [Out.pin n.val (bit (s.fw (pinA n.val 0)) 12)] ∧
        t.tsu.tb = s.tsu.tb ∧
        RegsBut [] s t ∧
        WinKept s t ∧
        MemKept s t) ∧
  (∀ (s : State) (n : Tb) (falling : Bool) (width : Nat),
      s.alive = true →
      s.pinMode n.val = 2 →
      bit (s.fw (pinA n.val 0)) (if falling = bit (s.fw (pinA n.val 0)) 12 then 8 else 9) = true →
      16 ≤ width →
      (s.tsu.pinEv.at [] n.val).length < 16 →
      s.b (mirA 0x058) 4 = false →
      ∃ t, exec (.pinInputEdge n falling width) s = .next t ∧
        t.tsu.pinEv.at [] n.val = s.tsu.pinEv.at [] n.val ++ [({ ns := (s.tb (s.pinTb n.val)).ns, sec := (s.tb (s.pinTb n.val)).sec % 2 ^ 32, epoch := (s.tb (s.pinTb n.val)).epoch, falling := falling != bit (s.fw (pinA n.val 0)) 12, ovf := s.tsu.pinLost.at false n.val } : PinStamp)] ∧
        t.b (pinA n.val 0x18) 31 = true ∧
        t.tsu.tb = s.tsu.tb ∧
        RegsBut [pinA n.val 0x10, pinA n.val 0x14, pinA n.val 0x18, tsuA 0x008] s t ∧
        WinKept s t ∧
        MemKept s t) ∧
  (∀ (s : State),
      s.b (tsuA 0x040) 0 = true →
      ∃ t, exec (.tsPllLockLost) s = .next t ∧
        t.b (tsuA 0x040) 0 = false ∧
        t.raised 4 0x1002 ∧
        t.tsu = s.tsu ∧
        RegsBut [tsuA 0x040, tsuA 0x008] s t ∧
        WinKept s t ∧
        MemKept s t)

/-- GCL_COMMIT, accepted, of a valid list whose base is at least 2 microseconds ahead makes it pending. GCL_TAKEOVER once its start has come makes it active with its first entry's gates and event 0x5C04. GATE_ENTRY_BOUNDARY puts the entry of the present time into force. GCL_CANCEL before the start discards the pending list and leaves the active one. GATE_ENGINE_DISABLE discards both and the gates take TGS_ADMIN. Rests on 15_time_gates.md (R348, R350, R351, R352, R353, R354, R356). -/
def Obligations.GateListsRun : Prop :=
  (∀ (s : State) (p : Port),
      s.accepts (tgsPortA p.val 0) (s.rd (tgsPortA p.val 0) ||| word 256) →
      s.listBad p.val (s.readList p.val) = false →
      s.nowNs (s.readList p.val).tb + 2000 ≤ (s.readList p.val).base →
      ∃ t, exec (.gclCommit p) s = .next t ∧
        t.gPend p.val = s.readList p.val ∧
        t.gAct p.val = s.gAct p.val ∧
        t.f (tgsPortA p.val 0x18) 5 4 = 1 ∧
        t.b (tgsPortA p.val 0) 8 = false ∧
        FlowKept s t ∧
        RegsBut [tgsPortA p.val 0, tgsPortA p.val 0x18, tgsA (p.val / 16) 0x040] s t ∧
        WinKept s t ∧
        MemKept s t) ∧
  (∀ (s : State) (p : Port) (i a d st op : Nat),
      (s.gPend p.val).live = true →
      (s.gPend p.val).start ≤ s.nowNs (s.gPend p.val).tb →
      s.regionDown 61 = false →
      (s.gPend p.val).segs.head? = some (i, a, d, st, op) →
      st < 256 →
      s.tx p.val = none →
      ∃ t, exec (.gclTakeover p) s = .next t ∧
        t.gAct p.val = { s.gPend p.val with seen := (((s.gPend p.val).start : Int) - (s.gPend p.val).base) / (s.gPend p.val).cycle } ∧
        t.gPend p.val = ({} : GList) ∧
        t.f (tgsPortA p.val 0x18) 15 8 = st ∧
        t.raised (tgsPage (p.val / 16)) 0x5C04 ∧
        RegsBut [tgsPortA p.val 0x18, tgsPortA p.val 0x1C, tgsA (p.val / 16) 0x040, tgsA (p.val / 16) 0x008] s t ∧
        WinKept s t ∧
        MemKept s t) ∧
  (∀ (s : State) (p : Port),
      s.accepts (tgsPortA p.val 0) (s.rd (tgsPortA p.val 0) ||| word 512) →
      s.nowNs (s.gPend p.val).tb < (s.gPend p.val).start →
      ∃ t, exec (.gclCancel p) s = .next t ∧
        t.gPend p.val = ({} : GList) ∧
        t.gAct p.val = s.gAct p.val ∧
        FlowKept s t ∧
        RegsBut [tgsPortA p.val 0, tgsPortA p.val 0x18, tgsA (p.val / 16) 0x040] s t ∧
        WinKept s t ∧
        MemKept s t) ∧
  (∀ (s : State) (p : Port) (n : Int) (x i a d st op : Nat),
      s.regionDown 61 = false →
      (s.gAct p.val).live = true →
      (s.gAct p.val).place (s.nowNs (s.gAct p.val).tb) = (n, x) →
      ((s.gAct p.val).segs.take ((s.gAct p.val).begun x)).getLast? = some (i, a, d, st, op) →
      st < 256 →
      i < 2048 →
      s.tx p.val = none →
      ∃ t, exec (.gateEntryBoundary p) s = .next t ∧
        t.gAct p.val = { s.gAct p.val with seen := n } ∧
        t.gPend p.val = s.gPend p.val ∧
        t.f (tgsPortA p.val 0x18) 15 8 = st ∧
        t.f (tgsPortA p.val 0x18) 26 16 = i ∧
        RegsBut [tgsPortA p.val 0x18, tgsPortA p.val 0x1C, tgsA (p.val / 16) 0x040] s t ∧
        WinKept s t ∧
        MemKept s t) ∧
  (∀ (s : State) (p : Port),
      s.accepts (tgsPortA p.val 0) (setBit (s.rd (tgsPortA p.val 0)) 0 false) →
      s.tx p.val = none →
      ∃ t, exec (.gateEngineDisable p) s = .next t ∧
        t.gAct p.val = ({} : GList) ∧
        t.gPend p.val = ({} : GList) ∧
        t.f (tgsPortA p.val 0x18) 15 8 = s.f (tgsPortA p.val 0x14) 7 0 ∧
        RegsBut [tgsPortA p.val 0, tgsPortA p.val 0x18, tgsA (p.val / 16) 0x040] s t ∧
        WinKept s t ∧
        MemKept s t)

/-- HOST_TX_FETCH of a one-descriptor frame that passes the checks and fits in staging: the frame enters staging 4 from port 64 with its bytes and FCS, its descriptor is marked done, head advances. HOST_RX_DELIVER of a whole one-cell copy that fits one buffer: its bytes and descriptor stand in host memory, head advances, the copy is gone. COUNTER_CLEAR_WRITE, accepted, sets the counters that the mask names to 0 and changes nothing else. Rests on 03_host_and_registers.md (R73, R74, R75, R78, R79, R80); 18_statistics_counters.md (R407, R411). -/
def Obligations.HostFramesAreTransferred : Prop :=
  (∀ (s : State) (r : Fin 1024) (d : List Byte) (early : Bool),
      s.ringDma (1024 + r.val) = true →
      s.quiesced = false →
      s.ringEmpty (1024 + r.val) = false →
      s.txDescs (1024 + r.val) (s.ringFree (1024 + r.val)) 0 [] = some ([d], early) →
      txBad (s.ringFlag (1024 + r.val) 2) early [d] = 0 →
      60 ≤ leAt d 8 2 →
      leAt d 8 2 ≤ 15996 →
      s.stageFits 4 0 (leAt d 8 2 + 4) = true →
      s.ringLog2 (1024 + r.val) ≤ 16 →
      ∃ t, exec (.hostTxFetch r) s = .next t ∧
        (t.frame s.nextId).bytes = s.hostRd (leAt d 0 8) (leAt d 8 2) ++ leBytes 4 (crc32 (s.hostRd (leAt d 0 8) (leAt d 8 2))) ∧
        (t.frame s.nextId).src = 64 ∧
        (t.frame s.nextId).domain = s.ringDomain (1024 + r.val) ∧
        (t.frame s.nextId).place = Place.staged ∧
        t.nextId = s.nextId + 1 ∧
        t.ringHead (1024 + r.val) = (s.ringHead (1024 + r.val) + 1) % s.ringSize (1024 + r.val) ∧
        leAt (t.hostRd (s.descAddr (1024 + r.val) 0) 32) 10 1 % 2 = 1 ∧
        HostBut (s.descAddr (1024 + r.val) 0 + 10) 1 s t ∧
        HbmBut 0 0 s t ∧
        WinBut (ringA (1024 + r.val)) 32 s t ∧
        RegsBut [glfA (0x068 + 16)] s t) ∧
  (∀ (s : State) (r : Fin 1024) (c : Copy) (h : Nat) (upset : Option (Nat × Word)),
      (s.onQueue (8192 + r.val)).head? = some c.id →
      s.copy c.id = c →
      c.done = true →
      c.queue = none →
      c.ring = r.val →
      c.queued = true →
      c.headH = some h →
      c.tailH = none →
      h < 5 * 2 ^ 29 →
      (s.cell h).twin = none →
      s.copyCells c = [h] →
      s.firstFault upset 0 (s.copyCells c) = none →
      s.ringDma r.val = true →
      0 < s.ringFree r.val →
      s.ringFlag r.val 3 = false →
      0 < (s.copyBytes c).length →
      (s.copyBytes c).length ≤ s.ringBuf r.val →
      s.ringLog2 r.val ≤ 16 →
      (leVal (s.hostRd (s.descAddr r.val 0) 8) + (s.copyBytes c).length ≤ s.descAddr r.val 0 ∨ s.descAddr r.val 0 + 32 ≤ leVal (s.hostRd (s.descAddr r.val 0) 8)) →
      ∃ t, exec (.hostRxDeliver r upset) s = .next t ∧
        t.hostRd (leVal (s.hostRd (s.descAddr r.val 0) 8)) (s.copyBytes c).length = s.copyBytes c ∧
        leAt (t.hostRd (s.descAddr r.val 0) 32) 8 2 = (s.copyBytes c).length ∧
        leAt (t.hostRd (s.descAddr r.val 0) 32) 10 1 % 8 = 7 ∧
        t.ringHead r.val = (s.ringHead r.val + 1) % s.ringSize r.val ∧
        t.copy c.id = ({} : Copy) ∧
        HbmBut 0 0 s t ∧
        SramBut 0 0 s t) ∧
  (∀ (s : State) (page i base : Nat) (b : Blk) (off : BitVec 11) (mask : Word),
      pageOf page = some (b, i) →
      clearBase b off.toNat = some base →
      isPosted b off.toNat = false →
      (b ≠ Blk.sds ∧ b ≠ Blk.glf) →
      s.accepts (page * 0x1000 + off.toNat) mask →
      ∃ t, exec (.counterClearWrite page off mask) s = .next t ∧
        (∀ n : Fin 32, bitsOf mask.toNat n.val n.val = 1 → t.rd (page * 0x1000 + base + 4 * n.val) = 0) ∧
        RegsBut (((List.range 32).filter (fun n => decide (bitsOf mask.toNat n n = 1))).map (fun n => page * 0x1000 + base + 4 * n)) s t ∧
        FlowKept s t ∧
        WinKept s t ∧
        MemKept s t)

/-- FRONT_TIMED_INJECT at an instant that is due with no front in flight starts one at the grid instant, and with one in flight skips the instant with event 0x2404. FRONT_SOFTWARE_INJECT, accepted, starts one now. FRONT_PASS_BLOCK marks a block passed and brings its selection into force. FRONT_COMPLETE with every block passed makes the latch readable and numbers the period. FRONT_LATE reports once. STA_ENABLE_CHANGE stores the settings. BW_WINDOW_END keeps a window's octets and the peak. Rests on 18_statistics_counters.md (R402, R403, R404, R405, R406, R408, R413); 01_architecture.md (R32). -/
def Obligations.FrontsDivideThePeriods : Prop :=
  (∀ (s : State),
      s.alive = true →
      s.b (staA 0x044) 31 = true →
      s.b (staA 0x040) 2 = false →
      (match s.sta.after with | some n => decide (s.gridInstant.total ≤ n) | none => false) = false →
      s.b (staA 0x040) 0 = false →
      ∃ t, exec (.frontTimedInject) s = .next t ∧
        t.b (staA 0x040) 0 = true ∧
        t.b (staA 0x040) 1 = s.b (staA 0x044) 17 ∧
        t.sta.frontTb = s.gridInstant ∧
        t.sta.passed = [] ∧
        t.sta.soft = false ∧
        FlowKept s t ∧
        RegsBut [staA 0x040] s t ∧
        WinKept s t ∧
        MemKept s t) ∧
  (∀ (s : State),
      s.alive = true →
      s.b (staA 0x044) 31 = true →
      s.b (staA 0x040) 2 = false →
      (match s.sta.after with | some n => decide (s.gridInstant.total ≤ n) | none => false) = false →
      s.b (staA 0x040) 0 = true →
      ∃ t, exec (.frontTimedInject) s = .next t ∧
        t.sta.skipped = min 255 (s.sta.skipped + 1) ∧
        t.sta.passed = s.sta.passed ∧
        t.raised 9 0x2404 ∧
        FlowKept s t ∧
        RegsBut [] s t ∧
        WinKept s t ∧
        MemKept s t) ∧
  (∀ (s : State),
      s.accepts (staA 0x048) 1 →
      ∃ t, exec (.frontSoftwareInject) s = .next t ∧
        t.b (staA 0x040) 0 = true ∧
        t.sta.frontTb = s.tb 0 ∧
        t.sta.soft = true ∧
        FlowKept s t ∧
        RegsBut [staA 0x040] s t ∧
        WinKept s t ∧
        MemKept s t) ∧
  (∀ (s : State) (p : Fin 176),
      s.alive = true →
      s.b (staA 0x040) 0 = true →
      s.sta.passed.contains p.val = false →
      allPages.contains p.val = true →
      s.frontReady p.val = true →
      ∃ t, exec (.frontPassBlock p) s = .next t ∧
        t.sta.passed = p.val :: s.sta.passed ∧
        t.fw (p.val * 0x1000 + 0x1C) = s.rd (p.val * 0x1000 + 0x1C) ∧
        t.frames = s.frames ∧
        t.copies = s.copies ∧
        RegsBut [p.val * 0x1000 + 0x040] s t ∧
        WinKept s t ∧
        MemKept s t) ∧
  (∀ (s : State),
      s.b (staA 0x040) 0 = true →
      allPages.any (fun p => !s.sta.passed.contains p) = false →
      ∃ t, exec (.frontComplete) s = .next t ∧
        t.b (staA 0x040) 0 = false ∧
        t.sta.bank = s.newBank ∧
        t.rd (staA 0x04C) = word ((s.rd (staA 0x04C)).toNat + 1) ∧
        t.rd (staA 0x050) = word s.sta.frontTb.ns ∧
        t.rd (staA 0x054) = word s.sta.frontTb.sec ∧
        FlowKept s t ∧
        RegsBut [staA 0x040, staA 0x04C, staA 0x050, staA 0x054, staA 0x058, staA 0x05C, staA 0x404, staA 0x42C, pmcA 0x008, pmcA 0x040, pmcA 0x044, pmcA 0x04C] s t ∧
        WinKept s t ∧
        MemKept s t) ∧
  (∀ (s : State),
      s.b (staA 0x040) 0 = true →
      s.sta.lateSaid = false →
      ∃ t, exec (.frontLate) s = .next t ∧
        t.sta.lateSaid = true ∧
        t.raised 9 0x2403 ∧
        FlowKept s t ∧
        RegsBut [] s t ∧
        WinKept s t ∧
        MemKept s t) ∧
  (∀ (s : State) (en mode src : Bool) (period : BitVec 16),
      s.accepts (staA 0x044) (word (b2n en * 2 ^ 31 + b2n mode * 2 ^ 17 + b2n src * 2 ^ 16 + period.toNat)) →
      ∃ t, exec (.staEnableChange en mode src period) s = .next t ∧
        t.b (staA 0x044) 31 = en ∧
        t.b (staA 0x044) 17 = mode ∧
        t.b (staA 0x044) 16 = src ∧
        t.f (staA 0x044) 15 0 = period.toNat ∧
        (s.b (staA 0x044) 31 = false → en = true → t.b (staA 0x040) 1 = mode) ∧
        FlowKept s t ∧
        RegsBut [staA 0x044, staA 0x040] s t ∧
        WinKept s t ∧
        MemKept s t) ∧
  (∀ (s : State) (p : AnyPort) (tx : Bool),
      s.alive = true →
      ∃ t, exec (.bwWindowEnd p tx) s = .next t ∧
        (t.sta.bwPk.at (0, 0) (2 * p.val + b2n tx)).2 = (if tx then s.sta.bwTx.at 0 p.val else s.sta.bwRx.at 0 p.val) ∧
        (t.sta.bwPk.at (0, 0) (2 * p.val + b2n tx)).1 = max (s.sta.bwPk.at (0, 0) (2 * p.val + b2n tx)).1 (if tx then s.sta.bwTx.at 0 p.val else s.sta.bwRx.at 0 p.val) ∧
        t.sta.bank = s.sta.bank ∧
        FlowKept s t ∧
        RegsBut [] s t ∧
        WinKept s t ∧
        MemKept s t)

/-- LEDGER_AUDIT of a cut in which every account balances counts an audit and no fault; with one account off, and no capture held, the fault is counted and captured with event 0x2410. LEDGER_UNFREEZE clears frozen. PMC_STOP_REQUEST sets pending, PMC_RESUME clears stopped. CAPTURE_RECORD_WRITE puts the next record of an untriggered session at its ring index with its sequence number and advances it. CAPTURE_UNFREEZE clears frozen. Rests on 17_integrity_ledger.md (R389, R390, R391, R393, R394, R398); 18_statistics_counters.md (R419); 16_capture.md (R370, R371, R372, R376, R377). -/
def Obligations.LedgerIsAuditedAndCountersStop : Prop :=
  (∀ (s : State),
      s.b (staA 0x404) 1 = true →
      s.regionDown 34 = false →
      s.alive = true →
      s.sta.first = false →
      s.auditFaults = [] →
      s.b (staA 0x400) 2 = false →
      ∃ t, exec (.ledgerAudit) s = .next t ∧
        t.rd (staA 0x424) = word (satAdd 32 (s.rd (staA 0x424)).toNat 1) ∧
        t.b (staA 0x404) 1 = false ∧
        t.sta.resPrev = s.sta.resCut ∧
        FlowKept s t ∧
        RegsBut [staA 0x424, staA 0x404] s t ∧
        WinKept s t ∧
        MemKept s t) ∧
  (∀ (s : State) (x : Nat × Nat × Int),
      s.b (staA 0x404) 1 = true →
      s.regionDown 34 = false →
      s.alive = true →
      s.sta.first = false →
      s.auditFaults = [x] →
      s.b (staA 0x400) 2 = false →
      s.b (staA 0x414) 31 = false →
      ∃ t, exec (.ledgerAudit) s = .next t ∧
        t.rd (staA 0x424) = word (satAdd 32 (s.rd (staA 0x424)).toNat 1) ∧
        t.rd (staA 0x428) = word (satAdd 32 (s.rd (staA 0x428)).toNat 1) ∧
        t.rd (staA 0x414) = word (2 ^ 31 + x.1 * 2 ^ 24 + x.2.1 % 2 ^ 20) ∧
        t.rd (staA 0x41C) = word (fromSigned 48 x.2.2) ∧
        t.raised 9 0x2410 ∧
        t.sta.resPrev = s.sta.resCut ∧
        FlowKept s t ∧
        RegsBut [staA 0x424, staA 0x404, staA 0x414, staA 0x418, staA 0x41C, staA 0x420, staA 0x428] s t ∧
        WinKept s t ∧
        MemKept s t) ∧
  (∀ (s : State),
      s.accepts (staA 0x404) 4 →
      ∃ t, exec (.ledgerUnfreeze) s = .next t ∧
        t.b (staA 0x404) 2 = false ∧
        FlowKept s t ∧
        RegsBut [staA 0x404] s t ∧
        WinKept s t ∧
        MemKept s t) ∧
  (∀ (s : State),
      s.accepts (pmcA 0x044) (s.rd (pmcA 0x044) ||| word 256) →
      s.b (pmcA 0x040) 1 = false →
      s.b (pmcA 0x040) 0 = false →
      s.sta.pmcHeld = [] →
      ∃ t, exec (.pmcStopRequest) s = .next t ∧
        t.b (pmcA 0x040) 1 = true ∧
        t.b (pmcA 0x044) 8 = true ∧
        FlowKept s t ∧
        RegsBut [pmcA 0x040, pmcA 0x044] s t ∧
        WinKept s t ∧
        MemKept s t) ∧
  (∀ (s : State),
      s.accepts (pmcA 0x040) 1 →
      ∃ t, exec (.pmcResume) s = .next t ∧
        t.b (pmcA 0x040) 0 = false ∧
        t.sta.pmcHeld = s.sta.pmcHeld ∧
        FlowKept s t ∧
        RegsBut [pmcA 0x040] s t ∧
        WinKept s t ∧
        MemKept s t) ∧
  (∀ (s : State) (k : Nat) (r : CapRec) (rest : List CapRec),
      s.alive = true →
      s.b (mirA 0x044) 0 = true →
      s.b (mirA 0x040) 0 = false →
      s.b (mirA 0x040) 1 = false →
      s.regionDown 33 = false →
      s.capSize ≠ 0 →
      s.capNext = some k →
      s.mir.queues.at [] k = r :: rest →
      r.trig = false →
      s.mir.post = none →
      (s.capPlace ((s.rd (mirA 0x050)).toNat % s.capSize)).any (fun x => s.hbmBad x.2) = false →
      ∃ t, exec (.captureRecordWrite) s = .next t ∧
        t.mir.queues.at [] k = rest ∧
        t.rd (mirA 0x050) = word ((s.rd (mirA 0x050)).toNat + 1) ∧
        t.rd (mirA 0x080) = word (satAdd 32 (s.rd (mirA 0x080)).toNat 1) ∧
        (∀ x ∈ s.capPlace ((s.rd (mirA 0x050)).toNat % s.capSize), t.hbmRd x.2 1 = [(capSeal r.bytes (s.rd (mirA 0x050)).toNat).getD x.1 0]) ∧
        HbmBut (s.f (mirA 0x048) 13 0 * 0x200000 + (s.rd (mirA 0x050)).toNat % s.capSize / 80 * 0x4000) 0x4000 s t ∧
        HostBut 0 0 s t ∧
        SramBut 0 0 s t ∧
        FlowKept s t ∧
        RegsBut [mirA 0x050, mirA 0x080, mirA 0x040, mirA 0x008] s t ∧
        WinKept s t) ∧
  (∀ (s : State),
      s.accepts (mirA 0x040) 1 →
      ∃ t, exec (.captureUnfreeze) s = .next t ∧
        t.b (mirA 0x040) 0 = false ∧
        t.mir = s.mir ∧
        FlowKept s t ∧
        RegsBut [mirA 0x040, mirA 0x008] s t ∧
        WinKept s t ∧
        MemKept s t)

/-- REGION_STALL_TIMEOUT on any region that runs (a pipeline not halted by the debug port), CLOCK_LOSS_HELD on a domain whose loss bit is set and whose first region runs, and SPR_CMD_DECLARE, accepted, on any region: the region is no longer good, the declaration is counted and event 0x2001 waits; when no capture was held it is captured with its cause and region, a stall's with its stage or crossing. On a table, learning, capture or ledger region (31 to 34), which holds no frames, and for the recorder's domain, the region becomes isolated and lost, and frames in the device, windows and memory stand. Rests on 21_spares_and_faults.md (R486, R487, R490, R500, R501, R503); 02_self_timed_core.md (R39). -/
def Obligations.RegionsAreDeclared : Prop :=
  (∀ (s : State) (r : Fin 128) (a : BitVec 8),
      31 ≤ r.val ∧ r.val ≤ 34 →
      s.regionRuns r.val = true →
      s.b (sprA 0x044) 0 = true →
      s.b (sprA 0x058) 31 = false →
      ∃ t, exec (.regionStallTimeout r a) s = .next t ∧
        t.region r.val = 2 ∧
        t.rd (sprA 0x058) = word (2 ^ 31 + 1 * 2 ^ 24 + r.val * 2 ^ 16) ∧
        t.f (sprA 0x05C) 7 0 = a.toNat ∧
        t.rd (sprA 0x060) = word (satAdd 32 (s.rd (sprA 0x060)).toNat 1) ∧
        t.raised 8 0x2001 ∧
        FlowKept s t ∧
        RegsOut [0x08, 0x0E] s t ∧
        WinKept s t ∧
        MemKept s t) ∧
  (∀ (s : State) (r : Fin 128) (a : BitVec 8),
      s.regionRuns r.val = true →
      (r.val < 5 → s.halted r.val = false) →
      s.b (sprA 0x044) 0 = true →
      ∃ t, exec (.regionStallTimeout r a) s = .next t ∧
        t.region r.val ≠ 0 ∧
        (s.b (sprA 0x058) 31 = false → (t.rd (sprA 0x058)).toNat / 2 ^ 16 = 2 ^ 15 + 1 * 2 ^ 8 + r.val) ∧
        (s.b (sprA 0x058) 31 = false → t.f (sprA 0x05C) 7 0 = a.toNat) ∧
        satAdd 32 (s.rd (sprA 0x060)).toNat 1 ≤ (t.rd (sprA 0x060)).toNat ∧
        t.raised 8 0x2001) ∧
  (∀ (s : State),
      s.b (clkA (0x220 + 4 * 6)) 13 = true →
      s.regionRuns 60 = true →
      s.b (sprA 0x044) 0 = true →
      s.b (sprA 0x058) 31 = false →
      ∃ t, exec (.clockLossHeld 205) s = .next t ∧
        t.region 60 = 2 ∧
        t.rd (sprA 0x058) = word (2 ^ 31 + 2 * 2 ^ 24 + 60 * 2 ^ 16) ∧
        t.rd (sprA 0x060) = word (satAdd 32 (s.rd (sprA 0x060)).toNat 1) ∧
        t.raised 8 0x2001 ∧
        FlowKept s t ∧
        RegsOut [0x08, 0x0E] s t ∧
        WinKept s t ∧
        MemKept s t) ∧
  (∀ (s : State) (n : Fin 212) (r : Nat) (rest : List Nat),
      s.b (clkA (0x220 + 4 * (n.val / 32))) (n.val % 32) = true →
      s.domRegions n.val = r :: rest →
      s.regionRuns r = true →
      s.b (sprA 0x044) 0 = true →
      ∃ t, exec (.clockLossHeld n) s = .next t ∧
        t.region r ≠ 0 ∧
        (s.b (sprA 0x058) 31 = false → (t.rd (sprA 0x058)).toNat / 2 ^ 16 = 2 ^ 15 + 2 * 2 ^ 8 + r) ∧
        satAdd 32 (s.rd (sprA 0x060)).toNat 1 ≤ (t.rd (sprA 0x060)).toNat ∧
        t.raised 8 0x2001) ∧
  (∀ (s : State) (r : Fin 128),
      s.accepts (sprA 0x04C) (word (r.val * 256 + 1)) →
      ∃ t, exec (.sprCmdDeclare r) s = .next t ∧
        t.region r.val ≠ 0 ∧
        (s.b (sprA 0x058) 31 = false → (t.rd (sprA 0x058)).toNat / 2 ^ 16 = 2 ^ 15 + 5 * 2 ^ 8 + r.val) ∧
        satAdd 32 (s.rd (sprA 0x060)).toNat 1 ≤ (t.rd (sprA 0x060)).toNat ∧
        t.raised 8 0x2001) ∧
  (∀ (s : State) (r : Fin 128),
      31 ≤ r.val ∧ r.val ≤ 34 →
      s.accepts (sprA 0x04C) (word (r.val * 256 + 1)) →
      s.b (sprA 0x058) 31 = false →
      ∃ t, exec (.sprCmdDeclare r) s = .next t ∧
        t.region r.val = 2 ∧
        t.rd (sprA 0x058) = word (2 ^ 31 + 5 * 2 ^ 24 + r.val * 2 ^ 16) ∧
        t.rd (sprA 0x060) = word (satAdd 32 (s.rd (sprA 0x060)).toNat 1) ∧
        t.raised 8 0x2001 ∧
        FlowKept s t ∧
        RegsOut [0x08, 0x0E] s t ∧
        WinKept s t ∧
        MemKept s t)

/-- SPR_CMD_TEST and SPR_CMD_RETIRE, accepted, append their request when the kind's policy allows it, it is not queued already and fewer than 16 wait. SPR_CMD_APPROVE marks the head approved; SPR_CMD_DENY and APPROVAL_TIMEOUT remove it, count the refusal and report event 0x2005. REPAIR_START of a head that may run, with none running: a region test puts its region under test, a spare row of a macro with rows left runs, and one of a macro without is refused with event 0x2005. REPAIR_COMPLETE with a pass makes the tested region good (a spare row: counts it in use), reports event 0x2004 and counts the repair (the count may rise by more, since a fault reserve released with it is a repair too); a test that fails is refused with event 0x2005 and declares its region under cause 6; a spare row that fails is refused. Rests on 21_spares_and_faults.md (R491, R492, R493, R494, R499, R502, R503). -/
def Obligations.RepairsAreQueuedAndRun : Prop :=
  (∀ (s : State) (r : Fin 128) (k : Nat),
      s.accepts (sprA 0x04C) (word (r.val * 256 + 2)) →
      k = (if 15 ≤ r.val ∧ r.val < 20 then 1 else 0) →
      s.f (sprA 0x048) (2 * k + 1) (2 * k) ≠ 2 →
      s.spr.queue.any (fun x => decide (x.kind = k ∧ x.region = r.val ∧ x.arg = 0)) = false →
      s.spr.queue.length < 16 →
      ∃ t, exec (.sprCmdTest r) s = .next t ∧
        t.spr.queue = s.spr.queue ++ [({ kind := k, region := r.val, arg := 0, pol := s.f (sprA 0x048) (2 * k + 1) (2 * k), limit := s.f (sprA 0x044) 31 16 } : RepReq)] ∧
        FlowKept s t ∧
        RegsOut [0x08] s t ∧
        WinKept s t ∧
        MemKept s t) ∧
  (∀ (s : State) (u : Fin 64),
      s.accepts (sprA 0x04C) (word ((64 + u.val) * 256 + 5)) →
      s.f (sprA 0x048) 15 14 ≠ 2 →
      s.spr.queue.any (fun x => decide (x.kind = 7 ∧ x.region = 64 + u.val ∧ x.arg = u.val)) = false →
      s.spr.queue.length < 16 →
      ∃ t, exec (.sprCmdRetire u) s = .next t ∧
        t.spr.queue = s.spr.queue ++ [({ kind := 7, region := 64 + u.val, arg := u.val, pol := s.f (sprA 0x048) 15 14, limit := s.f (sprA 0x044) 31 16 } : RepReq)] ∧
        FlowKept s t ∧
        RegsOut [0x08] s t ∧
        WinKept s t ∧
        MemKept s t) ∧
  (∀ (s : State) (r : RepReq) (rest : List RepReq),
      s.accepts (sprA 0x04C) (word 3) →
      s.spr.queue = r :: rest →
      ∃ t, exec (.sprCmdApprove) s = .next t ∧
        t.spr.queue = { r with ok := true } :: rest ∧
        t.f (sprA 0x050) 30 28 = 0 ∧
        FlowKept s t ∧
        RegsOut [0x08] s t ∧
        WinKept s t ∧
        MemKept s t) ∧
  (∀ (s : State) (r : RepReq) (rest : List RepReq),
      s.accepts (sprA 0x04C) (word 4) →
      s.spr.queue = r :: rest →
      ∃ t, exec (.sprCmdDeny) s = .next t ∧
        t.spr.queue = rest ∧
        t.rd (sprA 0x068) = word (satAdd 32 (s.rd (sprA 0x068)).toNat 1) ∧
        t.raised 8 0x2005 ∧
        FlowKept s t ∧
        RegsOut [0x08] s t ∧
        WinKept s t ∧
        MemKept s t) ∧
  (∀ (s : State) (r : RepReq) (rest : List RepReq),
      s.headAsks = true →
      s.spr.queue = r :: rest →
      ∃ t, exec (.approvalTimeout) s = .next t ∧
        t.spr.queue = rest ∧
        t.rd (sprA 0x06C) = word (satAdd 32 (s.rd (sprA 0x06C)).toNat 1) ∧
        t.rd (sprA 0x068) = word (satAdd 32 (s.rd (sprA 0x068)).toNat 1) ∧
        t.raised 8 0x2005 ∧
        FlowKept s t ∧
        RegsOut [0x08] s t ∧
        WinKept s t ∧
        MemKept s t) ∧
  (∀ (s : State) (r : RepReq) (rest : List RepReq),
      s.spr.queue = r :: rest →
      s.b (sprA 0x040) 8 = false →
      (r.pol = 1 → r.ok = true) →
      (r.pol = 0 → s.b (sprA 0x044) 0 = true) →
      r.kind = 0 →
      r.region < 128 →
      ∃ t, exec (.repairStart) s = .next t ∧
        t.region r.region = 3 ∧
        t.b (sprA 0x040) 8 = true ∧
        t.f (sprA 0x050) 30 28 = 3 ∧
        t.spr.queue = s.spr.queue ∧
        FlowKept s t ∧
        RegsOut [0x08] s t ∧
        WinKept s t ∧
        MemKept s t) ∧
  (∀ (s : State) (r : RepReq) (rest : List RepReq),
      s.spr.queue = r :: rest →
      s.b (sprA 0x040) 8 = false →
      (r.pol = 1 → r.ok = true) →
      (r.pol = 0 → s.b (sprA 0x044) 0 = true) →
      r.kind = 4 →
      s.spr.rows.at 0 (r.arg / 4096) < 8 →
      ∃ t, exec (.repairStart) s = .next t ∧
        t.b (sprA 0x040) 8 = true ∧
        t.f (sprA 0x050) 30 28 = 3 ∧
        t.rd (sprA 0x054) = word r.arg ∧
        t.spr = s.spr ∧
        FlowKept s t ∧
        RegsOut [0x08] s t ∧
        WinKept s t ∧
        MemKept s t) ∧
  (∀ (s : State) (r : RepReq) (rest : List RepReq),
      s.spr.queue = r :: rest →
      s.b (sprA 0x040) 8 = false →
      (r.pol = 1 → r.ok = true) →
      (r.pol = 0 → s.b (sprA 0x044) 0 = true) →
      r.kind = 4 →
      s.spr.rows.at 0 (r.arg / 4096) = 8 →
      ∃ t, exec (.repairStart) s = .next t ∧
        t.spr.queue = rest ∧
        t.rd (sprA 0x068) = word (satAdd 32 (s.rd (sprA 0x068)).toNat 1) ∧
        t.raised 8 0x2005 ∧
        FlowKept s t ∧
        RegsOut [0x08] s t ∧
        WinKept s t ∧
        MemKept s t) ∧
  (∀ (s : State) (r : RepReq) (rest : List RepReq),
      s.spr.queue = r :: rest →
      s.b (sprA 0x040) 8 = true →
      r.kind = 0 →
      5 ≤ r.region ∧ r.region < 64 →
      ∃ t, exec (.repairComplete true) s = .next t ∧
        t.region r.region = 0 ∧
        satAdd 32 (s.rd (sprA 0x064)).toNat 1 ≤ (t.rd (sprA 0x064)).toNat ∧
        t.raised 8 0x2004 ∧
        FlowKept s t ∧
        RegsOut [0x08, 0x0E] s t ∧
        WinKept s t ∧
        MemKept s t) ∧
  (∀ (s : State) (r : RepReq) (rest : List RepReq),
      s.spr.queue = r :: rest →
      s.b (sprA 0x040) 8 = true →
      r.kind = 0 →
      s.regionExists r.region = true →
      ∃ t, exec (.repairComplete false) s = .next t ∧
        t.region r.region ≠ 0 ∧
        t.rd (sprA 0x068) ≠ 0 ∧
        (s.b (sprA 0x058) 31 = false → (t.rd (sprA 0x058)).toNat / 2 ^ 16 = 2 ^ 15 + 6 * 2 ^ 8 + r.region) ∧
        t.raised 8 0x2005 ∧
        t.raised 8 0x2001) ∧
  (∀ (s : State) (r : RepReq) (rest : List RepReq),
      s.spr.queue = r :: rest →
      s.b (sprA 0x040) 8 = true →
      r.kind = 4 →
      ∃ t, exec (.repairComplete true) s = .next t ∧
        t.spr.queue = rest ∧
        t.spr.rows.at 0 (r.arg / 4096) = s.spr.rows.at 0 (r.arg / 4096) + 1 ∧
        t.rd (sprA 0x064) = word (satAdd 32 (s.rd (sprA 0x064)).toNat 1) ∧
        t.raised 8 0x2004 ∧
        FlowKept s t ∧
        RegsOut [0x08] s t ∧
        WinKept s t ∧
        MemKept s t) ∧
  (∀ (s : State) (r : RepReq) (rest : List RepReq),
      s.spr.queue = r :: rest →
      s.b (sprA 0x040) 8 = true →
      r.kind = 4 →
      ∃ t, exec (.repairComplete false) s = .next t ∧
        t.spr.queue = rest ∧
        t.spr.rows = s.spr.rows ∧
        t.rd (sprA 0x068) = word (satAdd 32 (s.rd (sprA 0x068)).toNat 1) ∧
        t.raised 8 0x2005 ∧
        FlowKept s t ∧
        RegsOut [0x08] s t ∧
        WinKept s t ∧
        MemKept s t)

/-- EVENT_ACCEPT with no event trigger enabled, no loss open and room: an event of sufficient severity becomes a record with the next seq and the operating time; one below min_sev is counted as filtered. SQUALL_ACCEPT turns an open loss count into a record. EVR_RECORD_STORE writes the oldest record to its slot when a readback agrees; when neither does, the slot is marked, the error counted and shown, and event 0x1403 reported when none was before. EVR_HEADER_WRITE, due, writes the copy with the lower count. EVR_START_SCAN of an empty memory starts at seq 0 and power cycle 1. EVR_MIRROR_SELECT, accepted, shows the mirror's record of a seq, or that it holds none. EVR_SW_EVENT raises 0x1405. Rests on 22_event_recorder.md (R505, R507, R508, R509, R510, R512, R513, R514, R515). -/
def Obligations.EventsAreRecorded : Prop :=
  (∀ (s : State) (v : Ev) (rest : List Ev),
      s.alive = true →
      s.evNext = some (v, rest) →
      (∀ m : Fin 4, s.b (dbgA (0x1C4 + 8 * m.val)) 0 = false) →
      s.b (mirA 0x058) 6 = false →
      s.b (pmcA 0x044) 1 = false →
      s.regionDown 60 = false →
      s.evr.loss = none →
      s.evr.fixed = true →
      s.b (evrA 0x044) 0 = true →
      s.f (evrA 0x044) 17 16 ≤ evSeverity v.code →
      s.evLevel < 56 →
      ∃ t, exec (.eventAccept) s = .next t ∧
        t.evr.fifo = s.evr.fifo ++ [({ ev := v, seq := s.f (evrA 0x048) 23 0, opSec := s.opSec, frac := s.opFrac, pwrCyc := s.f (evrA 0x058) 23 0, stored := true } : EvRec)] ∧
        t.f (evrA 0x048) 23 0 = (s.f (evrA 0x048) 23 0 + 1) % 2 ^ 24 ∧
        t.rd (evrA 0x090) = word (satAdd 32 (s.rd (evrA 0x090)).toNat 1) ∧
        t.evr.ptr = (v.page + 1) % 176 ∧
        FlowKept s t ∧
        RegsBut [evrA 0x048, evrA 0x060, evrA 0x090, evrA 0x040, evrA 0x008] s t ∧
        WinKept s t ∧
        MemKept s t) ∧
  (∀ (s : State) (v : Ev) (rest : List Ev),
      s.alive = true →
      s.evNext = some (v, rest) →
      (∀ m : Fin 4, s.b (dbgA (0x1C4 + 8 * m.val)) 0 = false) →
      s.b (mirA 0x058) 6 = false →
      s.b (pmcA 0x044) 1 = false →
      s.regionDown 60 = false →
      s.evr.loss = none →
      evSeverity v.code < s.f (evrA 0x044) 17 16 →
      ∃ t, exec (.eventAccept) s = .next t ∧
        t.evr.fifo = s.evr.fifo ∧
        t.rd (evrA 0x09C) = word (satAdd 32 (s.rd (evrA 0x09C)).toNat 1) ∧
        FlowKept s t ∧
        RegsBut [evrA 0x09C] s t ∧
        WinKept s t ∧
        MemKept s t) ∧
  (∀ (s : State) (l : EvLoss),
      s.alive = true →
      s.regionDown 60 = false →
      s.evr.loss = some l →
      s.evLevel ≤ 32 →
      s.evr.fixed = true →
      s.b (evrA 0x044) 0 = true →
      ∃ t, exec (.squallAccept) s = .next t ∧
        t.evr.loss = none ∧
        t.evr.fifo.getLast?.map (fun (r : EvRec) => (r.ev.code, r.ev.p0, r.ev.p1, r.ev.p2)) = some (0x1401, l.lost % 2 ^ 32, l.first + l.last * 65536, l.opSec) ∧
        t.rd (evrA 0x0A4) = word (satAdd 32 (s.rd (evrA 0x0A4)).toNat 1) ∧
        t.b (evrA 0x008) 0 = true ∧
        FlowKept s t ∧
        RegsBut [evrA 0x048, evrA 0x060, evrA 0x090, evrA 0x0A4, evrA 0x040, evrA 0x008] s t ∧
        WinKept s t ∧
        MemKept s t) ∧
  (∀ (s : State) (r : EvRec) (rest : List EvRec) (first second : Bool),
      s.alive = true →
      s.regionDown 60 = false →
      s.b (evrA 0x040) 8 = true →
      s.evr.fifo = r :: rest →
      (first = true ∨ second = true) →
      ∃ t, exec (.evrRecordStore first second) s = .next t ∧
        t.evr.fifo = rest ∧
        t.slotRd r.seq = r.bytes ∧
        t.f (evrA 0x04C) 23 0 = r.seq % 2 ^ 24 ∧
        HostBut 0 0 s t ∧
        HbmBut 0 0 s t ∧
        SramBut 0 0 s t ∧
        FlowKept s t ∧
        RegsBut [evrA 0x04C, evrA 0x040] s t ∧
        WinKept s t) ∧
  (∀ (s : State) (r : EvRec) (rest : List EvRec),
      s.alive = true →
      s.regionDown 60 = false →
      s.b (evrA 0x040) 8 = true →
      s.evr.fifo = r :: rest →
      s.evr.werrAt = none →
      ∃ t, exec (.evrRecordStore false false) s = .next t ∧
        t.evr.fifo = rest ∧
        leAt (t.slotRd r.seq) 0 1 = 0 ∧
        t.b (evrA 0x040) 9 = true ∧
        t.rd (evrA 0x0A0) = word (satAdd 32 (s.rd (evrA 0x0A0)).toNat 1) ∧
        t.b (evrA 0x008) 1 = true ∧
        t.raised 5 0x1403 ∧
        HostBut 0 0 s t ∧
        HbmBut 0 0 s t ∧
        SramBut 0 0 s t ∧
        FlowKept s t ∧
        RegsBut [evrA 0x040, evrA 0x0A0, evrA 0x008] s t ∧
        WinKept s t) ∧
  (∀ (s : State),
      s.alive = true →
      s.regionDown 60 = false →
      s.b (evrA 0x040) 8 = true →
      seconds 64 ≤ s.clk - s.evr.hdrAt →
      s.evr.hdrA ≤ s.evr.hdrB →
      s.evr.hdrB + 1 < 2 ^ 32 →
      ∃ t, exec (.evrHeaderWrite) s = .next t ∧
        (t.evHdr 0).1 = true ∧
        leAt (t.evHdr 0).2 4 4 = s.evr.hdrB + 1 ∧
        t.evr.hdrA = s.evr.hdrB + 1 ∧
        t.evr.hdrB = s.evr.hdrB ∧
        HostBut 0 0 s t ∧
        HbmBut 0 0 s t ∧
        SramBut 0 0 s t ∧
        FlowKept s t ∧
        RegsBut [] s t ∧
        WinKept s t) ∧
  (∀ (s : State),
      s.alive = true →
      s.regionDown 60 = false →
      s.b (evrA 0x040) 8 = true →
      seconds 64 ≤ s.clk - s.evr.hdrAt →
      s.evr.hdrB < s.evr.hdrA →
      s.evr.hdrA + 1 < 2 ^ 32 →
      ∃ t, exec (.evrHeaderWrite) s = .next t ∧
        (t.evHdr 1).1 = true ∧
        leAt (t.evHdr 1).2 4 4 = s.evr.hdrA + 1 ∧
        t.evr.hdrB = s.evr.hdrA + 1 ∧
        t.evr.hdrA = s.evr.hdrA ∧
        HostBut 0 0 s t ∧
        HbmBut 0 0 s t ∧
        SramBut 0 0 s t ∧
        FlowKept s t ∧
        RegsBut [] s t ∧
        WinKept s t) ∧
  (∀ (s : State),
      s.alive = true →
      s.regionDown 60 = false →
      s.b (evrA 0x040) 8 = false →
      s.evr.fixed = false →
      s.evr.early = [] →
      (s.evHdr 0).1 = false →
      (s.evHdr 1).1 = false →
      recValid (s.slotRd 0) 0 = false →
      ∃ t, exec (.evrStartScan) s = .next t ∧
        t.b (evrA 0x040) 8 = true ∧
        t.evr.fixed = true ∧
        t.f (evrA 0x048) 23 0 = 0 ∧
        t.f (evrA 0x058) 23 0 = 1 ∧
        t.raised 5 0x1404 ∧
        t.raised 5 0x1402 ∧
        HostBut 0 0 s t ∧
        HbmBut 0 0 s t ∧
        FlowKept s t ∧
        RegsBut [evrA 0x058, evrA 0x048, evrA 0x04C, evrA 0x060, evrA 0x040, evrA 0x008] s t ∧
        WinKept s t) ∧
  (∀ (s : State) (q : BitVec 24) (b : List Byte),
      s.accepts (evrA 0x05C) (word q.toNat) →
      s.evr.mirror.find? (fun b => decide (leAt b 13 3 = q.toNat)) = some b →
      ∃ t, exec (.evrMirrorSelect q) s = .next t ∧
        t.b (evrA 0x060) 31 = true ∧
        (∀ w : Fin 8, t.rd (evrA (0x064 + 4 * w.val)) = word (leAt b (4 * w.val) 4)) ∧
        t.evr.fifo = s.evr.fifo ∧
        FlowKept s t ∧
        RegsBut ([evrA 0x05C, evrA 0x060] ++ (List.range 8).map (fun w => evrA (0x064 + 4 * w))) s t ∧
        WinKept s t ∧
        MemKept s t) ∧
  (∀ (s : State) (q : BitVec 24),
      s.accepts (evrA 0x05C) (word q.toNat) →
      s.evr.mirror.find? (fun b => decide (leAt b 13 3 = q.toNat)) = none →
      ∃ t, exec (.evrMirrorSelect q) s = .next t ∧
        t.b (evrA 0x060) 31 = false ∧
        t.evr.fifo = s.evr.fifo ∧
        FlowKept s t ∧
        RegsBut [evrA 0x05C, evrA 0x060] s t ∧
        WinKept s t ∧
        MemKept s t) ∧
  (∀ (s : State) (v : BitVec 16),
      s.accepts (evrA 0x0AC) (word v.toNat) →
      ∃ t, exec (.evrSwEvent v) s = .next t ∧
        (∃ e ∈ t.evr.waiting, e.page = 5 ∧ e.code = 0x1405 ∧ e.p3 = v.toNat) ∧
        FlowKept s t ∧
        RegsBut [] s t ∧
        WinKept s t ∧
        MemKept s t)

/-- POR_N rising starts Init in the sampled boot mode; POR_N falling clears every register, table, frame and copy, while host and recorder memories stand. The enables rise in order, a rail in range is marked checked, a rail out of range is latched in PMU_STATUS, turns every rail off and enters Fault. An accepted warm reset drops frames and returns to Init with HBM and PMU registers kept. INIT_END passes to Run in host mode and Test in factory mode, with TSU_STATUS.pll_lock set (the model's reading). A link that trains shows its speed and width. Rests on 23_power_and_startup.md (R520, R521, R522, R524, R525, R527, R528); 19_tenants_security.md (R444); 03_host_and_registers.md (R70). -/
def Obligations.SuppliesAndResetsAct : Prop :=
  (∀ (s : State) (m : Fin 4),
      s.pmu.por = false →
      s.pmu.railBad = none →
      ∃ t, exec (.porRelease m) s = .next t ∧
        t.pmu.por = true ∧
        t.pmu.enCore = true ∧
        t.topState = 0 ∧
        t.f (topA 0x04C) 1 0 = m.val ∧
        RegsOut [0x00, 0x06, 0x0B] s t ∧
        FlowKept s t ∧
        MemKept s t) ∧
  (∀ (s : State),
      ∃ t, exec (.porAssert) s = .next t ∧
        t.regs = State.reset.regs ∧ t.inForce = State.reset.inForce ∧
        t.pmu.por = false ∧
        t.pmu.enCore = false ∧
        t.frames = [] ∧ t.copies = [] ∧ t.eframes = [] ∧
        t.hbm = [] ∧ t.sram = [] ∧
        t.host = s.host ∧ t.spi = s.spi ∧ t.flash = s.flash ∧
        t.sec.otp = s.sec.otp ∧
        t.isl = s.isl) ∧
  (∀ (s : State),
      s.alive = true →
      ∃ t, exec (.pwrEnSdsTimer) s = .next t ∧
        t.pmu.enSds = true ∧
        t.pmu.enCore = true ∧
        t.pmu.enHbm = s.pmu.enHbm ∧
        RegsBut [] s t ∧
        FlowKept s t ∧
        MemKept s t) ∧
  (∀ (s : State),
      s.alive = true →
      ∃ t, exec (.pwrEnHbmTimer) s = .next t ∧
        t.pmu.enHbm = true ∧
        t.pmu.enSds = s.pmu.enSds ∧
        RegsBut [] s t ∧
        FlowKept s t ∧
        MemKept s t) ∧
  (∀ (s : State) (r : Fin 3),
      s.alive = true →
      (r = 0 ∨ (r = 1 ∧ s.pmu.enSds = true) ∨ (r = 2 ∧ s.pmu.enHbm = true)) →
      ∃ t, exec (.railCheck r true) s = .next t ∧
        t.pmu.checked = s.pmu.checked ||| 2 ^ r.val ∧
        RegsBut [] s t ∧
        FlowKept s t ∧
        MemKept s t) ∧
  (∀ (s : State) (r : Fin 3),
      s.alive = true →
      (r = 0 ∨ (r = 1 ∧ s.pmu.enSds = true) ∨ (r = 2 ∧ s.pmu.enHbm = true)) →
      ∃ t, exec (.railCheck r false) s = .next t ∧
        t.topState = 3 ∧
        t.b (pmuA 0x040) 4 = true ∧
        t.f (pmuA 0x040) 6 5 = r.val ∧
        t.pmu.enCore = false ∧ t.pmu.enSds = false ∧ t.pmu.enHbm = false ∧
        t.pmu.railBad = some r.val ∧
        RegsBut [topA 0x048, pmuA 0x040] s t ∧
        MemKept s t) ∧
  (∀ (s : State),
      s.accepts (topA 0x058) 0x52530001 →
      ∃ t, exec (.warmReset) s = .next t ∧
        t.topState = 0 ∧
        t.rd (topA 0x05C) = 2 ∧
        t.frames = [] ∧ t.copies = [] ∧ t.eframes = [] ∧
        t.hbm = s.hbm ∧
        t.hif.linkUp = s.hif.linkUp ∧
        t.f (topA 0x04C) 1 0 = s.f (topA 0x04C) 1 0 ∧
        t.isl = s.isl) ∧
  (∀ (s : State),
      s.alive = true →
      s.topState = 0 →
      s.pmu.exited = none →
      s.bootMode = 0 ∨ s.bootMode = 3 →
      ∃ t, exec (.initEnd) s = .next t ∧
        t.topState = (if s.bootMode = 0 then 2 else 6) ∧
        t.hif.cfgRetry = false ∧
        t.b (tsuA 0x040) 0 = true ∧
        RegsBut [topA 0x048, tsuA 0x040] s t ∧
        FlowKept s t ∧
        MemKept s t) ∧
  (∀ (s : State) (v : Fin 4) (w : Fin 3),
      s.alive = true →
      s.hif.perst = false →
      s.bootMode = 0 ∨ s.bootMode = 2 →
      ∃ t, exec (.pcieLinkUp v w) s = .next t ∧
        t.hif.linkUp = true ∧
        t.f (hifA 0x040) 10 8 = v.val + 1 ∧
        t.f (hifA 0x040) 18 16 = 2 ^ w.val ∧
        RegsBut [hifA 0x040] s t ∧
        FlowKept s t ∧
        MemKept s t)

/-- An accepted request, or the falling edge of LULL_REQ_N where enabled in Run with WAKE_N high, starts the drain; an edge where it is not enabled, outside Run, or with WAKE_N low only changes the pin. The drain's expiry drops every copy, enters Ready and reports event 0x0C01; an accepted go, or the hold's expiry, powers down with no frame or copy left. An accepted abort or WAKE_N low before power-down returns to Run with event 0x0C04. The completion of power-down counts a Lull entry and notes its time. The exit after a wake powers the core and starts Init with the Lull cause; for a port's cause the port's MAC PAGE_IRQ_RAW bit 3 sets with event 0x4404. That the drain's and hold's expiries and the completion of power-down come as commands is the model's form. Rests on 23_power_and_startup.md (R536, R537, R538, R539, R541); 04_ports_and_macs.md (R106); 22_event_recorder.md (R508). -/
def Obligations.LullIsEnteredAndLeft : Prop :=
  (∀ (s : State),
      s.accepts (pmuA 0x044) 1 →
      ∃ t, exec (.lullEnterCmd) s = .next t ∧
        t.topState = 4 ∧
        t.pmu.quietAt = s.clk ∧
        RegsBut [topA 0x048] s t ∧
        FlowKept s t ∧
        WinKept s t ∧
        MemKept s t) ∧
  (∀ (s : State),
      s.alive = true →
      s.topState = 2 →
      s.pmu.reqN = true →
      s.pmu.wakeN = true →
      s.b (pmuA 0x048) 30 = true →
      ∃ t, exec (.lullReqPin false) s = .next t ∧
        t.topState = 4 ∧
        t.pmu.reqN = false ∧
        t.pmu.quietAt = s.clk ∧
        RegsBut [topA 0x048] s t ∧
        FlowKept s t ∧
        MemKept s t) ∧
  (∀ (s : State),
      s.alive = true →
      (s.topState ≠ 2 ∨ s.pmu.wakeN = false ∨ s.b (pmuA 0x048) 30 = false) →
      ∃ t, exec (.lullReqPin false) s = .next t ∧
        t.topState = s.topState ∧
        t.pmu.reqN = false ∧
        RegsBut [] s t ∧
        FlowKept s t ∧
        MemKept s t) ∧
  (∀ (s : State),
      ∃ t, exec (.lullReqPin true) s = .next t ∧
        t.pmu.reqN = true ∧
        RegsKept s t ∧
        FlowKept s t ∧
        MemKept s t) ∧
  (∀ (s : State),
      s.alive = true →
      s.topState = 4 →
      ∃ t, exec (.lullDrainExpire) s = .next t ∧
        t.topState = 5 ∧
        t.pmu.readyAt = s.clk ∧
        t.copies = [] ∧
        t.raised 3 0x0C01 ∧
        t.sta.ledOn = false) ∧
  (∀ (s : State),
      s.accepts (pmuA 0x044) 2 →
      ∃ t, exec (.lullGo) s = .next t ∧
        t.pmu.dying = true ∧
        t.pmu.enCore = false ∧ t.pmu.enHbm = false ∧
        t.frames = [] ∧ t.copies = [] ∧ t.eframes = [] ∧
        t.host = s.host ∧ t.flash = s.flash ∧
        t.isl = s.isl) ∧
  (∀ (s : State),
      s.alive = true →
      s.topState = 5 →
      ∃ t, exec (.lullHoldExpire) s = .next t ∧
        t.pmu.dying = true ∧
        t.pmu.enCore = false ∧ t.pmu.enHbm = false ∧
        t.frames = [] ∧ t.copies = [] ∧ t.eframes = [] ∧
        t.host = s.host ∧ t.flash = s.flash ∧
        t.isl = s.isl) ∧
  (∀ (s : State),
      s.alive = true →
      s.topState = 4 ∨ s.topState = 5 →
      ∃ t, exec (.lullAbort true) s = .next t ∧
        t.topState = 2 ∧
        t.pmu.wakeN = false ∧
        t.raised 3 0x0C04 ∧
        RegsBut [topA 0x048, staA 0x404, pmuA 0x008] s t ∧
        FlowKept s t ∧
        MemKept s t) ∧
  (∀ (s : State),
      s.accepts (pmuA 0x044) 3 →
      ∃ t, exec (.lullAbort false) s = .next t ∧
        t.topState = 2 ∧
        t.raised 3 0x0C04 ∧
        RegsBut [topA 0x048, staA 0x404, pmuA 0x008] s t ∧
        FlowKept s t ∧
        MemKept s t) ∧
  (∀ (s : State),
      s.pmu.dying = true →
      s.pmu.wakeN = true →
      ∃ t, exec (.lullPowerDownDone) s = .next t ∧
        t.pmu.dying = false ∧
        t.pmu.lull = true ∧
        t.pmu.downAt = s.clk ∧
        t.f (pmuA 0x040) 31 16 = satAdd 16 (s.f (pmuA 0x040) 31 16) 1 ∧
        RegsBut [pmuA 0x040] s t ∧
        FlowKept s t ∧
        MemKept s t) ∧
  (∀ (s : State) (p : Port),
      s.pmu.lull = true →
      s.pmu.wake = some (4, p.val) →
      ∃ t, exec (.lullExit) s = .next t ∧
        t.pmu.lull = false ∧
        t.pmu.enCore = true ∧
        t.pmu.exited = some (4, p.val) ∧
        t.topState = 0 ∧
        t.rd (topA 0x05C) = 8 ∧
        t.b (macA p.val 0x008) 3 = true ∧
        t.raised (macPage p.val) 0x4404 ∧
        t.isl = s.isl) ∧
  (∀ (s : State),
      s.pmu.lull = true →
      s.pmu.wake.isSome = true →
      ∃ t, exec (.lullExit) s = .next t ∧
        t.pmu.lull = false ∧
        t.pmu.enCore = true ∧
        t.pmu.exited = s.pmu.wake ∧
        t.topState = 0 ∧
        t.rd (topA 0x05C) = 8 ∧
        t.host = s.host ∧ t.flash = s.flash ∧ t.spi = s.spi ∧
        t.isl = s.isl)

/-- Asleep is from the start of power-down until the exit. Asleep, with no cause latched: WAKE_N low while pin_en is 1, the timer after power-down while timer_en is 1, signal on a lane of a port armed for energy detect that showed none, and a frame of at least 64 bytes with a good FCS that matches every masked byte of the pattern of a port armed for pattern match are each latched in PMU_WAKE_CAUSE, with cause 1, 2 or 4 and a port's number; a detector also sets its bit of MAC_WAKE_STATUS. Asleep with a cause latched, the pin and a detector leave the cause as it is, and the detector only sets its bit. A detector that is not armed, a lane that had signal, and a frame too short or with a bad FCS change nothing. WAKE_N high only changes the pin. Registers other than these, the frames inside and every memory stand. Rests on 23_power_and_startup.md (R539, R540); 04_ports_and_macs.md (R106). -/
def Obligations.WakeCausesAreLatched : Prop :=
  (∀ (s : State),
      s.asleep = true →
      s.alive = false →
      s.pmu.wake = none →
      bit (s.fw (pmuA 0x048)) 28 = true →
      ∃ t, exec (.wakePin true) s = .next t ∧
        t.pmu.wake = some (1, 0) ∧
        t.pmu.wakeN = false ∧
        t.rd (pmuA 0x050) = word (2 ^ 31 + 1) ∧
        RegsBut [pmuA 0x050] s t ∧
        FlowKept s t ∧
        MemKept s t) ∧
  (∀ (s : State),
      s.asleep = true →
      s.alive = false →
      (s.pmu.wake.isSome = true ∨ bit (s.fw (pmuA 0x048)) 28 = false) →
      ∃ t, exec (.wakePin true) s = .next t ∧
        t.pmu.wake = s.pmu.wake ∧
        t.pmu.wakeN = false ∧
        RegsBut [] s t ∧
        FlowKept s t ∧
        MemKept s t) ∧
  (∀ (s : State),
      ∃ t, exec (.wakePin false) s = .next t ∧
        t.pmu.wakeN = true ∧
        RegsKept s t ∧
        FlowKept s t ∧
        MemKept s t) ∧
  (∀ (s : State),
      s.asleep = true →
      s.pmu.lull = true →
      s.pmu.wake = none →
      bit (s.fw (pmuA 0x048)) 29 = true →
      ∃ t, exec (.wakeTimer) s = .next t ∧
        t.pmu.wake = some (2, 0) ∧
        t.rd (pmuA 0x050) = word (2 ^ 31 + 2) ∧
        RegsBut [pmuA 0x050] s t ∧
        FlowKept s t ∧
        MemKept s t) ∧
  (∀ (s : State) (p : Port) (l : Fin 4),
      s.asleep = true →
      s.pmu.wake = none →
      (s.mac p.val).armed % 2 = 1 →
      (s.mac p.val).armed / 2 ^ (2 + l.val) % 2 = 1 →
      (s.lane (p.val / 4 * 4 + l.val)).hadSignal = false →
      ∃ t, exec (.wakeEnergyDetect p l) s = .next t ∧
        t.pmu.wake = some (4, p.val) ∧
        t.rd (pmuA 0x050) = word (2 ^ 31 + 4 + p.val * 256) ∧
        t.b (macA p.val 0x078) 0 = true ∧
        RegsBut [pmuA 0x050, macA p.val 0x078] s t ∧
        FlowKept s t ∧
        MemKept s t) ∧
  (∀ (s : State) (p : Port) (l : Fin 4),
      s.asleep = true →
      s.pmu.wake.isSome = true →
      (s.mac p.val).armed % 2 = 1 →
      (s.mac p.val).armed / 2 ^ (2 + l.val) % 2 = 1 →
      (s.lane (p.val / 4 * 4 + l.val)).hadSignal = false →
      ∃ t, exec (.wakeEnergyDetect p l) s = .next t ∧
        t.pmu.wake = s.pmu.wake ∧
        t.b (macA p.val 0x078) 0 = true ∧
        RegsBut [macA p.val 0x078] s t ∧
        FlowKept s t ∧
        MemKept s t) ∧
  (∀ (s : State) (p : Port) (l : Fin 4),
      ((s.mac p.val).armed % 2 = 0 ∨ (s.mac p.val).armed / 2 ^ (2 + l.val) % 2 = 0 ∨ (s.lane (p.val / 4 * 4 + l.val)).hadSignal = true) →
      ∃ t, exec (.wakeEnergyDetect p l) s = .next t ∧
        t.pmu = s.pmu ∧
        RegsBut [] s t ∧
        FlowKept s t ∧
        MemKept s t) ∧
  (∀ (s : State) (p : Port) (bs : List Byte),
      s.asleep = true →
      s.pmu.wake = none →
      (s.mac p.val).armed / 2 % 2 = 1 →
      64 ≤ bs.length →
      leVal (bs.drop (bs.length - 4)) = crc32 (bs.take (bs.length - 4)) →
      ∀ i : Fin 64, s.b (macA p.val (0x070 + 4 * (i.val / 32))) (i.val % 32) = true → beAt bs i.val 1 = s.f (macA p.val (0x080 + 4 * (i.val / 4))) (8 * (i.val % 4) + 7) (8 * (i.val % 4)) →
      ∃ t, exec (.wakePatternMatch p bs) s = .next t ∧
        t.pmu.wake = some (4, p.val) ∧
        t.rd (pmuA 0x050) = word (2 ^ 31 + 4 + p.val * 256) ∧
        t.b (macA p.val 0x078) 1 = true ∧
        RegsBut [pmuA 0x050, macA p.val 0x078] s t ∧
        FlowKept s t ∧
        MemKept s t) ∧
  (∀ (s : State) (p : Port) (bs : List Byte),
      s.asleep = true →
      s.pmu.wake.isSome = true →
      (s.mac p.val).armed / 2 % 2 = 1 →
      s.wakeMatch p.val bs = true →
      ∃ t, exec (.wakePatternMatch p bs) s = .next t ∧
        t.pmu.wake = s.pmu.wake ∧
        t.b (macA p.val 0x078) 1 = true ∧
        RegsBut [macA p.val 0x078] s t ∧
        FlowKept s t ∧
        MemKept s t) ∧
  (∀ (s : State) (p : Port) (bs : List Byte),
      ((s.mac p.val).armed / 2 % 2 = 0 ∨ bs.length < 64 ∨ leVal (bs.drop (bs.length - 4)) ≠ crc32 (bs.take (bs.length - 4))) →
      ∃ t, exec (.wakePatternMatch p bs) s = .next t ∧
        t.pmu = s.pmu ∧
        RegsBut [] s t ∧
        FlowKept s t ∧
        MemKept s t)

/-- A well-formed command at the head of the warden's queue, with staging empty, is taken and answered from port 67 in its domain. GET_NONCE carries the domain's nonce, drawing a first one when there is none. ENROLL with a key whose SHA-384 the slot holds enrols it. VER_OPEN, VER_COMMIT and VER_CLOSE that pass every check open, request the commit of and close the domain's set with results 1, 1 and 5, a close giving every staged register the current version's value. A command whose signature fails is answered with status 3, counted, and leaves nonce and sequence as they were. A lockout ends after its second. Rests on 19_tenants_security.md (R431, R432, R433, R434, R435, R436, R438, R442). -/
def Obligations.WardenAnswersAndEnrols : Prop :=
  (∀ (s : State) (cmd : WCmd) (rest : List WCmd),
      s.commands cmd rest 0x0001 →
      (s.sec.nonces.at [] cmd.dom).isEmpty = false →
      ∃ t, exec (.getNonce) s = .next t ∧
        Answered [] s t cmd rest 0 ∧
        t.sec.nonces = s.sec.nonces ∧
        respAt t s.nextId cmd 8 16 = slice (s.sec.nonces.at [] cmd.dom) 0 16 ∧
        t.sec.seqs = s.sec.seqs ∧
        t.sec.keys = s.sec.keys ∧
        WinKept s t) ∧
  (∀ (s : State) (cmd : WCmd) (rest : List WCmd),
      s.commands cmd rest 0x0001 →
      s.sec.nonces.at [] cmd.dom = [] →
      ∃ t, exec (.getNonce) s = .next t ∧
        Answered [] s t cmd rest 0 ∧
        (t.sec.nonces.at [] cmd.dom).length = 16 ∧
        respAt t s.nextId cmd 8 16 = t.sec.nonces.at [] cmd.dom ∧
        t.sec.seqs = s.sec.seqs ∧
        t.sec.keys = s.sec.keys ∧
        WinKept s t) ∧
  (∀ (s : State) (cmd : WCmd) (rest : List WCmd),
      s.commands cmd rest 0x0010 →
      s.authentic cmd.input →
      ∃ t, exec (.enroll) s = .next t ∧
        Answered [] s t cmd rest 0 ∧
        t.sec.seqs.at 0 cmd.dom = cmd.input.seq + 1 ∧
        t.sec.keys.at [] cmd.dom = cmd.input.body ∧
        t.b (secA (0x0C0 + 4 * cmd.dom)) 8 = true ∧
        ∀ d : Fin 16, d.val ≠ cmd.dom → t.sec.keys.at [] d.val = s.sec.keys.at [] d.val ∧
        WinKept s t) ∧
  (∀ (s : State) (cmd : WCmd) (rest : List WCmd),
      s.commands cmd rest 0x0030 →
      s.authentic cmd.input →
      s.b (topA 0x300) 24 = false →
      s.b (topA 0x300) 12 = false →
      ∃ t, exec (.verOpen) s = .next t ∧
        Answered [0x00] s t cmd rest 0 ∧
        t.sec.seqs.at 0 cmd.dom = cmd.input.seq + 1 ∧
        t.setOpenFor cmd.dom = true ∧
        t.ver.openAt = s.clk ∧
        beVal (respAt t s.nextId cmd 30 2) = 1 ∧
        WinKept s t) ∧
  (∀ (s : State) (cmd : WCmd) (rest : List WCmd),
      s.commands cmd rest 0x0031 →
      s.authentic cmd.input →
      s.b (topA 0x300) 24 = false →
      s.setOpenFor cmd.dom = true →
      s.f (topA 0x300) 10 8 < 4 →
      ∃ t, exec (.verCommit) s = .next t ∧
        Answered [0x00] s t cmd rest 0 ∧
        t.sec.seqs.at 0 cmd.dom = cmd.input.seq + 1 ∧
        t.b (topA 0x300) 24 = true ∧
        t.ver.pendingCommit = some cmd.dom ∧
        beVal (respAt t s.nextId cmd 30 2) = 1 ∧
        WinKept s t) ∧
  (∀ (s : State) (cmd : WCmd) (rest : List WCmd),
      s.commands cmd rest 0x0032 →
      s.authentic cmd.input →
      s.b (topA 0x300) 24 = false →
      s.setOpenFor cmd.dom = true →
      topA 0x300 ∉ s.ver.staged →
      ∃ t, exec (.verClose) s = .next t ∧
        Answered (0x00 :: s.ver.staged.map (fun a => a / 0x1000)) s t cmd rest 0 ∧
        (∀ a ∈ s.ver.staged, a ∉ watchRegs → a ∉ countRegs → t.rd a = s.rwv a s.verC) ∧
        t.ver.staged = [] ∧
        t.sec.seqs.at 0 cmd.dom = cmd.input.seq + 1 ∧
        t.b (topA 0x300) 12 = false ∧
        beVal (respAt t s.nextId cmd 30 2) = 5 ∧
        WinKept s t) ∧
  (∀ (s : State) (cmd : WCmd) (rest : List WCmd),
      s.commands cmd rest 0x0050 →
      s.authCheck cmd.input = 3 →
      (s.sec.badSig.at [] cmd.dom).length < 15 →
      ∃ t, exec (.setView) s = .next t ∧
        Answered [] s t cmd rest 3 ∧
        t.rd (secA 0x078) = word (satAdd 32 (s.rd (secA 0x078)).toNat 1) ∧
        t.rd (secA 0x074) = word (satAdd 32 (s.rd (secA 0x074)).toNat 1) ∧
        t.sec.nonces = s.sec.nonces ∧
        t.sec.seqs = s.sec.seqs ∧
        t.sec.views = s.sec.views ∧
        WinKept s t) ∧
  (∀ (s : State) (d : Dom),
      ∃ t, exec (.signatureLockoutEnd d) s = .next t ∧
        t.sec.locked.contains d.val = false ∧
        ∀ e : Fin 16, e.val ≠ d.val → t.sec.locked.contains e.val = s.sec.locked.contains e.val ∧
        RegsBut [] s t ∧
        FlowKept s t ∧
        WinKept s t ∧
        MemKept s t)

/-- A command that passes every check of the warden has its operation's effect and is answered with status 0: WRITE of one sequence generation entry the domain owns stores it and READ returns its bytes; KEK_INIT fuses the key-encryption key; KEY_LOAD unwraps a key of 128 or 256 bits into an SA the domain owns; KEY_ERASE clears one and reports it; SET_VIEW, SET_MIRROR and SET_MACSEC_REQ set their bits; ATTEST returns the domain's evidence: its seal state, seal generation and device id, the current version, and the command's nonce and sequence; RESEAL starts the next generation and zeroizes tenant SAs. Rests on 19_tenants_security.md (R427, R434, R435, R436, R437, R440, R441, R442, R443, R444, R445). -/
def Obligations.WardenServesTenants : Prop :=
  (∀ (s : State) (cmd : WCmd) (rest : List WCmd) (x : WItem) (k : Fin 5) (j : Fin 4096),
      s.commands cmd rest 0x0020 →
      s.authentic cmd.input →
      cmd.input.items = some [x] →
      x.space = 2 →
      winItems x.addr x.len = some [.seqGen k.val j.val] →
      s.b (secA 0x040) 8 = true →
      s.itemOwner (.seqGen k.val j.val) = cmd.dom →
      s.winKind (.warden cmd.dom) true x.addr x.data = 0 →
      ∃ t, exec (.wardenWrite) s = .next t ∧
        Answered [] s t cmd rest 0 ∧
        t.sec.seqs.at 0 cmd.dom = cmd.input.seq + 1 ∧
        readBytes t.win x.addr x.len = x.data ∧
        WinBut x.addr x.len s t) ∧
  (∀ (s : State) (cmd : WCmd) (rest : List WCmd) (x : WItem) (k : Fin 5) (j : Fin 4096),
      s.commands cmd rest 0x0021 →
      s.authentic cmd.input →
      cmd.input.items = some [x] →
      x.space = 2 →
      winItems x.addr x.len = some [.seqGen k.val j.val] →
      s.b (secA 0x040) 8 = true →
      s.itemOwner (.seqGen k.val j.val) = cmd.dom →
      x.addr % 4 = 0 →
      x.len % 4 = 0 →
      4 ≤ x.len ∧ x.len ≤ 128 →
      ∃ t, exec (.wardenRead) s = .next t ∧
        Answered [] s t cmd rest 0 ∧
        t.sec.seqs.at 0 cmd.dom = cmd.input.seq + 1 ∧
        respAt t s.nextId cmd 32 x.len = readBytes s.win x.addr x.len ∧
        WinKept s t) ∧
  (∀ (s : State) (cmd : WCmd) (rest : List WCmd),
      s.commands cmd rest 0x0040 →
      s.authentic cmd.input →
      s.sec.gen < s.sec.otp.length →
      ∃ t, exec (.kekInit) s = .next t ∧
        Answered [] s t cmd rest 0 ∧
        t.sec.seqs.at 0 cmd.dom = cmd.input.seq + 1 ∧
        t.otpNow.keks.at [] cmd.dom = cmd.input.body ∧
        t.b (secA (0x0C0 + 4 * cmd.dom)) 9 = true ∧
        t.otpNow.roots = s.otpNow.roots ∧ t.otpNow.fuses = s.otpNow.fuses ∧
        WinKept s t) ∧
  (∀ (s : State) (cmd : WCmd) (rest : List WCmd) (q i : Nat) (key : List Byte) (long : Bool),
      s.commands cmd rest 0x0041 →
      s.authentic cmd.input →
      q = beAt cmd.input.body 0 1 ∧ i = beAt cmd.input.body 1 1 →
      q < 16 →
      beAt cmd.input.body 2 1 < 8 ∧ beAt cmd.input.body 3 1 = 0 →
      long = decide (bitsOf (beAt cmd.input.body 2 1) 1 1 = 1) →
      (long = false → beAt cmd.input.body 56 16 = 0) →
      s.mscOwner q 2 i = cmd.dom →
      (s.otpNow.keks.at [] cmd.dom).isEmpty = false →
      Crypto.keyUnwrap (s.otpNow.keks.at [] cmd.dom) (slice cmd.input.body 32 (if long then 40 else 24)) = some key →
      ∃ t, exec (.keyLoad) s = .next t ∧
        Answered [] s t cmd rest 0 ∧
        t.sec.seqs.at 0 cmd.dom = cmd.input.seq + 1 ∧
        t.mscEnt q 2 i = saOf cmd.dom cmd.input.body (slice key 0 (if long then 32 else 16)) ∧
        WinKept s t) ∧
  (∀ (s : State) (cmd : WCmd) (rest : List WCmd) (q i : Nat),
      s.commands cmd rest 0x0042 →
      s.authentic cmd.input →
      q = beAt cmd.input.body 0 1 ∧ i = beAt cmd.input.body 1 1 →
      q < 16 →
      s.mscOwner q 2 i = cmd.dom →
      ∃ t, exec (.keyErase) s = .next t ∧
        Answered [] s t cmd rest 0 ∧
        t.sec.seqs.at 0 cmd.dom = cmd.input.seq + 1 ∧
        leAt (t.mscEnt q 2 i) 0 1 % 2 = 0 ∧
        slice (t.mscEnt q 2 i) 32 32 = List.replicate 32 0 ∧
        t.raised 11 0x2C04 ∧
        WinKept s t) ∧
  (∀ (s : State) (cmd : WCmd) (rest : List WCmd) (on : Bool),
      s.commands cmd rest 0x0050 →
      s.authentic cmd.input →
      on = decide (beAt cmd.input.body 0 1 % 2 = 1) →
      ∃ t, exec (.setView) s = .next t ∧
        Answered [] s t cmd rest 0 ∧
        t.sec.seqs.at 0 cmd.dom = cmd.input.seq + 1 ∧
        t.sec.views.contains cmd.dom = on ∧
        t.b (secA (0x0C0 + 4 * cmd.dom)) 10 = on ∧
        ∀ d : Fin 16, d.val ≠ cmd.dom → t.sec.views.contains d.val = s.sec.views.contains d.val ∧
        WinKept s t) ∧
  (∀ (s : State) (cmd : WCmd) (rest : List WCmd) (on : Bool),
      s.commands cmd rest 0x0051 →
      s.authentic cmd.input →
      on = decide (beAt cmd.input.body 0 1 % 2 = 1) →
      ∃ t, exec (.setMirror) s = .next t ∧
        Answered [0x90] s t cmd rest 0 ∧
        t.sec.seqs.at 0 cmd.dom = cmd.input.seq + 1 ∧
        t.b (mirA 0x070) cmd.dom = on ∧
        t.b (secA (0x0C0 + 4 * cmd.dom)) 11 = on ∧
        ∀ d : Fin 32, d.val ≠ cmd.dom → t.b (mirA 0x070) d.val = s.b (mirA 0x070) d.val ∧
        WinKept s t) ∧
  (∀ (s : State) (cmd : WCmd) (rest : List WCmd) (p : Port) (on : Bool),
      s.commands cmd rest 0x0052 →
      s.authentic cmd.input →
      p.val = beAt cmd.input.body 0 1 →
      on = decide (beAt cmd.input.body 1 1 % 2 = 1) →
      s.b (mscA (p.val / 4) 4) 31 = false →
      ∃ t, exec (.setMacsecReq) s = .next t ∧
        Answered [mscPage (p.val / 4)] s t cmd rest 0 ∧
        t.sec.seqs.at 0 cmd.dom = cmd.input.seq + 1 ∧
        t.b (mscA (p.val / 4) (0x060 + 4 * (p.val % 4))) (16 + cmd.dom) = on ∧
        WinKept s t) ∧
  (∀ (s : State) (cmd : WCmd) (rest : List WCmd),
      s.commands cmd rest 0x0060 →
      s.authentic cmd.input →
      ∃ t, exec (.attest) s = .next t ∧
        Answered [] s t cmd rest 0 ∧
        t.sec.seqs.at 0 cmd.dom = cmd.input.seq + 1 ∧
        beVal (respAt t s.nextId cmd 30 1) = 1 ∧
        beVal (respAt t s.nextId cmd 31 1) = cmd.dom ∧
        beVal (respAt t s.nextId cmd 32 1) = s.sealState ∧
        beVal (respAt t s.nextId cmd 34 1) = s.f (secA 0x040) 5 4 ∧
        beVal (respAt t s.nextId cmd 38 4) = (s.rd (topA 0x040)).toNat ∧
        beVal (respAt t s.nextId cmd 266 1) = s.verC ∧
        respAt t s.nextId cmd 270 16 = cmd.input.nonce ∧
        beVal (respAt t s.nextId cmd 286 4) = cmd.input.seq ∧
        WinKept s t) ∧
  (∀ (s : State) (cmd : WCmd) (rest : List WCmd),
      s.commands cmd rest 0x0070 →
      s.authentic cmd.input →
      s.sec.gen + 1 < s.sec.otp.length →
      ∃ t, exec (.reseal) s = .next t ∧
        Answered [0x06] s t cmd rest 0 ∧
        t.sec.seqs.at 0 cmd.dom = cmd.input.seq + 1 ∧
        t.sec.gen = s.sec.gen + 1 ∧
        t.sealState = (s.sec.otp.getD (s.sec.gen + 1) {}).fuses % 4 ∧
        t.f (secA 0x040) 5 4 = (s.sec.gen + 1) % 4 ∧
        t.tenantSas.all (fun (x : Nat × Nat) => decide (leAt (t.mscEnt x.1 2 x.2) 0 1 % 2 = 0)) = true ∧
        t.raised 11 0x2C04 ∧
        WinKept s t)

/-- An accepted SEC_DOORBELL op allocate whose list passes the checks puts its entries in force, stamps the owner of a listed sequence generator, sets loaded and, in Open, fuses the digest and makes the state Allocated; one that fails a check changes nothing but the operation's result. Op program root hash stores SEC_KEY_HASH and the algorithm in an empty slot, and nothing when Sealed (result 4), when the slot holds one (5) or when the OTP write fails (6). The completion shows the result and reports event 0x2C03. TOP_SEAL_CMD starts sealing, and its completion makes the state Sealed or leaves it. A write of HIF_ERR_CAP.valid re-arms capture and clears the count. Rests on 19_tenants_security.md (R428, R429, R430, R431, R454, R455, R456); 03_host_and_registers.md (R83). -/
def Obligations.AllocationsAndSealsAct : Prop :=
  (∀ (s : State) (ok : Bool) (a : Alloc),
      s.accepts (secA 0x044) 1 →
      s.allocList.length = 16 →
      a = allocOf s.allocList →
      a.kind = 0x0B ∧ a.count = 1 →
      s.allocCheck s.allocList ok = 1 →
      ∃ t, exec (.secAllocate ok) s = .next t ∧
        t.sec.allocs = [a] ∧
        t.b (secA 0x040) 8 = true ∧
        t.itemOwner (.seqGen a.unit_ a.first) = a.dom ∧
        WinBut (seqA a.unit_ a.first + 3) 1 s t ∧
        t.rd (secA 0x048) = word (2 ^ 31) ∧
        t.sec.bell = (1, 0, 1) ∧
        FlowKept s t ∧
        RegsOut [0x0B] s t ∧
        MemKept s t) ∧
  (∀ (s : State) (ok : Bool),
      s.accepts (secA 0x044) 1 →
      s.allocCheck s.allocList ok = 1 →
      ∃ t, exec (.secAllocate ok) s = .next t ∧
        t.sec.allocs = (List.range (s.allocList.length / 16)).map (fun n => allocOf (slice s.allocList (16 * n) 16)) ∧
        t.b (secA 0x040) 8 = true ∧
        t.rd (secA 0x048) = word (2 ^ 31) ∧
        t.sec.bell = (1, 0, 1) ∧
        MemKept s t) ∧
  (∀ (s : State),
      s.accepts (secA 0x044) 1 →
      s.sealState = 0 →
      s.sec.gen < s.sec.otp.length →
      s.allocCheck s.allocList true = 1 →
      ∃ t, exec (.secAllocate true) s = .next t ∧
        t.sealState = 1 ∧
        t.otpNow.digest = s.allocDigest s.allocList ∧
        t.b (secA 0x040) 8 = true ∧
        t.sec.bell = (1, 0, 1)) ∧
  (∀ (s : State) (ok : Bool),
      s.accepts (secA 0x044) 1 →
      s.allocCheck s.allocList ok ≠ 1 →
      ∃ t, exec (.secAllocate ok) s = .next t ∧
        t.sec.bell = (1, 0, s.allocCheck s.allocList ok) ∧
        t.rd (secA 0x048) = word (2 ^ 31) ∧
        t.sec.allocs = s.sec.allocs ∧
        t.sec.otp = s.sec.otp ∧
        FlowKept s t ∧
        RegsBut [secA 0x044, secA 0x048] s t ∧
        WinKept s t ∧
        MemKept s t) ∧
  (∀ (s : State) (slot : Dom) (alg : BitVec 2),
      s.accepts (secA 0x044) (word (2 + slot.val * 256 + alg.toNat * 4096)) →
      s.sealState ≠ 2 →
      s.sec.gen < s.sec.otp.length →
      s.otpNow.roots.at [] slot.val = [] →
      ∃ t, exec (.secProgramRootHash slot alg true) s = .next t ∧
        t.otpNow.roots.at [] slot.val = (List.range 12).flatMap (fun (w : Nat) => beBytes 4 (s.rd (secA (0x140 + 4 * w))).toNat) ∧
        t.otpNow.algs.at 0 slot.val = alg.toNat ∧
        t.sec.bell = (2, slot.val, 1) ∧
        t.rd (secA 0x048) = word (2 ^ 31) ∧
        FlowKept s t ∧
        RegsOut [0x0B] s t ∧
        WinKept s t ∧
        MemKept s t) ∧
  (∀ (s : State) (slot : Dom) (alg : BitVec 2) (ok : Bool),
      s.accepts (secA 0x044) (word (2 + slot.val * 256 + alg.toNat * 4096)) →
      s.sealState = 2 →
      ∃ t, exec (.secProgramRootHash slot alg ok) s = .next t ∧
        t.sec.bell = (2, slot.val, 4) ∧
        t.sec.otp = s.sec.otp ∧
        FlowKept s t ∧
        RegsBut [secA 0x044, secA 0x048] s t ∧
        WinKept s t ∧
        MemKept s t) ∧
  (∀ (s : State) (slot : Dom) (alg : BitVec 2) (ok : Bool),
      s.accepts (secA 0x044) (word (2 + slot.val * 256 + alg.toNat * 4096)) →
      s.sealState ≠ 2 →
      (s.otpNow.roots.at [] slot.val ≠ [] ∨ ok = false) →
      ∃ t, exec (.secProgramRootHash slot alg ok) s = .next t ∧
        t.sec.bell = (2, slot.val, if s.otpNow.roots.at [] slot.val ≠ [] then 5 else 6) ∧
        t.sec.otp = s.sec.otp ∧
        FlowKept s t ∧
        RegsBut [secA 0x044, secA 0x048] s t ∧
        WinKept s t ∧
        MemKept s t) ∧
  (∀ (s : State) (op slot r : Nat),
      s.b (secA 0x048) 31 = true →
      s.sec.bell = (op, slot, r) →
      ∃ t, exec (.doorbellComplete) s = .next t ∧
        t.rd (secA 0x048) = word r ∧
        t.raised 11 0x2C03 ∧
        t.b (secA 0x008) 2 = true ∧
        FlowKept s t ∧
        RegsBut [secA 0x048, secA 0x008] s t ∧
        WinKept s t ∧
        MemKept s t) ∧
  (∀ (s : State),
      s.accepts (topA 0x340) 1 →
      ∃ t, exec (.seal) s = .next t ∧
        t.rd (topA 0x344) = word (2 ^ 31) ∧
        t.sec.otp = s.sec.otp ∧
        FlowKept s t ∧
        RegsBut [topA 0x340, topA 0x344] s t ∧
        WinKept s t ∧
        MemKept s t) ∧
  (∀ (s : State),
      s.b (topA 0x344) 31 = true →
      s.sec.gen < s.sec.otp.length →
      ∃ t, exec (.sealComplete true) s = .next t ∧
        t.sealState = 2 ∧
        t.otpNow.fuses = 2 ∧
        t.rd (topA 0x344) = 1 ∧
        t.raised 0 0x0014 ∧
        FlowKept s t ∧
        RegsOut [0x00, 0x0B] s t ∧
        WinKept s t ∧
        MemKept s t) ∧
  (∀ (s : State),
      s.b (topA 0x344) 31 = true →
      ∃ t, exec (.sealComplete false) s = .next t ∧
        t.rd (topA 0x344) = 2 ∧
        t.sec.otp = s.sec.otp ∧
        FlowKept s t ∧
        RegsBut [topA 0x344] s t ∧
        WinKept s t ∧
        MemKept s t) ∧
  (∀ (s : State),
      s.accepts (hifA 0x048) (word (2 ^ 31)) →
      ∃ t, exec (.hifErrCapClear) s = .next t ∧
        t.b (hifA 0x048) 31 = false ∧
        t.rd (hifA 0x054) = 0 ∧
        FlowKept s t ∧
        RegsBut [hifA 0x048, hifA 0x054] s t ∧
        WinKept s t ∧
        MemKept s t)

/-- MSC_IND_READ and MSC_IND_WRITE, accepted, set busy with the target and index. MSC_IND_DONE ends the access in progress: a read shows the entry with the key bytes of an SA as zeros, a write of an SC entry that the host owns stores it, and a write of another's entry is refused with err 2 and changes nothing but the result. Rests on 19_tenants_security.md (R427, R443, R451, R452). -/
def Obligations.MacsecTablesAreReached : Prop :=
  (∀ (s : State) (q : Quad) (g : Fin 4) (i : BitVec 9),
      s.accepts (mscA q.val 0x048) (word (2 ^ 24 + g.val * 65536 + i.toNat)) →
      ∃ t, exec (.mscIndRead q g i) s = .next t ∧
        t.b (mscA q.val 0x048) 31 = true ∧
        t.f (mscA q.val 0x048) 17 16 = g.val ∧
        t.f (mscA q.val 0x048) 8 0 = i.toNat ∧
        t.b (mscA q.val 0x048) 20 = false ∧
        t.sec.msc = s.sec.msc ∧
        FlowKept s t ∧
        RegsBut [mscA q.val 0x048] s t ∧
        WinKept s t ∧
        MemKept s t) ∧
  (∀ (s : State) (q : Quad) (g : Fin 4) (i : BitVec 9),
      s.accepts (mscA q.val 0x048) (word (2 ^ 24 + 2 ^ 20 + g.val * 65536 + i.toNat)) →
      ∃ t, exec (.mscIndWrite q g i) s = .next t ∧
        t.b (mscA q.val 0x048) 31 = true ∧
        t.f (mscA q.val 0x048) 17 16 = g.val ∧
        t.f (mscA q.val 0x048) 8 0 = i.toNat ∧
        t.b (mscA q.val 0x048) 20 = true ∧
        t.sec.msc = s.sec.msc ∧
        FlowKept s t ∧
        RegsBut [mscA q.val 0x048] s t ∧
        WinKept s t ∧
        MemKept s t) ∧
  (∀ (s : State) (q : Quad) (i : Nat),
      s.b (mscA q.val 0x048) 31 = true →
      s.b (mscA q.val 0x048) 20 = false →
      s.f (mscA q.val 0x048) 17 16 = 2 →
      i = s.f (mscA q.val 0x048) 8 0 →
      i < 256 →
      s.sec.views = [] →
      ∃ t, exec (.mscIndDone q) s = .next t ∧
        t.mscData q.val = (s.mscEnt q.val 2 i).take 32 ++ List.replicate 32 0 ∧
        t.b (mscA q.val 0x048) 31 = false ∧
        t.f (mscA q.val 0x048) 29 28 = 0 ∧
        t.sec.msc = s.sec.msc ∧
        FlowKept s t ∧
        RegsOut [mscPage q.val] s t ∧
        WinKept s t ∧
        MemKept s t) ∧
  (∀ (s : State) (q : Quad) (i : Nat),
      s.b (mscA q.val 0x048) 31 = true →
      s.b (mscA q.val 0x048) 20 = true →
      s.f (mscA q.val 0x048) 17 16 = 0 →
      i = s.f (mscA q.val 0x048) 8 0 →
      i < 256 →
      mscBad 0 (s.mscData q.val) = false →
      s.mscOwner q.val 0 i = 0 →
      scOwner (s.mscData q.val) = 0 →
      ∃ t, exec (.mscIndDone q) s = .next t ∧
        t.mscEnt q.val 0 i = s.mscData q.val ∧
        t.b (mscA q.val 0x048) 31 = false ∧
        t.f (mscA q.val 0x048) 29 28 = 0 ∧
        FlowKept s t ∧
        RegsBut [mscA q.val 0x048] s t ∧
        WinKept s t ∧
        MemKept s t) ∧
  (∀ (s : State) (q : Quad) (i : Nat),
      s.b (mscA q.val 0x048) 31 = true →
      s.b (mscA q.val 0x048) 20 = true →
      s.f (mscA q.val 0x048) 17 16 = 0 →
      i = s.f (mscA q.val 0x048) 8 0 →
      i < 256 →
      mscBad 0 (s.mscData q.val) = false →
      s.mscOwner q.val 0 i ≠ 0 →
      ∃ t, exec (.mscIndDone q) s = .next t ∧
        t.sec.msc = s.sec.msc ∧
        t.f (mscA q.val 0x048) 29 28 = 2 ∧
        t.b (mscA q.val 0x048) 31 = false ∧
        FlowKept s t ∧
        RegsBut [mscA q.val 0x048] s t ∧
        WinKept s t ∧
        MemKept s t)

/-- While it measures, the bits that close a window (80 samples, or one line cycle of an AC class) add its energy, when it is a whole number of 2^-20 mWh, to the circuit's accumulator, consumed or regenerated by its sign, and nothing while an input is in fault; bits that close no window wait for the rest; an input fault is marked and cleared; the class in force changes on the third second of another class and stands otherwise, and a second not measured whole or with an input in fault is not classified; a checkpoint takes totals and time; a period boundary stores one energy record for the enabled circuit; a record goes to port 65 as a frame while the switch runs; an update writes the window registers; a lost link clears valid and reports event 0x1C03. Rests on 20_neltus_island.md (R465, R466, R467, R468, R469, R470, R471, R472, R474, R478, R483, R484). -/
def Obligations.IslandMeasuresAndRecords : Prop :=
  (∀ (s : State) (c : Fin 4) (vb ib : List Bool) (w : Nat),
      s.islOn = true →
      s.isl.circs.length = 4 →
      s.isl.bitsOk c.val vb ib = true →
      s.isl.windowOf c.val ((s.isl.bitsIn c.val vb ib).streams.at {} c.val).win.length = true →
      windowNum ((s.isl.bitsIn c.val vb ib).streams.at {} c.val).win = ((w * windowDen : Nat) : Int) →
      ∃ t, exec (.islWindowClose c (vb, ib)) s = .next t ∧
        (t.isl.circ c.val).cons = ((s.isl.circ c.val).cons + w) % 2 ^ 64 ∧
        (t.isl.circ c.val).regen = (s.isl.circ c.val).regen ∧
        (t.isl.streams.at {} c.val).win = [] ∧
        ∀ d : Fin 4, d ≠ c → t.isl.circ d.val = s.isl.circ d.val ∧
        t.isl.mram = s.isl.mram ∧
        SwitchKept s t) ∧
  (∀ (s : State) (c : Fin 4) (vb ib : List Bool) (w : Nat),
      s.islOn = true →
      s.isl.circs.length = 4 →
      s.isl.bitsOk c.val vb ib = true →
      s.isl.windowOf c.val ((s.isl.bitsIn c.val vb ib).streams.at {} c.val).win.length = true →
      windowNum ((s.isl.bitsIn c.val vb ib).streams.at {} c.val).win = -(((w + 1) * windowDen : Nat) : Int) →
      ∃ t, exec (.islWindowClose c (vb, ib)) s = .next t ∧
        (t.isl.circ c.val).regen = ((s.isl.circ c.val).regen + (w + 1)) % 2 ^ 64 ∧
        (t.isl.circ c.val).cons = (s.isl.circ c.val).cons ∧
        (t.isl.streams.at {} c.val).win = [] ∧
        ∀ d : Fin 4, d ≠ c → t.isl.circ d.val = s.isl.circ d.val ∧
        t.isl.mram = s.isl.mram ∧
        SwitchKept s t) ∧
  (∀ (s : State) (c : Fin 4) (vb ib : List Bool),
      s.islOn = true →
      s.isl.circs.length = 4 →
      s.isl.bitsOk c.val vb ib = true →
      s.isl.inFault c.val = true →
      (s.isl.streams.at {} c.val).win = [] →
      (s.isl.circ c.val).cons < 2 ^ 64 →
      (s.isl.circ c.val).regen < 2 ^ 64 →
      ∃ t, exec (.islWindowClose c (vb, ib)) s = .next t ∧
        (t.isl.circ c.val).cons = (s.isl.circ c.val).cons ∧
        (t.isl.circ c.val).regen = (s.isl.circ c.val).regen ∧
        (t.isl.circ c.val).fault = true ∧
        ∀ d : Fin 4, d ≠ c → t.isl.circ d.val = s.isl.circ d.val ∧
        t.isl.mram = s.isl.mram ∧
        SwitchKept s t) ∧
  (∀ (s : State) (c : Fin 4) (vb ib : List Bool),
      s.islOn = true →
      s.isl.bitsOk c.val vb ib = false ∨ s.isl.windowOf c.val ((s.isl.bitsIn c.val vb ib).streams.at {} c.val).win.length = false →
      ∃ t, exec (.islWindowClose c (vb, ib)) s = .next t ∧
        t.isl = (if s.isl.bitsOk c.val vb ib then s.isl.bitsIn c.val vb ib else s.isl) ∧
        SwitchKept s t) ∧
  (∀ (s : State) (i : Fin 8) (c : Fin 4),
      s.islOn = true →
      s.isl.circs.length = 4 →
      c.val = i.val / 2 →
      ∃ t, exec (.islInputFault i true) s = .next t ∧
        t.isl.faulty.contains i.val = true ∧
        (t.isl.circ c.val).fault = true ∧
        ∀ d : Fin 4, d ≠ c → t.isl.circ d.val = s.isl.circ d.val ∧
        ∀ j : Fin 8, j ≠ i → t.isl.faulty.contains j.val = s.isl.faulty.contains j.val ∧
        SwitchKept s t) ∧
  (∀ (s : State) (i : Fin 8),
      s.islOn = true →
      ∃ t, exec (.islInputFault i false) s = .next t ∧
        t.isl.faulty.contains i.val = false ∧
        t.isl.circs = s.isl.circs ∧
        ∀ j : Fin 8, j ≠ i → t.isl.faulty.contains j.val = s.isl.faulty.contains j.val ∧
        SwitchKept s t) ∧
  (∀ (s : State) (c : Fin 4) (bits : List (List Bool × List Bool)) (k : Nat),
      s.islOn = true →
      s.isl.circs.length = 4 →
      (s.isl.streams.at {} c.val).whole = true →
      (s.isl.streams.at {} c.val).bad = false →
      s.isl.inFault c.val = false →
      (((if s.isl.bitsOk c.val (bits.getD c.val ([], [])).1 (bits.getD c.val ([], [])).2 then s.isl.bitsIn c.val (bits.getD c.val ([], [])).1 (bits.getD c.val ([], [])).2 else s.isl).streams.at {} c.val).sec.map (fun p => p.1)) ≠ [] →
      k = classOf (((if s.isl.bitsOk c.val (bits.getD c.val ([], [])).1 (bits.getD c.val ([], [])).2 then s.isl.bitsIn c.val (bits.getD c.val ([], [])).1 (bits.getD c.val ([], [])).2 else s.isl).streams.at {} c.val).sec.map (fun p => p.1)) →
      k ≠ (s.isl.circ c.val).cls →
      (s.isl.circ c.val).cand = k ∧ (s.isl.circ c.val).candN = 2 →
      ∃ t, exec (.islSecondClassify bits) s = .next t ∧
        (t.isl.circ c.val).cls = k ∧
        (t.isl.circ c.val).candN = 0 ∧
        (t.isl.circ c.val).live = min 65535 ((s.isl.circ c.val).live + 1) ∧
        (t.isl.circ c.val).cons = (s.isl.circ c.val).cons ∧
        SwitchKept s t) ∧
  (∀ (s : State) (c : Fin 4) (bits : List (List Bool × List Bool)) (k : Nat),
      s.islOn = true →
      s.isl.circs.length = 4 →
      (s.isl.streams.at {} c.val).whole = true →
      (s.isl.streams.at {} c.val).bad = false →
      s.isl.inFault c.val = false →
      (((if s.isl.bitsOk c.val (bits.getD c.val ([], [])).1 (bits.getD c.val ([], [])).2 then s.isl.bitsIn c.val (bits.getD c.val ([], [])).1 (bits.getD c.val ([], [])).2 else s.isl).streams.at {} c.val).sec.map (fun p => p.1)) ≠ [] →
      k = classOf (((if s.isl.bitsOk c.val (bits.getD c.val ([], [])).1 (bits.getD c.val ([], [])).2 then s.isl.bitsIn c.val (bits.getD c.val ([], [])).1 (bits.getD c.val ([], [])).2 else s.isl).streams.at {} c.val).sec.map (fun p => p.1)) →
      k ≠ (s.isl.circ c.val).cls →
      (s.isl.circ c.val).cand ≠ k ∨ (s.isl.circ c.val).candN < 2 →
      ∃ t, exec (.islSecondClassify bits) s = .next t ∧
        (t.isl.circ c.val).cls = (s.isl.circ c.val).cls ∧
        (t.isl.circ c.val).cand = k ∧
        (t.isl.circ c.val).live = min 65535 ((s.isl.circ c.val).live + 1) ∧
        (t.isl.circ c.val).cons = (s.isl.circ c.val).cons ∧
        SwitchKept s t) ∧
  (∀ (s : State) (c : Fin 4) (bits : List (List Bool × List Bool)) (k : Nat),
      s.islOn = true →
      s.isl.circs.length = 4 →
      (s.isl.streams.at {} c.val).whole = true →
      (s.isl.streams.at {} c.val).bad = false →
      s.isl.inFault c.val = false →
      (((if s.isl.bitsOk c.val (bits.getD c.val ([], [])).1 (bits.getD c.val ([], [])).2 then s.isl.bitsIn c.val (bits.getD c.val ([], [])).1 (bits.getD c.val ([], [])).2 else s.isl).streams.at {} c.val).sec.map (fun p => p.1)) ≠ [] →
      k = classOf (((if s.isl.bitsOk c.val (bits.getD c.val ([], [])).1 (bits.getD c.val ([], [])).2 then s.isl.bitsIn c.val (bits.getD c.val ([], [])).1 (bits.getD c.val ([], [])).2 else s.isl).streams.at {} c.val).sec.map (fun p => p.1)) →
      k = (s.isl.circ c.val).cls →
      ∃ t, exec (.islSecondClassify bits) s = .next t ∧
        (t.isl.circ c.val).cls = k ∧
        (t.isl.circ c.val).candN = 0 ∧
        (t.isl.circ c.val).live = min 65535 ((s.isl.circ c.val).live + 1) ∧
        (t.isl.circ c.val).cons = (s.isl.circ c.val).cons ∧
        SwitchKept s t) ∧
  (∀ (s : State) (c : Fin 4) (bits : List (List Bool × List Bool)),
      s.islOn = true →
      s.isl.circs.length = 4 →
      (s.isl.streams.at {} c.val).whole = false ∨ (s.isl.streams.at {} c.val).bad = true ∨ s.isl.inFault c.val = true →
      ∃ t, exec (.islSecondClassify bits) s = .next t ∧
        (t.isl.circ c.val).cls = (s.isl.circ c.val).cls ∧
        (t.isl.circ c.val).candN = (s.isl.circ c.val).candN ∧
        (t.isl.circ c.val).live = (if (s.isl.streams.at {} c.val).whole then min 65535 ((s.isl.circ c.val).live + 1) else (s.isl.circ c.val).live) ∧
        SwitchKept s t) ∧
  (∀ (s : State),
      s.islOn = true →
      ∃ t, exec (.islCheckpoint) s = .next t ∧
        t.isl.newest.seq = max s.isl.ckA.seq s.isl.ckB.seq + 1 ∧
        t.isl.newest.circs = s.isl.circs ∧
        t.isl.newest.time = s.islNow ∧
        t.isl.newest.period = s.isl.period ∧
        t.isl.mram = s.isl.mram ∧
        SwitchKept s t) ∧
  (∀ (s : State) (ok : Bool),
      s.islOn = true →
      s.isl.circs.length = 4 →
      s.isl.period < periodAt s.islNow →
      s.isl.lost = false →
      s.isl.step = none →
      s.isl.full = false →
      s.isl.made - s.isl.coll < 16000 →
      s.isl.enabled 0 = true →
      s.isl.enabled 1 = false ∧ s.isl.enabled 2 = false ∧ s.isl.enabled 3 = false →
      ∃ t, exec (.islPeriodBoundary ok) s = .next t ∧
        t.isl.made = s.isl.made + 1 ∧
        (ok = false → t.isl.storeBad = true) ∧
        t.isl.period = s.isl.period + 1 ∧
        recAt t ok s.isl.made 0 1 = 0x4E ∧
        recAt t ok s.isl.made 4 4 = s.isl.made % 2 ^ 32 ∧
        recAt t ok s.isl.made 8 4 = s.isl.period % 2 ^ 32 ∧
        recAt t ok s.isl.made 12 5 = (s.isl.circ 0).cons / 2 ^ 20 % 2 ^ 40 ∧
        (t.isl.circ 0).cons = (s.isl.circ 0).cons % 2 ^ 20 ∧
        (t.isl.circ 0).live = 0 ∧
        SwitchKept s t) ∧
  (∀ (s : State) (rec_ : List Byte),
      s.islOn = true →
      s.alive = true →
      s.topState = 2 →
      s.isl.sent < s.isl.made →
      s.isl.recordOf s.isl.sent = some rec_ →
      rec_.length = 128 →
      s.stageHeld 4 = 0 →
      ∃ t, exec (.islRecordSend) s = .next t ∧
        t.isl.sent = s.isl.sent + 1 ∧
        (t.frame s.nextId).src = 65 ∧
        (t.frame s.nextId).place = Place.staged ∧
        slice (t.frame s.nextId).bytes 36 128 = rec_ ∧
        beAt (t.frame s.nextId).bytes 16 2 = 0x88B6 ∧
        t.isl.mram = s.isl.mram ∧
        t.copies = s.copies ∧
        RegsOut [0x0F] s t ∧
        WinKept s t ∧
        MemKept s t) ∧
  (∀ (s : State) (calLow : Bool) (mv : BitVec 13) (ups : BitVec 12),
      s.islOn = true →
      s.alive = true →
      ∃ t, exec (.islStatusUpdate calLow mv ups) s = .next t ∧
        t.rd (islA 0x040) = word (s.islStatus calLow) ∧
        t.rd (islA 0x044) = s.rd (islA 0x044) + 1 ∧
        t.rd (islA 0x048) = word (s.isl.made - 1) ∧
        t.rd (islA 0x04C) = word (s.isl.sent - 1) ∧
        t.rd (islA 0x050) = word (s.isl.coll - 1) ∧
        t.rd (islA 0x058) = word (s.islNow / secNs) ∧
        t.f (islA 0x064) 12 0 = mv.toNat ∧
        t.isl = s.isl ∧
        FlowKept s t ∧
        RegsOut [0x07] s t ∧
        WinKept s t ∧
        MemKept s t) ∧
  (∀ (s : State),
      s.alive = true →
      s.b (islA 0x040) 31 = true →
      ∃ t, exec (.islLinkTimeout) s = .next t ∧
        t.b (islA 0x040) 31 = false ∧
        t.raised 7 0x1C03 ∧
        t.isl = s.isl ∧
        FlowKept s t ∧
        RegsBut [islA 0x040, islA 0x008] s t ∧
        WinKept s t ∧
        MemKept s t)

/-- A mailbox frame that passes R475 is taken and counted: a time 2 to 60 s off becomes the step to come, a nearer one changes nothing, one after lost time sets the clock and records event 0x0005; a location and a collection are kept; a configuration takes effect with event 0x000A; a digest arms the seal. A frame that fails is counted rejected. ISL_CAL_N rising while armed fuses a generation with event 0x0007; 60 s disarm; ISL_CAL_N low breaks the seal with event 0x0006. Hold, the end of hold, a cold start (event 0x0001) and a watchdog reset (event 0x0002) act on clock and totals as R477 and R479 say. Rests on 20_neltus_island.md (R473, R475, R476, R477, R478, R479, R480, R481, R482). -/
def Obligations.IslandTakesTimeAndSeals : Prop :=
  (∀ (s : State) (bs : List Byte) (rest : List (List Byte)) (b : List Byte) (cal : Bool) (d : Int) (ok : Bool),
      s.islOn = true →
      s.isl.inbox = bs :: rest →
      mailPayload bs = some b →
      s.mailCheck cal (some b) = 0 →
      beAt b 0 1 = 2 →
      beAt b 1 1 = 1 →
      s.isl.sealed_ = true ∨ cal = false →
      s.isl.lost = false →
      d = ((beAt b 2 6 * secNs + beAt b 8 4 : Nat) : Int) - (s.islNow : Int) →
      2 * secNs ≤ d.natAbs ∧ d.natAbs ≤ 60 * secNs →
      s.isl.lastStep = none →
      ∃ t, exec (.islMailboxTime cal ok) s = .next t ∧
        t.isl.inbox = rest ∧
        t.isl.accepted = min 65535 (s.isl.accepted + 1) ∧
        t.isl.lastOk = some s.clk ∧
        t.isl.step = some d ∧
        t.islNow = s.islNow ∧
        t.isl.mram = s.isl.mram ∧
        SwitchKept s t) ∧
  (∀ (s : State) (bs : List Byte) (rest : List (List Byte)) (b : List Byte) (cal : Bool) (d : Int) (ok : Bool),
      s.islOn = true →
      s.isl.inbox = bs :: rest →
      mailPayload bs = some b →
      s.mailCheck cal (some b) = 0 →
      beAt b 0 1 = 2 →
      beAt b 1 1 = 1 →
      s.isl.sealed_ = true ∨ cal = false →
      s.isl.lost = false →
      d = ((beAt b 2 6 * secNs + beAt b 8 4 : Nat) : Int) - (s.islNow : Int) →
      d.natAbs < 2 * secNs →
      ∃ t, exec (.islMailboxTime cal ok) s = .next t ∧
        t.isl.inbox = rest ∧
        t.isl.accepted = min 65535 (s.isl.accepted + 1) ∧
        t.isl.lastOk = some s.clk ∧
        t.isl.step = s.isl.step ∧
        t.islNow = s.islNow ∧
        t.isl.mram = s.isl.mram ∧
        SwitchKept s t) ∧
  (∀ (s : State) (bs : List Byte) (rest : List (List Byte)) (b : List Byte) (cal : Bool) (n : Nat) (ok : Bool),
      s.islOn = true →
      s.isl.inbox = bs :: rest →
      mailPayload bs = some b →
      s.mailCheck cal (some b) = 0 →
      beAt b 0 1 = 2 →
      beAt b 1 1 = 1 →
      s.isl.sealed_ = true ∨ cal = false →
      s.isl.lost = true →
      n = beAt b 2 6 * secNs + beAt b 8 4 →
      s.isl.full = false →
      s.isl.made - s.isl.coll < 16000 →
      s.isl.enabled 0 = false ∧ s.isl.enabled 1 = false ∧ s.isl.enabled 2 = false ∧ s.isl.enabled 3 = false →
      ∃ t, exec (.islMailboxTime cal ok) s = .next t ∧
        t.isl.inbox = rest ∧
        t.isl.accepted = min 65535 (s.isl.accepted + 1) ∧
        t.isl.lastOk = some s.clk ∧
        t.isl.lost = false ∧
        t.islNow = n ∧
        t.isl.period = periodAt n ∧
        EventStored s t ok 5 ∧
        SwitchKept s t) ∧
  (∀ (s : State) (bs : List Byte) (rest : List (List Byte)) (b : List Byte) (cal : Bool) (ok : Bool),
      s.islOn = true →
      s.isl.inbox = bs :: rest →
      mailPayload bs = some b →
      s.mailCheck cal (some b) = 0 →
      beAt b 0 1 = 2 →
      beAt b 1 1 = 2 →
      ∃ t, exec (.islMailboxTime cal ok) s = .next t ∧
        t.isl.inbox = rest ∧
        t.isl.accepted = min 65535 (s.isl.accepted + 1) ∧
        t.isl.lastOk = some s.clk ∧
        t.isl.loc = some (beAt b 12 3, beAt b 15 3, s.islNow / secNs) ∧
        t.islNow = s.islNow ∧
        t.isl.mram = s.isl.mram ∧
        SwitchKept s t) ∧
  (∀ (s : State) (bs : List Byte) (rest : List (List Byte)) (b : List Byte) (cal : Bool) (ok : Bool),
      s.islOn = true →
      s.isl.inbox = bs :: rest →
      mailPayload bs = some b →
      s.mailCheck cal (some b) = 0 →
      beAt b 0 1 = 2 →
      beAt b 1 1 = 8 →
      s.isl.full = false →
      ∃ t, exec (.islMailboxTime cal ok) s = .next t ∧
        t.isl.inbox = rest ∧
        t.isl.accepted = min 65535 (s.isl.accepted + 1) ∧
        t.isl.lastOk = some s.clk ∧
        t.isl.coll = max s.isl.coll (beAt b 22 4 + 1) ∧
        t.islNow = s.islNow ∧
        t.isl.mram = s.isl.mram ∧
        SwitchKept s t) ∧
  (∀ (s : State) (bs : List Byte) (rest : List (List Byte)) (b : List Byte) (cal : Bool) (ok : Bool),
      s.islOn = true →
      s.isl.inbox = bs :: rest →
      mailPayload bs = some b →
      s.mailCheck cal (some b) ≠ 0 →
      ∃ t, exec (.islMailboxTime cal ok) s = .next t ∧
        t.isl.inbox = rest ∧
        t.isl.rejected = min 65535 (s.isl.rejected + 1) ∧
        t.isl.accepted = s.isl.accepted ∧
        t.islNow = s.islNow ∧
        t.isl.cfg = s.isl.cfg ∧ t.isl.step = s.isl.step ∧ t.isl.coll = s.isl.coll ∧
        t.isl.mram = s.isl.mram ∧
        SwitchKept s t) ∧
  (∀ (s : State) (bs : List Byte) (rest : List (List Byte)) (b : List Byte) (cal : Bool) (ok : Bool),
      s.islOn = true →
      s.isl.inbox = bs :: rest →
      mailPayload bs = some b →
      s.mailCheck cal (some b) = 0 →
      beAt b 0 1 = 3 →
      s.isl.full = false →
      s.isl.made - s.isl.coll < 16000 →
      ∃ t, exec (.islMailboxCalibration cal ok) s = .next t ∧
        t.isl.inbox = rest ∧
        t.isl.accepted = min 65535 (s.isl.accepted + 1) ∧
        t.isl.lastOk = some s.clk ∧
        t.isl.cfg = slice b 1 128 ∧
        t.islNow = s.islNow ∧
        EventStored s t ok 0x0A ∧
        SwitchKept s t) ∧
  (∀ (s : State) (bs : List Byte) (rest : List (List Byte)) (b : List Byte) (cal : Bool),
      s.islOn = true →
      s.isl.inbox = bs :: rest →
      mailPayload bs = some b →
      s.mailCheck cal (some b) = 0 →
      beAt b 0 1 = 4 →
      slice b 1 48 = Crypto.sha384 s.isl.cfg →
      s.isl.gens < 4 →
      ∃ t, exec (.islMailboxSealArm cal) s = .next t ∧
        t.isl.inbox = rest ∧
        t.isl.accepted = min 65535 (s.isl.accepted + 1) ∧
        t.isl.lastOk = some s.clk ∧
        t.isl.armedAt = some s.clk ∧
        t.isl.sealed_ = s.isl.sealed_ ∧
        t.isl.mram = s.isl.mram ∧
        SwitchKept s t) ∧
  (∀ (s : State) (bs : List Byte) (rest : List (List Byte)) (b : List Byte) (cal : Bool),
      s.islOn = true →
      s.isl.inbox = bs :: rest →
      mailPayload bs = some b →
      s.mailCheck cal (some b) = 0 →
      beAt b 0 1 = 4 →
      slice b 1 48 ≠ Crypto.sha384 s.isl.cfg →
      ∃ t, exec (.islMailboxSealArm cal) s = .next t ∧
        t.isl.inbox = rest ∧
        t.isl.accepted = min 65535 (s.isl.accepted + 1) ∧
        t.isl.lastOk = some s.clk ∧
        t.isl.armedAt = s.isl.armedAt ∧
        t.isl.mram = s.isl.mram ∧
        SwitchKept s t) ∧
  (∀ (s : State) (a : Nat) (ok : Bool),
      s.islOn = true →
      s.isl.armedAt = some a →
      s.isl.sealed_ = false →
      s.isl.gens < 4 →
      s.clk ≤ a + seconds 60 →
      s.isl.full = false →
      s.isl.made - s.isl.coll < 16000 →
      ∃ t, exec (.islSealFuse ok) s = .next t ∧
        t.isl.sealed_ = true ∧
        t.isl.gens = s.isl.gens + 1 ∧
        t.isl.armedAt = none ∧
        (t.isl.secrets.at [] s.isl.gens).length = 48 ∧
        t.isl.cfg = s.isl.cfg ∧
        EventStored s t ok 7 ∧
        SwitchKept s t) ∧
  (∀ (s : State),
      ∃ t, exec (.islSealArmLapse) s = .next t ∧
        t.isl.armedAt = none ∧
        t.isl.sealed_ = s.isl.sealed_ ∧
        t.isl.mram = s.isl.mram ∧
        SwitchKept s t) ∧
  (∀ (s : State) (ok : Bool),
      s.islOn = true →
      s.isl.sealed_ = true →
      s.isl.full = false →
      s.isl.made - s.isl.coll < 16000 →
      ∃ t, exec (.islSealBreak ok) s = .next t ∧
        t.isl.sealed_ = false ∧
        t.isl.gens = s.isl.gens ∧
        EventStored s t ok 6 ∧
        SwitchKept s t) ∧
  (∀ (s : State),
      s.islOn = true →
      ∃ t, exec (.islHoldEnter) s = .next t ∧
        t.isl.hold = true ∧
        t.isl.holds = min 65535 (s.isl.holds + 1) ∧
        t.isl.newest.circs = t.isl.circs ∧
        ((∀ c : Fin 4, (s.isl.streams.at {} c.val).win = []) → t.isl.circs = s.isl.circs) ∧
        t.isl.newest.time = s.islNow ∧
        t.isl.mram = s.isl.mram ∧
        SwitchKept s t) ∧
  (∀ (s : State) (ok : Bool),
      s.isl.run = true →
      s.isl.hold = true →
      periodAt s.islNow ≤ s.isl.period →
      ∃ t, exec (.islHoldExit ok) s = .next t ∧
        t.isl.hold = false ∧
        t.isl.period = s.isl.period ∧
        t.isl.circs = s.isl.circs ∧
        t.isl.mram = s.isl.mram ∧
        SwitchKept s t) ∧
  (∀ (s : State) (ok : Bool),
      s.isl.run = true →
      s.isl.hold = true →
      s.isl.circs.length = 4 →
      periodAt s.islNow = s.isl.period + 1 →
      s.isl.lost = false →
      s.isl.step = none →
      s.isl.full = false →
      s.isl.made - s.isl.coll < 16000 →
      s.isl.enabled 0 = true →
      s.isl.enabled 1 = false ∧ s.isl.enabled 2 = false ∧ s.isl.enabled 3 = false →
      ∃ t, exec (.islHoldExit ok) s = .next t ∧
        t.isl.hold = false ∧
        t.isl.period = s.isl.period + 1 ∧
        t.isl.made = s.isl.made + 1 ∧
        (ok = false → t.isl.storeBad = true) ∧
        recAt t ok s.isl.made 8 4 = s.isl.period % 2 ^ 32 ∧
        SwitchKept s t) ∧
  (∀ (s : State) (ok : Bool),
      s.isl.full = false →
      s.isl.made - s.isl.coll < 16000 →
      ∃ t, exec (.islColdStart ok) s = .next t ∧
        t.isl.run = true ∧ t.isl.hold = false ∧ t.isl.lost = true ∧
        t.islNow = s.isl.newest.time ∧
        t.isl.circs.map (fun (ci : IslCirc) => (ci.cons, ci.regen)) = s.isl.newest.circs.map (fun (ci : IslCirc) => (ci.cons, ci.regen)) ∧
        t.isl.inbox = [] ∧
        EventStored s t ok 1 ∧
        SwitchKept s t) ∧
  (∀ (s : State) (ok : Bool),
      s.islOn = true →
      s.isl.full = false →
      s.isl.made - s.isl.coll < 16000 →
      ∃ t, exec (.islWatchdogReset ok) s = .next t ∧
        t.isl.hold = false ∧
        t.islNow = s.islNow ∧
        t.isl.circs = s.isl.newest.circs ∧
        t.isl.period = s.isl.period ∧
        EventStored s t ok 2 ∧
        SwitchKept s t)

/-- An accepted wire write of SESS op open opens a session and notes the time; op close, and the idle time, close it, resume the pipelines and lock the port; a word pushed joins the response; op unlock of a good response unlocks with the taint and event 0x1801, else counts a failure with event 0x1802, and in both cases empties the response and draws a new challenge; DBG_HALT sets the halted pipelines; a step of a stage with a token and no program moves it to the free next stage, and of an empty stage sets step_err; a token select copies the token's parse result. A JTAG instruction acts as itself when it is IDCODE (which reads 0xA6400C2F) or SAMPLE/PRELOAD, or EXTEST, CLAMP or HIGHZ in factory test mode or while the device is Open, else as BYPASS; resets of receiver and scan port start them again. Rests on 24_debug_port.md (R548, R549, R551, R552, R554, R555, R556, R560). -/
def Obligations.ProbeOpensHaltsAndSteps : Prop :=
  (∀ (s : State),
      s.wireAccepts 0x044 1 →
      s.tenantSas = [] →
      ∃ t, exec (.dbgSessionOpen) s = .next t ∧
        t.dbgOpen = true ∧
        t.dbg.lastAt = s.clk ∧
        t.sec = s.sec ∧
        FlowKept s t ∧
        RegsBut [dbgA 0x040, dbgA 0x044] s t ∧
        WinKept s t ∧
        MemKept s t) ∧
  (∀ (s : State),
      s.wireAccepts 0x044 2 →
      s.dbgOpen = true →
      s.b (dbgA 0x068) 31 = false →
      ∃ t, exec (.dbgSessionClose) s = .next t ∧
        t.dbgOpen = false ∧
        t.b (dbgA 0x040) 0 = true ∧
        t.f (dbgA 0x058) 4 0 = 0 ∧
        ∀ i : Fin 8, t.b (dbgA (0x100 + 16 * i.val)) 0 = false ∧
        FlowKept s t ∧
        RegsOut [0x06] s t ∧
        WinKept s t ∧
        MemKept s t) ∧
  (∀ (s : State),
      s.alive = true →
      s.dbgOpen = true →
      s.b (dbgA 0x068) 31 = false →
      ∃ t, exec (.dbgIdleTimeout) s = .next t ∧
        t.dbgOpen = false ∧
        t.b (dbgA 0x040) 0 = true ∧
        t.f (dbgA 0x058) 4 0 = 0 ∧
        t.raised 6 0x1804 ∧
        FlowKept s t ∧
        RegsOut [0x06] s t ∧
        WinKept s t ∧
        MemKept s t) ∧
  (∀ (s : State) (w : Word),
      s.wireAccepts 0x04C w →
      s.f (dbgA 0x050) 9 0 < 1023 →
      ∃ t, exec (.dbgRespPush w) s = .next t ∧
        t.dbg.resp = s.dbg.resp ++ beBytes 4 w.toNat ∧
        t.f (dbgA 0x050) 9 0 = s.f (dbgA 0x050) 9 0 + 1 ∧
        FlowKept s t ∧
        RegsBut [dbgA 0x04C, dbgA 0x050] s t ∧
        WinKept s t ∧
        MemKept s t) ∧
  (∀ (s : State),
      s.wireAccepts 0x044 3 →
      s.sec.gen < s.sec.otp.length →
      ∃ t, exec (.dbgUnlock) s = .next t ∧
        s.unlockOk = true → t.b (dbgA 0x040) 0 = false ∧ t.otpNow.taint = true ∧ t.raised 6 0x1801 ∧
        s.unlockOk = false → t.b (dbgA 0x040) 0 = s.b (dbgA 0x040) 0 ∧ t.dbg.fails = s.dbg.fails + 1 ∧ t.sec = s.sec ∧ t.raised 6 0x1802 ∧
        t.dbg.resp = [] ∧ t.f (dbgA 0x050) 9 0 = 0 ∧
        t.dbg.chal = (s.random 48).1 ∧
        FlowKept s t ∧
        RegsOut [0x06, 0x0B] s t ∧
        WinKept s t ∧
        MemKept s t) ∧
  (∀ (s : State) (h : BitVec 5),
      s.wireAccepts 0x054 (word h.toNat) →
      ∀ j : Fin 4, s.b (dbgA (0x180 + 16 * j.val)) 0 = false →
      ∃ t, exec (.dbgHaltWrite h) s = .next t ∧
        t.f (dbgA 0x058) 4 0 = h.toNat ∧
        FlowKept s t ∧
        RegsBut [dbgA 0x054, dbgA 0x058] s t ∧
        WinKept s t ∧
        MemKept s t) ∧
  (∀ (s : State) (k : Group) (n : Fin 11) (f : Frame),
      s.wireAccepts 0x05C (word (k.val + n.val * 256)) →
      s.regionDown k.val = false →
      s.stageToken k.val n.val = some f →
      (s.stageToken k.val (n.val + 1)).isNone = true →
      s.frame f.id = f →
      f.held = false →
      s.stageProgs k.val n.val f.version = [] →
      ∃ t, exec (.dbgStep (BitVec.ofNat 3 k.val) (BitVec.ofNat 4 n.val)) s = .next t ∧
        t.frame f.id = { f with place := Place.stage (n.val + 1) } ∧
        t.b (dbgA 0x058) 8 = false ∧
        t.copies = s.copies ∧ t.eframes = s.eframes ∧ t.glf = s.glf ∧
        RegsBut [dbgA 0x05C] s t ∧
        WinKept s t ∧
        MemKept s t) ∧
  (∀ (s : State) (k : Group) (n : Fin 12),
      s.wireAccepts 0x05C (word (k.val + n.val * 256)) →
      (s.stageToken k.val n.val).isNone = true →
      ∃ t, exec (.dbgStep (BitVec.ofNat 3 k.val) (BitVec.ofNat 4 n.val)) s = .next t ∧
        t.b (dbgA 0x058) 8 = true ∧
        FlowKept s t ∧
        RegsBut [dbgA 0x05C] s t ∧
        WinKept s t ∧
        MemKept s t) ∧
  (∀ (s : State) (k : Group) (n : Fin 12) (f : Frame),
      s.wireAccepts 0x078 (word (k.val + n.val * 256)) →
      s.stageToken k.val n.val = some f →
      ∃ t, exec (.dbgTokenSelect (BitVec.ofNat 3 k.val) (BitVec.ofNat 4 n.val)) s = .next t ∧
        ∀ w : Fin 12, t.rd (dbgA (0x0D0 + 4 * w.val)) = word (leAt f.parseBytes (4 * w.val) 4) ∧
        FlowKept s t ∧
        RegsOut [0x06] s t ∧
        WinKept s t ∧
        MemKept s t) ∧
  (∀ (s : State) (b : Byte),
      s.alive = true →
      ∃ t, exec (.jtagInstruction b) s = .next t ∧
        t.dbg.jtag = (if b = 1 ∨ b = 2 ∨ ((b = 0 ∨ b = 4 ∨ b = 5) ∧ (s.topState = 6 ∨ s.sealState = 0)) then b.toNat else 0xFF) ∧
        t.out = s.out ++ (if b = 1 then [Out.jtagId 0xA6400C2F] else []) ∧
        FlowKept s t ∧
        RegsBut [] s t ∧
        WinKept s t ∧
        MemKept s t) ∧
  (∀ (s : State),
      ∃ t, exec (.jtagReset) s = .next t ∧
        t.dbg.jtag = 1 ∧
        FlowKept s t ∧
        RegsBut [] s t ∧
        WinKept s t ∧
        MemKept s t) ∧
  (∀ (s : State),
      ∃ t, exec (.dbgReceiverReset) s = .next t ∧
        t.dbg.rx = [] ∧
        FlowKept s t ∧
        RegsBut [] s t ∧
        WinKept s t ∧
        MemKept s t)

/-- An accepted wire write of DBG_MA_CTL with go sets busy with space, direction and inc. The completion of an HBM access reads or writes the word of a good stack, moves the address on by 4 with inc and clears busy; an access to the cell store reads its word; an address beyond HBM is reported with err 2 and changes no memory. Rests on 24_debug_port.md (R559). -/
def Obligations.ProbeReachesMemory : Prop :=
  (∀ (s : State) (sp : BitVec 3) (inc w : Bool),
      s.wireAccepts 0x068 (word (1 + 2 * b2n w + 16 * b2n inc + 256 * sp.toNat)) →
      s.b (dbgA 0x068) 31 = false →
      ∃ t, exec (.dbgMemAccess sp inc w) s = .next t ∧
        t.b (dbgA 0x068) 31 = true ∧
        t.f (dbgA 0x068) 10 8 = sp.toNat ∧
        t.b (dbgA 0x068) 1 = w ∧
        t.b (dbgA 0x068) 4 = inc ∧
        FlowKept s t ∧
        RegsBut [dbgA 0x068] s t ∧
        WinKept s t ∧
        MemKept s t) ∧
  (∀ (s : State) (a : Nat),
      s.alive = true →
      s.b (dbgA 0x068) 31 = true →
      s.f (dbgA 0x068) 10 8 = 3 →
      s.b (dbgA 0x068) 1 = false →
      s.b (dbgA 0x068) 4 = true →
      a = (s.rd (dbgA 0x070)).toNat * 2 ^ 32 + (s.rd (dbgA 0x06C)).toNat →
      a < 2 ^ 35 ∧ a % 4 = 0 →
      s.hbmBad a = false →
      ∃ t, exec (.dbgMemAccessDone) s = .next t ∧
        t.rd (dbgA 0x074) = word (leVal (s.hbmRd a 4)) ∧
        t.f (dbgA 0x068) 30 28 = 0 ∧
        t.b (dbgA 0x068) 31 = false ∧
        (t.rd (dbgA 0x070)).toNat * 2 ^ 32 + (t.rd (dbgA 0x06C)).toNat = a + 4 ∧
        FlowKept s t ∧
        RegsBut [dbgA 0x068, dbgA 0x06C, dbgA 0x070, dbgA 0x074] s t ∧
        WinKept s t ∧
        MemKept s t) ∧
  (∀ (s : State) (a : Nat),
      s.alive = true →
      s.b (dbgA 0x068) 31 = true →
      s.f (dbgA 0x068) 10 8 = 3 →
      s.b (dbgA 0x068) 1 = true →
      s.b (dbgA 0x068) 4 = false →
      a = (s.rd (dbgA 0x070)).toNat * 2 ^ 32 + (s.rd (dbgA 0x06C)).toNat →
      a < 2 ^ 35 ∧ a % 4 = 0 →
      s.hbmBad a = false →
      ∃ t, exec (.dbgMemAccessDone) s = .next t ∧
        t.hbmRd a 4 = leBytes 4 (s.rd (dbgA 0x074)).toNat ∧
        HbmBut a 4 s t ∧
        t.f (dbgA 0x068) 30 28 = 0 ∧
        t.b (dbgA 0x068) 31 = false ∧
        FlowKept s t ∧
        RegsBut [dbgA 0x068] s t ∧
        WinKept s t) ∧
  (∀ (s : State) (w : Nat),
      s.alive = true →
      s.b (dbgA 0x068) 31 = true →
      s.f (dbgA 0x068) 10 8 = 4 →
      s.b (dbgA 0x068) 1 = false →
      s.f (dbgA 0x070) 6 0 = 30 →
      w = (s.rd (dbgA 0x06C)).toNat →
      w < 5 * 16384 * 64 →
      ∃ t, exec (.dbgMemAccessDone) s = .next t ∧
        t.rd (dbgA 0x074) = word (leVal (readBytes s.sram (4 * w) 4)) ∧
        t.f (dbgA 0x068) 30 28 = 0 ∧
        t.b (dbgA 0x068) 31 = false ∧
        FlowKept s t ∧
        WinKept s t ∧
        MemKept s t) ∧
  (∀ (s : State) (a : Nat),
      s.alive = true →
      s.b (dbgA 0x068) 31 = true →
      s.f (dbgA 0x068) 10 8 = 3 →
      s.b (dbgA 0x068) 4 = false →
      a = (s.rd (dbgA 0x070)).toNat * 2 ^ 32 + (s.rd (dbgA 0x06C)).toNat →
      2 ^ 35 ≤ a →
      ∃ t, exec (.dbgMemAccessDone) s = .next t ∧
        t.f (dbgA 0x068) 30 28 = 2 ∧
        t.b (dbgA 0x068) 31 = false ∧
        FlowKept s t ∧
        RegsBut [dbgA 0x068] s t ∧
        WinKept s t ∧
        MemKept s t)

/-- In an autonomous mode BOOT_HEADER_CHECK accepts a good image and enters Load with its sequence and identifiers, or fails it with its kind and turns to the alternate. A section whose digest matches runs by its type: a register write, a window write and a table write store what they name, a tenant section enrols its key or is reported and passed over, an allocation comes into force, a poll that matches passes and one that does not waits, a change set opens. Each then hands on to the next section; a section whose digest does not match fails the image with kind 3. Rests on 23_power_and_startup.md (R528, R529, R530, R531, R532, R533, R534, R535); 19_tenants_security.md (R429, R440). -/
def Obligations.ImagesBoot : Prop :=
  (∀ (s : State),
      s.alive = true →
      s.topState ≤ 1 →
      s.pmu.loading = false →
      s.bootMode = 1 ∨ s.bootMode = 2 →
      s.imgCheck = 0 →
      ∃ t, exec (.bootHeaderCheck) s = .next t ∧
        t.topState = 1 ∧
        t.pmu.loading = true ∧ t.pmu.sect = 0 ∧
        (t.rd (topA 0x054)).toNat = s.hdr 12 4 ∧
        t.hif.fn.ssvid = s.hdr 22 2 ∧ t.hif.fn.ssid = s.hdr 24 2 ∧
        RegsBut [topA 0x048, topA 0x054, topA 0x04C] s t ∧
        FlowKept s t ∧
        WinKept s t ∧
        MemKept s t) ∧
  (∀ (s : State) (k : Nat),
      s.alive = true →
      s.topState ≤ 1 →
      s.pmu.loading = false →
      s.bootMode = 1 ∨ s.bootMode = 2 →
      s.imgCheck = k →
      k ≠ 0 →
      s.pmu.alt = false →
      s.pmu.acted = false →
      ∃ t, exec (.bootHeaderCheck) s = .next t ∧
        t.pmu.alt = true ∧
        t.b (topA 0x04C) 2 = true ∧ t.f (topA 0x04C) 11 8 = k ∧
        t.raised 0 0x0003 ∧
        t.topState = s.topState ∧
        FlowKept s t ∧
        RegsBut [topA 0x04C, topA 0x008] s t ∧
        WinKept s t ∧
        MemKept s t) ∧
  (∀ (s : State) (body : List Byte) (w : Word) (ok : Bool),
      s.loads 1 body →
      body.length = 8 →
      leAt body 0 4 = hifA 0x058 →
      w = word (leAt body 4 4) →
      s.regCheck .boot true (resolve (hifA 0x058) w) = 0 →
      ∃ t, exec (.sectionRegisterWrites ok) s = .next t ∧
        SectionDone s t ∧
        t.f (hifA 0x058) 13 0 = fld w 13 0 ∧
        RegsBut [hifA 0x058] s t ∧
        WinKept s t) ∧
  (∀ (s : State) (body : List Byte) (a : Nat) (d : List Byte) (k : Fin 5) (j : Fin 4096),
      s.loads 2 body →
      winWrites body.length body = some [(a, d)] →
      winItems a d.length = some [.seqGen k.val j.val] →
      s.winKind .boot true a d = 0 →
      ∃ t, exec (.sectionWindowWrites) s = .next t ∧
        SectionDone s t ∧
        readBytes t.win a d.length = d ∧
        WinBut a d.length s t ∧
        RegsBut [] s t) ∧
  (∀ (s : State) (body : List Byte) (c e : List Byte) (tg index : Nat),
      s.loads 3 body →
      tableCmds body = [c] →
      leAt c 0 2 = 1 + tg * 256 →
      leAt c 4 4 = index →
      leAt c 8 2 = 1 →
      e = slice body (leAt c 16 8) (entSize tg) →
      cmdRsv c = false →
      s.cmdHead 1 tg (leAt c 2 1 % 8) index 1 = 0 →
      entRsv tg e = false →
      entEnc tg e = false →
      s.entGuard tg index 0 (s.ent 0 tg index) e = 0 →
      s.clash tg index e = false →
      ∃ t, exec (.sectionTableCommands) s = .next t ∧
        SectionDone s t ∧
        (∀ k : Fin 5, t.ent k.val tg index = e) ∧
        RegsBut [] s t ∧
        WinKept s t) ∧
  (∀ (s : State) (body : List Byte) (c : WIn) (d : Dom),
      s.loads 4 body →
      sectDom (s.sect s.pmu.sect) = d.val →
      sectCmds d.val body.length body = some [c] →
      s.sectCheck d.val [c] = 0 →
      ∃ t, exec (.sectionTenant) s = .next t ∧
        SectionDone s t ∧
        t.sec.keys.at [] d.val = c.body ∧
        t.b (secA (0x0C0 + 4 * d.val)) 8 = true ∧
        t.sec.section_.at ([], 0) d.val = (Crypto.sha384 body, c.seq) ∧
        RegsBut [secA (0x0C0 + 4 * d.val)] s t ∧
        WinKept s t) ∧
  (∀ (s : State) (body : List Byte) (d : Dom),
      s.loads 4 body →
      sectDom (s.sect s.pmu.sect) = d.val →
      (match sectCmds d.val body.length body with | none => true | some cs => decide (s.sectCheck d.val cs ≠ 0)) = true →
      ∃ t, exec (.sectionTenant) s = .next t ∧
        SectionDone s t ∧
        t.b (topA 0x050) d.val = true ∧
        t.raised 0 0x0002 ∧
        t.sec.keys = s.sec.keys ∧
        RegsBut [topA 0x050, topA 0x008] s t ∧
        WinKept s t) ∧
  (∀ (s : State) (body : List Byte) (c : WIn) (d : Dom),
      s.loads 4 body →
      sectDom (s.sect s.pmu.sect) = d.val →
      sectCmds d.val body.length body = some [c] →
      s.sectCheck d.val [c] = 0 →
      ∃ t, exec (.tenantSection) s = .next t ∧
        SectionDone s t ∧
        t.sec.keys.at [] d.val = c.body ∧
        t.b (secA (0x0C0 + 4 * d.val)) 8 = true ∧
        t.sec.section_.at ([], 0) d.val = (Crypto.sha384 body, c.seq) ∧
        RegsBut [secA (0x0C0 + 4 * d.val)] s t ∧
        WinKept s t) ∧
  (∀ (s : State) (body : List Byte) (d : Dom),
      s.loads 4 body →
      sectDom (s.sect s.pmu.sect) = d.val →
      (match sectCmds d.val body.length body with | none => true | some cs => decide (s.sectCheck d.val cs ≠ 0)) = true →
      ∃ t, exec (.tenantSection) s = .next t ∧
        SectionDone s t ∧
        t.b (topA 0x050) d.val = true ∧
        t.raised 0 0x0002 ∧
        t.sec.keys = s.sec.keys ∧
        RegsBut [topA 0x050, topA 0x008] s t ∧
        WinKept s t) ∧
  (∀ (s : State) (body : List Byte) (ok : Bool) (a : Alloc),
      s.loads 5 body →
      body.length = 16 →
      a = allocOf body →
      a.kind = 0x0B ∧ a.count = 1 →
      s.allocCheck body ok = 1 →
      ∃ t, exec (.sectionAllocation ok) s = .next t ∧
        SectionDone s t ∧
        t.sec.allocs = [a] ∧
        t.b (secA 0x040) 8 = true ∧
        t.itemOwner (.seqGen a.unit_ a.first) = a.dom ∧
        WinBut (seqA a.unit_ a.first + 3) 1 s t ∧
        RegsOut [0x0B] s t) ∧
  (∀ (s : State) (body : List Byte) (m v : Word),
      s.loads 6 body →
      body.length = 16 →
      leAt body 0 4 = topA 0x044 →
      m = word (leAt body 4 4) →
      v = word (leAt body 8 4) →
      s.pmu.part < 2 →
      s.rd (topA 0x044) &&& m = v →
      ∃ t, exec (.sectionPoll) s = .next t ∧
        SectionDone s t ∧
        t.pmu.part = 0 ∧
        RegsBut [] s t ∧
        WinKept s t) ∧
  (∀ (s : State) (body : List Byte) (m v : Word),
      s.loads 6 body →
      body.length = 16 →
      leAt body 0 4 = topA 0x044 →
      m = word (leAt body 4 4) →
      v = word (leAt body 8 4) →
      s.pmu.part = 0 →
      s.rd (topA 0x044) &&& m ≠ v →
      ∃ t, exec (.sectionPoll) s = .next t ∧
        t.pmu.sect = s.pmu.sect ∧
        t.pmu.part = 1 ∧ t.pmu.pollAt = s.clk ∧
        t.topState = 1 ∧
        FlowKept s t ∧
        RegsBut [] s t ∧
        WinKept s t ∧
        MemKept s t) ∧
  (∀ (s : State) (body : List Byte),
      s.loads 7 body →
      body.length = 4 →
      leAt body 0 4 = 1 →
      s.regCheck .boot true (resolve (topA 0x304) 1) = 0 →
      s.b (topA 0x300) 24 = false ∧ s.b (topA 0x300) 12 = false →
      s.ver.pendingCommit = none →
      ∃ t, exec (.sectionChangeSet) s = .next t ∧
        SectionDone s t ∧
        t.setOpenFor 0 = true ∧
        t.ver.openAt = s.clk ∧
        RegsOut [0x00] s t ∧
        WinKept s t) ∧
  (∀ (s : State) (n : Nat),
      s.alive = true →
      s.topState = 1 →
      s.pmu.loading = true →
      s.pmu.sect = n →
      sectType (s.sect n) = 2 →
      Crypto.sha384 (s.sectBody (s.sect n)) ≠ slice (s.sect n) 16 48 →
      s.pmu.alt = false →
      s.pmu.acted = false →
      ∃ t, exec (.sectionWindowWrites) s = .next t ∧
        t.pmu.alt = true ∧
        t.f (topA 0x04C) 11 8 = 3 ∧
        t.raised 0 0x0003 ∧
        FlowKept s t ∧
        RegsBut [topA 0x04C, topA 0x008] s t ∧
        WinKept s t ∧
        MemKept s t)
end

