-- ==== Sys2Proof/Laws/Maps.lean ====
section
/-! SUPPORT. The laws of sparse arrays and byte memories: a read after a write gives the value written, a write leaves every
other place alone, and every operation keeps the canonical form. -/

namespace Sys2Proof

variable {α : Type}

theorem SMap.atF_filter_same (d : Nat → α) (m : SMap α) (k : Nat) :
    SMap.atF d (m.filter (fun e => decide (e.1 ≠ k))) k = d k := by
  induction m with
  | nil => rfl
  | cons e m ih =>
    by_cases h : e.1 = k
    · simp only [List.filter_cons, h, ne_eq, not_true_eq_false, decide_false, Bool.false_eq_true, if_false]
      exact ih
    · simp only [List.filter_cons, h, ne_eq, not_false_eq_true, decide_true, if_true, SMap.atF, if_false]
      exact ih

theorem SMap.atF_filter_ne (d : Nat → α) (m : SMap α) {k j : Nat} (h : j ≠ k) :
    SMap.atF d (m.filter (fun e => decide (e.1 ≠ k))) j = SMap.atF d m j := by
  induction m with
  | nil => rfl
  | cons e m ih =>
    by_cases hk : e.1 = k
    · have : e.1 ≠ j := fun hj => h (hj.symm.trans hk)
      simp only [List.filter_cons, hk, ne_eq, not_true_eq_false, decide_false, Bool.false_eq_true, if_false]
      rw [ih]
      simp [SMap.atF, this]
    · simp only [List.filter_cons, hk, ne_eq, not_false_eq_true, decide_true, if_true]
      simp only [SMap.atF, ih]

theorem SMap.atF_ins (d : Nat → α) (k : Nat) (v : α) (m : SMap α) (h : ∀ e ∈ m, e.1 ≠ k) (j : Nat) :
    SMap.atF d (SMap.ins k v m) j = if j = k then v else SMap.atF d m j := by
  induction m with
  | nil =>
    by_cases hj : j = k
    · simp [SMap.ins, SMap.atF, hj]
    · simp [SMap.ins, SMap.atF, hj, Ne.symm hj]
  | cons e m ih =>
    have he : e.1 ≠ k := h e (by simp)
    have ih := ih (fun x hx => h x (by simp [hx]))
    obtain ⟨i, w⟩ := e
    unfold SMap.ins
    split
    · by_cases hj : j = k
      · simp [SMap.atF, hj]
      · simp [SMap.atF, hj, Ne.symm hj]
    · by_cases hj : j = k
      · subst hj
        have : ¬ i = j := he
        simp [SMap.atF, this, ih]
      · simp [SMap.atF, hj, ih]

/-- A read of an index after a write of it gives the value written. -/
@[simp] theorem SMap.atF_putF_same [DecidableEq α] (d : Nat → α) (m : SMap α) (k : Nat) (v : α) : SMap.atF d (SMap.putF d m k v) k = v := by
  unfold SMap.putF
  by_cases h : v = d k
  · simp only [h, if_true]; exact SMap.atF_filter_same d m k
  · simp only [h, if_false]
    rw [SMap.atF_ins d k v _ (by intro e he; simpa using (List.mem_filter.mp he).2)]
    simp

/-- A write leaves every other index as it was. -/
theorem SMap.atF_putF_ne [DecidableEq α] (d : Nat → α) (m : SMap α) {k j : Nat} (v : α) (h : j ≠ k) :
    SMap.atF d (SMap.putF d m k v) j = SMap.atF d m j := by
  unfold SMap.putF
  by_cases hv : v = d k
  · simp only [hv, if_true]; exact SMap.atF_filter_ne d m h
  · simp only [hv, if_false]
    rw [SMap.atF_ins d k v _ (by intro e he; simpa using (List.mem_filter.mp he).2)]
    simp only [h, if_false]
    exact SMap.atF_filter_ne d m h

@[simp] theorem SMap.at_put_same [DecidableEq α] (m : SMap α) (d : α) (k : Nat) (v : α) : (m.put d k v).at d k = v :=
  SMap.atF_putF_same _ m k v

theorem SMap.at_put_ne [DecidableEq α] (m : SMap α) (d : α) {k j : Nat} (v : α) (h : j ≠ k) : (m.put d k v).at d j = m.at d j :=
  SMap.atF_putF_ne _ m v h

/-! ### The canonical form -/

theorem SMap.ins_mem (k : Nat) (v : α) (m : SMap α) (e : Nat × α) : e ∈ SMap.ins k v m → e = (k, v) ∨ e ∈ m := by
  induction m with
  | nil => simp [SMap.ins]
  | cons x m ih =>
    unfold SMap.ins
    split
    · simp
    · intro h
      rcases List.mem_cons.mp h with h | h
      · exact .inr (by simp [h])
      · rcases ih h with h | h
        · exact .inl h
        · exact .inr (by simp [h])

theorem SMap.ins_sorted (k : Nat) (v : α) (m : SMap α) (h : m.Pairwise (fun a b => a.1 < b.1)) (hk : ∀ e ∈ m, e.1 ≠ k) :
    (SMap.ins k v m).Pairwise (fun a b => a.1 < b.1) := by
  induction m with
  | nil => simp [SMap.ins]
  | cons x m ih =>
    obtain ⟨i, w⟩ := x
    have hx := List.pairwise_cons.mp h
    unfold SMap.ins
    split
    · rename_i hlt
      refine List.pairwise_cons.mpr ⟨?_, h⟩
      intro e he
      rcases List.mem_cons.mp he with rfl | he
      · exact hlt
      · exact Nat.lt_trans hlt (hx.1 e he)
    · rename_i hlt
      refine List.pairwise_cons.mpr ⟨?_, ih hx.2 (fun e he => hk e (by simp [he]))⟩
      intro e he
      rcases SMap.ins_mem k v m e he with rfl | he
      · have : i ≠ k := hk (i, w) (by simp)
        show i < k
        omega
      · exact hx.1 e he

theorem SMap.filter_wf (d : Nat → α) (m : SMap α) (p : Nat × α → Bool) (h : SMap.WF d m) : SMap.WF d (m.filter p) :=
  ⟨h.1.filter p, fun e he => h.2 e (List.mem_filter.mp he).1⟩

/-- A write keeps the canonical form. -/
theorem SMap.putF_wf [DecidableEq α] (d : Nat → α) (m : SMap α) (k : Nat) (v : α) (h : SMap.WF d m) : SMap.WF d (SMap.putF d m k v) := by
  have hf := SMap.filter_wf d m (fun e => decide (e.1 ≠ k)) h
  unfold SMap.putF
  by_cases hv : v = d k
  · simpa only [hv, if_true] using hf
  · simp only [hv, if_false]
    refine ⟨SMap.ins_sorted k v _ hf.1 (by intro e he; simpa using (List.mem_filter.mp he).2), ?_⟩
    intro e he
    rcases SMap.ins_mem k v _ e he with rfl | he
    · exact hv
    · exact hf.2 e he

theorem SMap.put_wf [DecidableEq α] (m : SMap α) (d : α) (k : Nat) (v : α) (h : SMap.WF (fun _ => d) m) : SMap.WF (fun _ => d) (m.put d k v) :=
  SMap.putF_wf _ m k v h

theorem writeBytes_wf (m : SMap Byte) (a : Nat) (bs : List Byte) (h : SMap.WF (fun _ => 0) m) :
    SMap.WF (fun _ => 0) (writeBytes m a bs) := by
  induction bs generalizing m a with
  | nil => exact h
  | cons b bs ih => exact ih _ _ (SMap.put_wf m 0 a b h)

theorem xorByte_wf (m : SMap Byte) (a : Nat) (v : Byte) (h : SMap.WF (fun _ => 0) m) : SMap.WF (fun _ => 0) (xorByte m a v) :=
  SMap.put_wf m 0 a _ h

/-! ### Byte memories -/

/-- A run of bytes written leaves every byte outside it as it was. -/
theorem writeBytes_at_out (m : SMap Byte) (a : Nat) (bs : List Byte) (x : Nat) (h : x < a ∨ a + bs.length ≤ x) :
    (writeBytes m a bs).at 0 x = m.at 0 x := by
  induction bs generalizing m a with
  | nil => rfl
  | cons b bs ih =>
    simp only [writeBytes]
    rw [ih _ _ (by simp only [List.length_cons] at h; omega)]
    exact SMap.at_put_ne m 0 b (by simp only [List.length_cons] at h; omega)

/-- A byte inside a run that was written reads as written. -/
theorem writeBytes_at_in (m : SMap Byte) (a : Nat) (bs : List Byte) (i : Nat) (h : i < bs.length) :
    (writeBytes m a bs).at 0 (a + i) = bs[i] := by
  induction bs generalizing m a i with
  | nil => simp at h
  | cons b bs ih =>
    simp only [writeBytes]
    cases i with
    | zero =>
      rw [writeBytes_at_out _ _ _ _ (by omega)]
      simp
    | succ i =>
      have := ih (m.put 0 a b) (a + 1) i (by simpa using h)
      simpa [Nat.add_assoc, Nat.add_comm 1 i] using this

@[simp] theorem readBytes_length (m : SMap Byte) (a n : Nat) : (readBytes m a n).length = n := by
  induction n generalizing a with
  | zero => rfl
  | succ n ih => simp [readBytes, ih]

theorem readBytes_congr (m m' : SMap Byte) (a n : Nat) (h : ∀ x, a ≤ x → x < a + n → m.at 0 x = m'.at 0 x) :
    readBytes m a n = readBytes m' a n := by
  induction n generalizing a with
  | zero => rfl
  | succ n ih =>
    simp only [readBytes]
    rw [h a (Nat.le_refl _) (by omega), ih (a + 1) (fun x h1 h2 => h x (by omega) (by omega))]

/-- A read of a run of bytes that was written gives them back. -/
@[simp] theorem readBytes_writeBytes (m : SMap Byte) (a : Nat) (bs : List Byte) : readBytes (writeBytes m a bs) a bs.length = bs := by
  induction bs generalizing m a with
  | nil => rfl
  | cons b bs ih =>
    simp only [List.length_cons, readBytes, writeBytes]
    rw [writeBytes_at_out _ _ _ _ (by omega), ih]
    simp

/-- A read of a run of bytes that a write does not touch gives what it gave. -/
theorem readBytes_writeBytes_out (m : SMap Byte) (a : Nat) (bs : List Byte) (b n : Nat) (h : b + n ≤ a ∨ a + bs.length ≤ b) :
    readBytes (writeBytes m a bs) b n = readBytes m b n :=
  readBytes_congr _ _ _ _ (fun x h1 h2 => writeBytes_at_out m a bs x (by omega))

@[simp] theorem leBytes_length (n v : Nat) : (leBytes n v).length = n := by
  induction n generalizing v with
  | zero => rfl
  | succ n ih => simp [leBytes, ih]

@[simp] theorem beBytes_length (n v : Nat) : (beBytes n v).length = n := by simp [beBytes]

/-- The little-endian bytes of a number spell it. -/
theorem leVal_leBytes (n v : Nat) : leVal (leBytes n v) = v % 256 ^ n := by
  induction n generalizing v with
  | zero => simp [leBytes, leVal, Nat.mod_one]
  | succ n ih =>
    simp only [leBytes, leVal, ih, BitVec.toNat_ofNat]
    have h := Nat.mod_mul (x := v) (a := 256) (b := 256 ^ n)
    rw [show (256 : Nat) ^ (n + 1) = 256 * 256 ^ n by rw [Nat.pow_succ, Nat.mul_comm], h]

end Sys2Proof
end

