-- ==== Sys2Proof/Laws/State.lean ====
section
/-! SUPPORT. What each update of the state leaves as it was: one lemma for each field and update, true by definition, so that
no proof unfolds a record update. -/

namespace Sys2Proof.Machine

variable (s : State)

/-! ### wr -/

@[simp] theorem wr_pending (a : Nat) (w : Word) : (s.wr a w).pending = s.pending := rfl
@[simp] theorem wr_inForce (a : Nat) (w : Word) : (s.wr a w).inForce = s.inForce := rfl
@[simp] theorem wr_win (a : Nat) (w : Word) : (s.wr a w).win = s.win := rfl
@[simp] theorem wr_host (a : Nat) (w : Word) : (s.wr a w).host = s.host := rfl
@[simp] theorem wr_hbm (a : Nat) (w : Word) : (s.wr a w).hbm = s.hbm := rfl
@[simp] theorem wr_sram (a : Nat) (w : Word) : (s.wr a w).sram = s.sram := rfl
@[simp] theorem wr_spi (a : Nat) (w : Word) : (s.wr a w).spi = s.spi := rfl
@[simp] theorem wr_flash (a : Nat) (w : Word) : (s.wr a w).flash = s.flash := rfl
@[simp] theorem wr_clk (a : Nat) (w : Word) : (s.wr a w).clk = s.clk := rfl
@[simp] theorem wr_fresh (a : Nat) (w : Word) : (s.wr a w).fresh = s.fresh := rfl
@[simp] theorem wr_out (a : Nat) (w : Word) : (s.wr a w).out = s.out := rfl
@[simp] theorem wr_hif (a : Nat) (w : Word) : (s.wr a w).hif = s.hif := rfl
@[simp] theorem wr_gov (a : Nat) (w : Word) : (s.wr a w).gov = s.gov := rfl
@[simp] theorem wr_lanes (a : Nat) (w : Word) : (s.wr a w).lanes = s.lanes := rfl
@[simp] theorem wr_macs (a : Nat) (w : Word) : (s.wr a w).macs = s.macs := rfl
@[simp] theorem wr_frames (a : Nat) (w : Word) : (s.wr a w).frames = s.frames := rfl
@[simp] theorem wr_copies (a : Nat) (w : Word) : (s.wr a w).copies = s.copies := rfl
@[simp] theorem wr_eframes (a : Nat) (w : Word) : (s.wr a w).eframes = s.eframes := rfl
@[simp] theorem wr_nextId (a : Nat) (w : Word) : (s.wr a w).nextId = s.nextId := rfl
@[simp] theorem wr_ver (a : Nat) (w : Word) : (s.wr a w).ver = s.ver := rfl
@[simp] theorem wr_tbl (a : Nat) (w : Word) : (s.wr a w).tbl = s.tbl := rfl
@[simp] theorem wr_pol (a : Nat) (w : Word) : (s.wr a w).pol = s.pol := rfl
@[simp] theorem wr_glf (a : Nat) (w : Word) : (s.wr a w).glf = s.glf := rfl
@[simp] theorem wr_rsq (a : Nat) (w : Word) : (s.wr a w).rsq = s.rsq := rfl
@[simp] theorem wr_bpm (a : Nat) (w : Word) : (s.wr a w).bpm = s.bpm := rfl
@[simp] theorem wr_tmg (a : Nat) (w : Word) : (s.wr a w).tmg = s.tmg := rfl
@[simp] theorem wr_tsu (a : Nat) (w : Word) : (s.wr a w).tsu = s.tsu := rfl
@[simp] theorem wr_tgs (a : Nat) (w : Word) : (s.wr a w).tgs = s.tgs := rfl
@[simp] theorem wr_mir (a : Nat) (w : Word) : (s.wr a w).mir = s.mir := rfl
@[simp] theorem wr_sta (a : Nat) (w : Word) : (s.wr a w).sta = s.sta := rfl
@[simp] theorem wr_sec (a : Nat) (w : Word) : (s.wr a w).sec = s.sec := rfl
@[simp] theorem wr_isl (a : Nat) (w : Word) : (s.wr a w).isl = s.isl := rfl
@[simp] theorem wr_spr (a : Nat) (w : Word) : (s.wr a w).spr = s.spr := rfl
@[simp] theorem wr_evr (a : Nat) (w : Word) : (s.wr a w).evr = s.evr := rfl
@[simp] theorem wr_pmu (a : Nat) (w : Word) : (s.wr a w).pmu = s.pmu := rfl
@[simp] theorem wr_dbg (a : Nat) (w : Word) : (s.wr a w).dbg = s.dbg := rfl

/-! ### setF -/

@[simp] theorem setF_pending (a hi lo v : Nat) : (s.setF a hi lo v).pending = s.pending := rfl
@[simp] theorem setF_inForce (a hi lo v : Nat) : (s.setF a hi lo v).inForce = s.inForce := rfl
@[simp] theorem setF_win (a hi lo v : Nat) : (s.setF a hi lo v).win = s.win := rfl
@[simp] theorem setF_host (a hi lo v : Nat) : (s.setF a hi lo v).host = s.host := rfl
@[simp] theorem setF_hbm (a hi lo v : Nat) : (s.setF a hi lo v).hbm = s.hbm := rfl
@[simp] theorem setF_sram (a hi lo v : Nat) : (s.setF a hi lo v).sram = s.sram := rfl
@[simp] theorem setF_spi (a hi lo v : Nat) : (s.setF a hi lo v).spi = s.spi := rfl
@[simp] theorem setF_flash (a hi lo v : Nat) : (s.setF a hi lo v).flash = s.flash := rfl
@[simp] theorem setF_clk (a hi lo v : Nat) : (s.setF a hi lo v).clk = s.clk := rfl
@[simp] theorem setF_fresh (a hi lo v : Nat) : (s.setF a hi lo v).fresh = s.fresh := rfl
@[simp] theorem setF_out (a hi lo v : Nat) : (s.setF a hi lo v).out = s.out := rfl
@[simp] theorem setF_hif (a hi lo v : Nat) : (s.setF a hi lo v).hif = s.hif := rfl
@[simp] theorem setF_gov (a hi lo v : Nat) : (s.setF a hi lo v).gov = s.gov := rfl
@[simp] theorem setF_lanes (a hi lo v : Nat) : (s.setF a hi lo v).lanes = s.lanes := rfl
@[simp] theorem setF_macs (a hi lo v : Nat) : (s.setF a hi lo v).macs = s.macs := rfl
@[simp] theorem setF_frames (a hi lo v : Nat) : (s.setF a hi lo v).frames = s.frames := rfl
@[simp] theorem setF_copies (a hi lo v : Nat) : (s.setF a hi lo v).copies = s.copies := rfl
@[simp] theorem setF_eframes (a hi lo v : Nat) : (s.setF a hi lo v).eframes = s.eframes := rfl
@[simp] theorem setF_nextId (a hi lo v : Nat) : (s.setF a hi lo v).nextId = s.nextId := rfl
@[simp] theorem setF_ver (a hi lo v : Nat) : (s.setF a hi lo v).ver = s.ver := rfl
@[simp] theorem setF_tbl (a hi lo v : Nat) : (s.setF a hi lo v).tbl = s.tbl := rfl
@[simp] theorem setF_pol (a hi lo v : Nat) : (s.setF a hi lo v).pol = s.pol := rfl
@[simp] theorem setF_glf (a hi lo v : Nat) : (s.setF a hi lo v).glf = s.glf := rfl
@[simp] theorem setF_rsq (a hi lo v : Nat) : (s.setF a hi lo v).rsq = s.rsq := rfl
@[simp] theorem setF_bpm (a hi lo v : Nat) : (s.setF a hi lo v).bpm = s.bpm := rfl
@[simp] theorem setF_tmg (a hi lo v : Nat) : (s.setF a hi lo v).tmg = s.tmg := rfl
@[simp] theorem setF_tsu (a hi lo v : Nat) : (s.setF a hi lo v).tsu = s.tsu := rfl
@[simp] theorem setF_tgs (a hi lo v : Nat) : (s.setF a hi lo v).tgs = s.tgs := rfl
@[simp] theorem setF_mir (a hi lo v : Nat) : (s.setF a hi lo v).mir = s.mir := rfl
@[simp] theorem setF_sta (a hi lo v : Nat) : (s.setF a hi lo v).sta = s.sta := rfl
@[simp] theorem setF_sec (a hi lo v : Nat) : (s.setF a hi lo v).sec = s.sec := rfl
@[simp] theorem setF_isl (a hi lo v : Nat) : (s.setF a hi lo v).isl = s.isl := rfl
@[simp] theorem setF_spr (a hi lo v : Nat) : (s.setF a hi lo v).spr = s.spr := rfl
@[simp] theorem setF_evr (a hi lo v : Nat) : (s.setF a hi lo v).evr = s.evr := rfl
@[simp] theorem setF_pmu (a hi lo v : Nat) : (s.setF a hi lo v).pmu = s.pmu := rfl
@[simp] theorem setF_dbg (a hi lo v : Nat) : (s.setF a hi lo v).dbg = s.dbg := rfl

/-! ### setB -/

@[simp] theorem setB_pending (a i : Nat) (v : Bool) : (s.setB a i v).pending = s.pending := rfl
@[simp] theorem setB_inForce (a i : Nat) (v : Bool) : (s.setB a i v).inForce = s.inForce := rfl
@[simp] theorem setB_win (a i : Nat) (v : Bool) : (s.setB a i v).win = s.win := rfl
@[simp] theorem setB_host (a i : Nat) (v : Bool) : (s.setB a i v).host = s.host := rfl
@[simp] theorem setB_hbm (a i : Nat) (v : Bool) : (s.setB a i v).hbm = s.hbm := rfl
@[simp] theorem setB_sram (a i : Nat) (v : Bool) : (s.setB a i v).sram = s.sram := rfl
@[simp] theorem setB_spi (a i : Nat) (v : Bool) : (s.setB a i v).spi = s.spi := rfl
@[simp] theorem setB_flash (a i : Nat) (v : Bool) : (s.setB a i v).flash = s.flash := rfl
@[simp] theorem setB_clk (a i : Nat) (v : Bool) : (s.setB a i v).clk = s.clk := rfl
@[simp] theorem setB_fresh (a i : Nat) (v : Bool) : (s.setB a i v).fresh = s.fresh := rfl
@[simp] theorem setB_out (a i : Nat) (v : Bool) : (s.setB a i v).out = s.out := rfl
@[simp] theorem setB_hif (a i : Nat) (v : Bool) : (s.setB a i v).hif = s.hif := rfl
@[simp] theorem setB_gov (a i : Nat) (v : Bool) : (s.setB a i v).gov = s.gov := rfl
@[simp] theorem setB_lanes (a i : Nat) (v : Bool) : (s.setB a i v).lanes = s.lanes := rfl
@[simp] theorem setB_macs (a i : Nat) (v : Bool) : (s.setB a i v).macs = s.macs := rfl
@[simp] theorem setB_frames (a i : Nat) (v : Bool) : (s.setB a i v).frames = s.frames := rfl
@[simp] theorem setB_copies (a i : Nat) (v : Bool) : (s.setB a i v).copies = s.copies := rfl
@[simp] theorem setB_eframes (a i : Nat) (v : Bool) : (s.setB a i v).eframes = s.eframes := rfl
@[simp] theorem setB_nextId (a i : Nat) (v : Bool) : (s.setB a i v).nextId = s.nextId := rfl
@[simp] theorem setB_ver (a i : Nat) (v : Bool) : (s.setB a i v).ver = s.ver := rfl
@[simp] theorem setB_tbl (a i : Nat) (v : Bool) : (s.setB a i v).tbl = s.tbl := rfl
@[simp] theorem setB_pol (a i : Nat) (v : Bool) : (s.setB a i v).pol = s.pol := rfl
@[simp] theorem setB_glf (a i : Nat) (v : Bool) : (s.setB a i v).glf = s.glf := rfl
@[simp] theorem setB_rsq (a i : Nat) (v : Bool) : (s.setB a i v).rsq = s.rsq := rfl
@[simp] theorem setB_bpm (a i : Nat) (v : Bool) : (s.setB a i v).bpm = s.bpm := rfl
@[simp] theorem setB_tmg (a i : Nat) (v : Bool) : (s.setB a i v).tmg = s.tmg := rfl
@[simp] theorem setB_tsu (a i : Nat) (v : Bool) : (s.setB a i v).tsu = s.tsu := rfl
@[simp] theorem setB_tgs (a i : Nat) (v : Bool) : (s.setB a i v).tgs = s.tgs := rfl
@[simp] theorem setB_mir (a i : Nat) (v : Bool) : (s.setB a i v).mir = s.mir := rfl
@[simp] theorem setB_sta (a i : Nat) (v : Bool) : (s.setB a i v).sta = s.sta := rfl
@[simp] theorem setB_sec (a i : Nat) (v : Bool) : (s.setB a i v).sec = s.sec := rfl
@[simp] theorem setB_isl (a i : Nat) (v : Bool) : (s.setB a i v).isl = s.isl := rfl
@[simp] theorem setB_spr (a i : Nat) (v : Bool) : (s.setB a i v).spr = s.spr := rfl
@[simp] theorem setB_evr (a i : Nat) (v : Bool) : (s.setB a i v).evr = s.evr := rfl
@[simp] theorem setB_pmu (a i : Nat) (v : Bool) : (s.setB a i v).pmu = s.pmu := rfl
@[simp] theorem setB_dbg (a i : Nat) (v : Bool) : (s.setB a i v).dbg = s.dbg := rfl

/-! ### load -/

@[simp] theorem load_pending (a : Nat) : (s.load a).pending = s.pending := rfl
@[simp] theorem load_regs (a : Nat) : (s.load a).regs = s.regs := rfl
@[simp] theorem load_win (a : Nat) : (s.load a).win = s.win := rfl
@[simp] theorem load_host (a : Nat) : (s.load a).host = s.host := rfl
@[simp] theorem load_hbm (a : Nat) : (s.load a).hbm = s.hbm := rfl
@[simp] theorem load_sram (a : Nat) : (s.load a).sram = s.sram := rfl
@[simp] theorem load_spi (a : Nat) : (s.load a).spi = s.spi := rfl
@[simp] theorem load_flash (a : Nat) : (s.load a).flash = s.flash := rfl
@[simp] theorem load_clk (a : Nat) : (s.load a).clk = s.clk := rfl
@[simp] theorem load_fresh (a : Nat) : (s.load a).fresh = s.fresh := rfl
@[simp] theorem load_out (a : Nat) : (s.load a).out = s.out := rfl
@[simp] theorem load_hif (a : Nat) : (s.load a).hif = s.hif := rfl
@[simp] theorem load_gov (a : Nat) : (s.load a).gov = s.gov := rfl
@[simp] theorem load_lanes (a : Nat) : (s.load a).lanes = s.lanes := rfl
@[simp] theorem load_macs (a : Nat) : (s.load a).macs = s.macs := rfl
@[simp] theorem load_frames (a : Nat) : (s.load a).frames = s.frames := rfl
@[simp] theorem load_copies (a : Nat) : (s.load a).copies = s.copies := rfl
@[simp] theorem load_eframes (a : Nat) : (s.load a).eframes = s.eframes := rfl
@[simp] theorem load_nextId (a : Nat) : (s.load a).nextId = s.nextId := rfl
@[simp] theorem load_ver (a : Nat) : (s.load a).ver = s.ver := rfl
@[simp] theorem load_tbl (a : Nat) : (s.load a).tbl = s.tbl := rfl
@[simp] theorem load_pol (a : Nat) : (s.load a).pol = s.pol := rfl
@[simp] theorem load_glf (a : Nat) : (s.load a).glf = s.glf := rfl
@[simp] theorem load_rsq (a : Nat) : (s.load a).rsq = s.rsq := rfl
@[simp] theorem load_bpm (a : Nat) : (s.load a).bpm = s.bpm := rfl
@[simp] theorem load_tmg (a : Nat) : (s.load a).tmg = s.tmg := rfl
@[simp] theorem load_tsu (a : Nat) : (s.load a).tsu = s.tsu := rfl
@[simp] theorem load_tgs (a : Nat) : (s.load a).tgs = s.tgs := rfl
@[simp] theorem load_mir (a : Nat) : (s.load a).mir = s.mir := rfl
@[simp] theorem load_sta (a : Nat) : (s.load a).sta = s.sta := rfl
@[simp] theorem load_sec (a : Nat) : (s.load a).sec = s.sec := rfl
@[simp] theorem load_isl (a : Nat) : (s.load a).isl = s.isl := rfl
@[simp] theorem load_spr (a : Nat) : (s.load a).spr = s.spr := rfl
@[simp] theorem load_evr (a : Nat) : (s.load a).evr = s.evr := rfl
@[simp] theorem load_pmu (a : Nat) : (s.load a).pmu = s.pmu := rfl
@[simp] theorem load_dbg (a : Nat) : (s.load a).dbg = s.dbg := rfl

/-! ### addCnt -/

@[simp] theorem addCnt_pending (a n : Nat) : (s.addCnt a n).pending = s.pending := rfl
@[simp] theorem addCnt_inForce (a n : Nat) : (s.addCnt a n).inForce = s.inForce := rfl
@[simp] theorem addCnt_win (a n : Nat) : (s.addCnt a n).win = s.win := rfl
@[simp] theorem addCnt_host (a n : Nat) : (s.addCnt a n).host = s.host := rfl
@[simp] theorem addCnt_hbm (a n : Nat) : (s.addCnt a n).hbm = s.hbm := rfl
@[simp] theorem addCnt_sram (a n : Nat) : (s.addCnt a n).sram = s.sram := rfl
@[simp] theorem addCnt_spi (a n : Nat) : (s.addCnt a n).spi = s.spi := rfl
@[simp] theorem addCnt_flash (a n : Nat) : (s.addCnt a n).flash = s.flash := rfl
@[simp] theorem addCnt_clk (a n : Nat) : (s.addCnt a n).clk = s.clk := rfl
@[simp] theorem addCnt_fresh (a n : Nat) : (s.addCnt a n).fresh = s.fresh := rfl
@[simp] theorem addCnt_out (a n : Nat) : (s.addCnt a n).out = s.out := rfl
@[simp] theorem addCnt_hif (a n : Nat) : (s.addCnt a n).hif = s.hif := rfl
@[simp] theorem addCnt_gov (a n : Nat) : (s.addCnt a n).gov = s.gov := rfl
@[simp] theorem addCnt_lanes (a n : Nat) : (s.addCnt a n).lanes = s.lanes := rfl
@[simp] theorem addCnt_macs (a n : Nat) : (s.addCnt a n).macs = s.macs := rfl
@[simp] theorem addCnt_frames (a n : Nat) : (s.addCnt a n).frames = s.frames := rfl
@[simp] theorem addCnt_copies (a n : Nat) : (s.addCnt a n).copies = s.copies := rfl
@[simp] theorem addCnt_eframes (a n : Nat) : (s.addCnt a n).eframes = s.eframes := rfl
@[simp] theorem addCnt_nextId (a n : Nat) : (s.addCnt a n).nextId = s.nextId := rfl
@[simp] theorem addCnt_ver (a n : Nat) : (s.addCnt a n).ver = s.ver := rfl
@[simp] theorem addCnt_tbl (a n : Nat) : (s.addCnt a n).tbl = s.tbl := rfl
@[simp] theorem addCnt_pol (a n : Nat) : (s.addCnt a n).pol = s.pol := rfl
@[simp] theorem addCnt_glf (a n : Nat) : (s.addCnt a n).glf = s.glf := rfl
@[simp] theorem addCnt_rsq (a n : Nat) : (s.addCnt a n).rsq = s.rsq := rfl
@[simp] theorem addCnt_bpm (a n : Nat) : (s.addCnt a n).bpm = s.bpm := rfl
@[simp] theorem addCnt_tmg (a n : Nat) : (s.addCnt a n).tmg = s.tmg := rfl
@[simp] theorem addCnt_tsu (a n : Nat) : (s.addCnt a n).tsu = s.tsu := rfl
@[simp] theorem addCnt_tgs (a n : Nat) : (s.addCnt a n).tgs = s.tgs := rfl
@[simp] theorem addCnt_mir (a n : Nat) : (s.addCnt a n).mir = s.mir := rfl
@[simp] theorem addCnt_sta (a n : Nat) : (s.addCnt a n).sta = s.sta := rfl
@[simp] theorem addCnt_sec (a n : Nat) : (s.addCnt a n).sec = s.sec := rfl
@[simp] theorem addCnt_isl (a n : Nat) : (s.addCnt a n).isl = s.isl := rfl
@[simp] theorem addCnt_spr (a n : Nat) : (s.addCnt a n).spr = s.spr := rfl
@[simp] theorem addCnt_evr (a n : Nat) : (s.addCnt a n).evr = s.evr := rfl
@[simp] theorem addCnt_pmu (a n : Nat) : (s.addCnt a n).pmu = s.pmu := rfl
@[simp] theorem addCnt_dbg (a n : Nat) : (s.addCnt a n).dbg = s.dbg := rfl

/-! ### bump -/

@[simp] theorem bump_pending (a : Nat) : (s.bump a).pending = s.pending := rfl
@[simp] theorem bump_inForce (a : Nat) : (s.bump a).inForce = s.inForce := rfl
@[simp] theorem bump_win (a : Nat) : (s.bump a).win = s.win := rfl
@[simp] theorem bump_host (a : Nat) : (s.bump a).host = s.host := rfl
@[simp] theorem bump_hbm (a : Nat) : (s.bump a).hbm = s.hbm := rfl
@[simp] theorem bump_sram (a : Nat) : (s.bump a).sram = s.sram := rfl
@[simp] theorem bump_spi (a : Nat) : (s.bump a).spi = s.spi := rfl
@[simp] theorem bump_flash (a : Nat) : (s.bump a).flash = s.flash := rfl
@[simp] theorem bump_clk (a : Nat) : (s.bump a).clk = s.clk := rfl
@[simp] theorem bump_fresh (a : Nat) : (s.bump a).fresh = s.fresh := rfl
@[simp] theorem bump_out (a : Nat) : (s.bump a).out = s.out := rfl
@[simp] theorem bump_hif (a : Nat) : (s.bump a).hif = s.hif := rfl
@[simp] theorem bump_gov (a : Nat) : (s.bump a).gov = s.gov := rfl
@[simp] theorem bump_lanes (a : Nat) : (s.bump a).lanes = s.lanes := rfl
@[simp] theorem bump_macs (a : Nat) : (s.bump a).macs = s.macs := rfl
@[simp] theorem bump_frames (a : Nat) : (s.bump a).frames = s.frames := rfl
@[simp] theorem bump_copies (a : Nat) : (s.bump a).copies = s.copies := rfl
@[simp] theorem bump_eframes (a : Nat) : (s.bump a).eframes = s.eframes := rfl
@[simp] theorem bump_nextId (a : Nat) : (s.bump a).nextId = s.nextId := rfl
@[simp] theorem bump_ver (a : Nat) : (s.bump a).ver = s.ver := rfl
@[simp] theorem bump_tbl (a : Nat) : (s.bump a).tbl = s.tbl := rfl
@[simp] theorem bump_pol (a : Nat) : (s.bump a).pol = s.pol := rfl
@[simp] theorem bump_glf (a : Nat) : (s.bump a).glf = s.glf := rfl
@[simp] theorem bump_rsq (a : Nat) : (s.bump a).rsq = s.rsq := rfl
@[simp] theorem bump_bpm (a : Nat) : (s.bump a).bpm = s.bpm := rfl
@[simp] theorem bump_tmg (a : Nat) : (s.bump a).tmg = s.tmg := rfl
@[simp] theorem bump_tsu (a : Nat) : (s.bump a).tsu = s.tsu := rfl
@[simp] theorem bump_tgs (a : Nat) : (s.bump a).tgs = s.tgs := rfl
@[simp] theorem bump_mir (a : Nat) : (s.bump a).mir = s.mir := rfl
@[simp] theorem bump_sta (a : Nat) : (s.bump a).sta = s.sta := rfl
@[simp] theorem bump_sec (a : Nat) : (s.bump a).sec = s.sec := rfl
@[simp] theorem bump_isl (a : Nat) : (s.bump a).isl = s.isl := rfl
@[simp] theorem bump_spr (a : Nat) : (s.bump a).spr = s.spr := rfl
@[simp] theorem bump_evr (a : Nat) : (s.bump a).evr = s.evr := rfl
@[simp] theorem bump_pmu (a : Nat) : (s.bump a).pmu = s.pmu := rfl
@[simp] theorem bump_dbg (a : Nat) : (s.bump a).dbg = s.dbg := rfl

/-! ### bumpF -/

@[simp] theorem bumpF_pending (a hi lo : Nat) : (s.bumpF a hi lo).pending = s.pending := rfl
@[simp] theorem bumpF_inForce (a hi lo : Nat) : (s.bumpF a hi lo).inForce = s.inForce := rfl
@[simp] theorem bumpF_win (a hi lo : Nat) : (s.bumpF a hi lo).win = s.win := rfl
@[simp] theorem bumpF_host (a hi lo : Nat) : (s.bumpF a hi lo).host = s.host := rfl
@[simp] theorem bumpF_hbm (a hi lo : Nat) : (s.bumpF a hi lo).hbm = s.hbm := rfl
@[simp] theorem bumpF_sram (a hi lo : Nat) : (s.bumpF a hi lo).sram = s.sram := rfl
@[simp] theorem bumpF_spi (a hi lo : Nat) : (s.bumpF a hi lo).spi = s.spi := rfl
@[simp] theorem bumpF_flash (a hi lo : Nat) : (s.bumpF a hi lo).flash = s.flash := rfl
@[simp] theorem bumpF_clk (a hi lo : Nat) : (s.bumpF a hi lo).clk = s.clk := rfl
@[simp] theorem bumpF_fresh (a hi lo : Nat) : (s.bumpF a hi lo).fresh = s.fresh := rfl
@[simp] theorem bumpF_out (a hi lo : Nat) : (s.bumpF a hi lo).out = s.out := rfl
@[simp] theorem bumpF_hif (a hi lo : Nat) : (s.bumpF a hi lo).hif = s.hif := rfl
@[simp] theorem bumpF_gov (a hi lo : Nat) : (s.bumpF a hi lo).gov = s.gov := rfl
@[simp] theorem bumpF_lanes (a hi lo : Nat) : (s.bumpF a hi lo).lanes = s.lanes := rfl
@[simp] theorem bumpF_macs (a hi lo : Nat) : (s.bumpF a hi lo).macs = s.macs := rfl
@[simp] theorem bumpF_frames (a hi lo : Nat) : (s.bumpF a hi lo).frames = s.frames := rfl
@[simp] theorem bumpF_copies (a hi lo : Nat) : (s.bumpF a hi lo).copies = s.copies := rfl
@[simp] theorem bumpF_eframes (a hi lo : Nat) : (s.bumpF a hi lo).eframes = s.eframes := rfl
@[simp] theorem bumpF_nextId (a hi lo : Nat) : (s.bumpF a hi lo).nextId = s.nextId := rfl
@[simp] theorem bumpF_ver (a hi lo : Nat) : (s.bumpF a hi lo).ver = s.ver := rfl
@[simp] theorem bumpF_tbl (a hi lo : Nat) : (s.bumpF a hi lo).tbl = s.tbl := rfl
@[simp] theorem bumpF_pol (a hi lo : Nat) : (s.bumpF a hi lo).pol = s.pol := rfl
@[simp] theorem bumpF_glf (a hi lo : Nat) : (s.bumpF a hi lo).glf = s.glf := rfl
@[simp] theorem bumpF_rsq (a hi lo : Nat) : (s.bumpF a hi lo).rsq = s.rsq := rfl
@[simp] theorem bumpF_bpm (a hi lo : Nat) : (s.bumpF a hi lo).bpm = s.bpm := rfl
@[simp] theorem bumpF_tmg (a hi lo : Nat) : (s.bumpF a hi lo).tmg = s.tmg := rfl
@[simp] theorem bumpF_tsu (a hi lo : Nat) : (s.bumpF a hi lo).tsu = s.tsu := rfl
@[simp] theorem bumpF_tgs (a hi lo : Nat) : (s.bumpF a hi lo).tgs = s.tgs := rfl
@[simp] theorem bumpF_mir (a hi lo : Nat) : (s.bumpF a hi lo).mir = s.mir := rfl
@[simp] theorem bumpF_sta (a hi lo : Nat) : (s.bumpF a hi lo).sta = s.sta := rfl
@[simp] theorem bumpF_sec (a hi lo : Nat) : (s.bumpF a hi lo).sec = s.sec := rfl
@[simp] theorem bumpF_isl (a hi lo : Nat) : (s.bumpF a hi lo).isl = s.isl := rfl
@[simp] theorem bumpF_spr (a hi lo : Nat) : (s.bumpF a hi lo).spr = s.spr := rfl
@[simp] theorem bumpF_evr (a hi lo : Nat) : (s.bumpF a hi lo).evr = s.evr := rfl
@[simp] theorem bumpF_pmu (a hi lo : Nat) : (s.bumpF a hi lo).pmu = s.pmu := rfl
@[simp] theorem bumpF_dbg (a hi lo : Nat) : (s.bumpF a hi lo).dbg = s.dbg := rfl

/-! ### irq -/

@[simp] theorem irq_pending (page n : Nat) : (s.irq page n).pending = s.pending := rfl
@[simp] theorem irq_inForce (page n : Nat) : (s.irq page n).inForce = s.inForce := rfl
@[simp] theorem irq_win (page n : Nat) : (s.irq page n).win = s.win := rfl
@[simp] theorem irq_host (page n : Nat) : (s.irq page n).host = s.host := rfl
@[simp] theorem irq_hbm (page n : Nat) : (s.irq page n).hbm = s.hbm := rfl
@[simp] theorem irq_sram (page n : Nat) : (s.irq page n).sram = s.sram := rfl
@[simp] theorem irq_spi (page n : Nat) : (s.irq page n).spi = s.spi := rfl
@[simp] theorem irq_flash (page n : Nat) : (s.irq page n).flash = s.flash := rfl
@[simp] theorem irq_clk (page n : Nat) : (s.irq page n).clk = s.clk := rfl
@[simp] theorem irq_fresh (page n : Nat) : (s.irq page n).fresh = s.fresh := rfl
@[simp] theorem irq_out (page n : Nat) : (s.irq page n).out = s.out := rfl
@[simp] theorem irq_hif (page n : Nat) : (s.irq page n).hif = s.hif := rfl
@[simp] theorem irq_gov (page n : Nat) : (s.irq page n).gov = s.gov := rfl
@[simp] theorem irq_lanes (page n : Nat) : (s.irq page n).lanes = s.lanes := rfl
@[simp] theorem irq_macs (page n : Nat) : (s.irq page n).macs = s.macs := rfl
@[simp] theorem irq_frames (page n : Nat) : (s.irq page n).frames = s.frames := rfl
@[simp] theorem irq_copies (page n : Nat) : (s.irq page n).copies = s.copies := rfl
@[simp] theorem irq_eframes (page n : Nat) : (s.irq page n).eframes = s.eframes := rfl
@[simp] theorem irq_nextId (page n : Nat) : (s.irq page n).nextId = s.nextId := rfl
@[simp] theorem irq_ver (page n : Nat) : (s.irq page n).ver = s.ver := rfl
@[simp] theorem irq_tbl (page n : Nat) : (s.irq page n).tbl = s.tbl := rfl
@[simp] theorem irq_pol (page n : Nat) : (s.irq page n).pol = s.pol := rfl
@[simp] theorem irq_glf (page n : Nat) : (s.irq page n).glf = s.glf := rfl
@[simp] theorem irq_rsq (page n : Nat) : (s.irq page n).rsq = s.rsq := rfl
@[simp] theorem irq_bpm (page n : Nat) : (s.irq page n).bpm = s.bpm := rfl
@[simp] theorem irq_tmg (page n : Nat) : (s.irq page n).tmg = s.tmg := rfl
@[simp] theorem irq_tsu (page n : Nat) : (s.irq page n).tsu = s.tsu := rfl
@[simp] theorem irq_tgs (page n : Nat) : (s.irq page n).tgs = s.tgs := rfl
@[simp] theorem irq_mir (page n : Nat) : (s.irq page n).mir = s.mir := rfl
@[simp] theorem irq_sta (page n : Nat) : (s.irq page n).sta = s.sta := rfl
@[simp] theorem irq_sec (page n : Nat) : (s.irq page n).sec = s.sec := rfl
@[simp] theorem irq_isl (page n : Nat) : (s.irq page n).isl = s.isl := rfl
@[simp] theorem irq_spr (page n : Nat) : (s.irq page n).spr = s.spr := rfl
@[simp] theorem irq_evr (page n : Nat) : (s.irq page n).evr = s.evr := rfl
@[simp] theorem irq_pmu (page n : Nat) : (s.irq page n).pmu = s.pmu := rfl
@[simp] theorem irq_dbg (page n : Nat) : (s.irq page n).dbg = s.dbg := rfl

/-! ### raise -/

@[simp] theorem raise_pending (page code p0 p1 p2 p3 : Nat) : (s.raise page code p0 p1 p2 p3).pending = s.pending := rfl
@[simp] theorem raise_regs (page code p0 p1 p2 p3 : Nat) : (s.raise page code p0 p1 p2 p3).regs = s.regs := rfl
@[simp] theorem raise_inForce (page code p0 p1 p2 p3 : Nat) : (s.raise page code p0 p1 p2 p3).inForce = s.inForce := rfl
@[simp] theorem raise_win (page code p0 p1 p2 p3 : Nat) : (s.raise page code p0 p1 p2 p3).win = s.win := rfl
@[simp] theorem raise_host (page code p0 p1 p2 p3 : Nat) : (s.raise page code p0 p1 p2 p3).host = s.host := rfl
@[simp] theorem raise_hbm (page code p0 p1 p2 p3 : Nat) : (s.raise page code p0 p1 p2 p3).hbm = s.hbm := rfl
@[simp] theorem raise_sram (page code p0 p1 p2 p3 : Nat) : (s.raise page code p0 p1 p2 p3).sram = s.sram := rfl
@[simp] theorem raise_spi (page code p0 p1 p2 p3 : Nat) : (s.raise page code p0 p1 p2 p3).spi = s.spi := rfl
@[simp] theorem raise_flash (page code p0 p1 p2 p3 : Nat) : (s.raise page code p0 p1 p2 p3).flash = s.flash := rfl
@[simp] theorem raise_clk (page code p0 p1 p2 p3 : Nat) : (s.raise page code p0 p1 p2 p3).clk = s.clk := rfl
@[simp] theorem raise_fresh (page code p0 p1 p2 p3 : Nat) : (s.raise page code p0 p1 p2 p3).fresh = s.fresh := rfl
@[simp] theorem raise_out (page code p0 p1 p2 p3 : Nat) : (s.raise page code p0 p1 p2 p3).out = s.out := rfl
@[simp] theorem raise_hif (page code p0 p1 p2 p3 : Nat) : (s.raise page code p0 p1 p2 p3).hif = s.hif := rfl
@[simp] theorem raise_gov (page code p0 p1 p2 p3 : Nat) : (s.raise page code p0 p1 p2 p3).gov = s.gov := rfl
@[simp] theorem raise_lanes (page code p0 p1 p2 p3 : Nat) : (s.raise page code p0 p1 p2 p3).lanes = s.lanes := rfl
@[simp] theorem raise_macs (page code p0 p1 p2 p3 : Nat) : (s.raise page code p0 p1 p2 p3).macs = s.macs := rfl
@[simp] theorem raise_frames (page code p0 p1 p2 p3 : Nat) : (s.raise page code p0 p1 p2 p3).frames = s.frames := rfl
@[simp] theorem raise_copies (page code p0 p1 p2 p3 : Nat) : (s.raise page code p0 p1 p2 p3).copies = s.copies := rfl
@[simp] theorem raise_eframes (page code p0 p1 p2 p3 : Nat) : (s.raise page code p0 p1 p2 p3).eframes = s.eframes := rfl
@[simp] theorem raise_nextId (page code p0 p1 p2 p3 : Nat) : (s.raise page code p0 p1 p2 p3).nextId = s.nextId := rfl
@[simp] theorem raise_ver (page code p0 p1 p2 p3 : Nat) : (s.raise page code p0 p1 p2 p3).ver = s.ver := rfl
@[simp] theorem raise_tbl (page code p0 p1 p2 p3 : Nat) : (s.raise page code p0 p1 p2 p3).tbl = s.tbl := rfl
@[simp] theorem raise_pol (page code p0 p1 p2 p3 : Nat) : (s.raise page code p0 p1 p2 p3).pol = s.pol := rfl
@[simp] theorem raise_glf (page code p0 p1 p2 p3 : Nat) : (s.raise page code p0 p1 p2 p3).glf = s.glf := rfl
@[simp] theorem raise_rsq (page code p0 p1 p2 p3 : Nat) : (s.raise page code p0 p1 p2 p3).rsq = s.rsq := rfl
@[simp] theorem raise_bpm (page code p0 p1 p2 p3 : Nat) : (s.raise page code p0 p1 p2 p3).bpm = s.bpm := rfl
@[simp] theorem raise_tmg (page code p0 p1 p2 p3 : Nat) : (s.raise page code p0 p1 p2 p3).tmg = s.tmg := rfl
@[simp] theorem raise_tsu (page code p0 p1 p2 p3 : Nat) : (s.raise page code p0 p1 p2 p3).tsu = s.tsu := rfl
@[simp] theorem raise_tgs (page code p0 p1 p2 p3 : Nat) : (s.raise page code p0 p1 p2 p3).tgs = s.tgs := rfl
@[simp] theorem raise_mir (page code p0 p1 p2 p3 : Nat) : (s.raise page code p0 p1 p2 p3).mir = s.mir := rfl
@[simp] theorem raise_sta (page code p0 p1 p2 p3 : Nat) : (s.raise page code p0 p1 p2 p3).sta = s.sta := rfl
@[simp] theorem raise_sec (page code p0 p1 p2 p3 : Nat) : (s.raise page code p0 p1 p2 p3).sec = s.sec := rfl
@[simp] theorem raise_isl (page code p0 p1 p2 p3 : Nat) : (s.raise page code p0 p1 p2 p3).isl = s.isl := rfl
@[simp] theorem raise_spr (page code p0 p1 p2 p3 : Nat) : (s.raise page code p0 p1 p2 p3).spr = s.spr := rfl
@[simp] theorem raise_pmu (page code p0 p1 p2 p3 : Nat) : (s.raise page code p0 p1 p2 p3).pmu = s.pmu := rfl
@[simp] theorem raise_dbg (page code p0 p1 p2 p3 : Nat) : (s.raise page code p0 p1 p2 p3).dbg = s.dbg := rfl

/-! ### report -/

@[simp] theorem report_pending (page n code p0 p1 p2 p3 : Nat) : (s.report page n code p0 p1 p2 p3).pending = s.pending := rfl
@[simp] theorem report_inForce (page n code p0 p1 p2 p3 : Nat) : (s.report page n code p0 p1 p2 p3).inForce = s.inForce := rfl
@[simp] theorem report_win (page n code p0 p1 p2 p3 : Nat) : (s.report page n code p0 p1 p2 p3).win = s.win := rfl
@[simp] theorem report_host (page n code p0 p1 p2 p3 : Nat) : (s.report page n code p0 p1 p2 p3).host = s.host := rfl
@[simp] theorem report_hbm (page n code p0 p1 p2 p3 : Nat) : (s.report page n code p0 p1 p2 p3).hbm = s.hbm := rfl
@[simp] theorem report_sram (page n code p0 p1 p2 p3 : Nat) : (s.report page n code p0 p1 p2 p3).sram = s.sram := rfl
@[simp] theorem report_spi (page n code p0 p1 p2 p3 : Nat) : (s.report page n code p0 p1 p2 p3).spi = s.spi := rfl
@[simp] theorem report_flash (page n code p0 p1 p2 p3 : Nat) : (s.report page n code p0 p1 p2 p3).flash = s.flash := rfl
@[simp] theorem report_clk (page n code p0 p1 p2 p3 : Nat) : (s.report page n code p0 p1 p2 p3).clk = s.clk := rfl
@[simp] theorem report_fresh (page n code p0 p1 p2 p3 : Nat) : (s.report page n code p0 p1 p2 p3).fresh = s.fresh := rfl
@[simp] theorem report_out (page n code p0 p1 p2 p3 : Nat) : (s.report page n code p0 p1 p2 p3).out = s.out := rfl
@[simp] theorem report_hif (page n code p0 p1 p2 p3 : Nat) : (s.report page n code p0 p1 p2 p3).hif = s.hif := rfl
@[simp] theorem report_gov (page n code p0 p1 p2 p3 : Nat) : (s.report page n code p0 p1 p2 p3).gov = s.gov := rfl
@[simp] theorem report_lanes (page n code p0 p1 p2 p3 : Nat) : (s.report page n code p0 p1 p2 p3).lanes = s.lanes := rfl
@[simp] theorem report_macs (page n code p0 p1 p2 p3 : Nat) : (s.report page n code p0 p1 p2 p3).macs = s.macs := rfl
@[simp] theorem report_frames (page n code p0 p1 p2 p3 : Nat) : (s.report page n code p0 p1 p2 p3).frames = s.frames := rfl
@[simp] theorem report_copies (page n code p0 p1 p2 p3 : Nat) : (s.report page n code p0 p1 p2 p3).copies = s.copies := rfl
@[simp] theorem report_eframes (page n code p0 p1 p2 p3 : Nat) : (s.report page n code p0 p1 p2 p3).eframes = s.eframes := rfl
@[simp] theorem report_nextId (page n code p0 p1 p2 p3 : Nat) : (s.report page n code p0 p1 p2 p3).nextId = s.nextId := rfl
@[simp] theorem report_ver (page n code p0 p1 p2 p3 : Nat) : (s.report page n code p0 p1 p2 p3).ver = s.ver := rfl
@[simp] theorem report_tbl (page n code p0 p1 p2 p3 : Nat) : (s.report page n code p0 p1 p2 p3).tbl = s.tbl := rfl
@[simp] theorem report_pol (page n code p0 p1 p2 p3 : Nat) : (s.report page n code p0 p1 p2 p3).pol = s.pol := rfl
@[simp] theorem report_glf (page n code p0 p1 p2 p3 : Nat) : (s.report page n code p0 p1 p2 p3).glf = s.glf := rfl
@[simp] theorem report_rsq (page n code p0 p1 p2 p3 : Nat) : (s.report page n code p0 p1 p2 p3).rsq = s.rsq := rfl
@[simp] theorem report_bpm (page n code p0 p1 p2 p3 : Nat) : (s.report page n code p0 p1 p2 p3).bpm = s.bpm := rfl
@[simp] theorem report_tmg (page n code p0 p1 p2 p3 : Nat) : (s.report page n code p0 p1 p2 p3).tmg = s.tmg := rfl
@[simp] theorem report_tsu (page n code p0 p1 p2 p3 : Nat) : (s.report page n code p0 p1 p2 p3).tsu = s.tsu := rfl
@[simp] theorem report_tgs (page n code p0 p1 p2 p3 : Nat) : (s.report page n code p0 p1 p2 p3).tgs = s.tgs := rfl
@[simp] theorem report_mir (page n code p0 p1 p2 p3 : Nat) : (s.report page n code p0 p1 p2 p3).mir = s.mir := rfl
@[simp] theorem report_sta (page n code p0 p1 p2 p3 : Nat) : (s.report page n code p0 p1 p2 p3).sta = s.sta := rfl
@[simp] theorem report_sec (page n code p0 p1 p2 p3 : Nat) : (s.report page n code p0 p1 p2 p3).sec = s.sec := rfl
@[simp] theorem report_isl (page n code p0 p1 p2 p3 : Nat) : (s.report page n code p0 p1 p2 p3).isl = s.isl := rfl
@[simp] theorem report_spr (page n code p0 p1 p2 p3 : Nat) : (s.report page n code p0 p1 p2 p3).spr = s.spr := rfl
@[simp] theorem report_pmu (page n code p0 p1 p2 p3 : Nat) : (s.report page n code p0 p1 p2 p3).pmu = s.pmu := rfl
@[simp] theorem report_dbg (page n code p0 p1 p2 p3 : Nat) : (s.report page n code p0 p1 p2 p3).dbg = s.dbg := rfl

/-! ### winWr -/

@[simp] theorem winWr_pending (a : Nat) (bs : List Byte) : (s.winWr a bs).pending = s.pending := rfl
@[simp] theorem winWr_regs (a : Nat) (bs : List Byte) : (s.winWr a bs).regs = s.regs := rfl
@[simp] theorem winWr_inForce (a : Nat) (bs : List Byte) : (s.winWr a bs).inForce = s.inForce := rfl
@[simp] theorem winWr_host (a : Nat) (bs : List Byte) : (s.winWr a bs).host = s.host := rfl
@[simp] theorem winWr_hbm (a : Nat) (bs : List Byte) : (s.winWr a bs).hbm = s.hbm := rfl
@[simp] theorem winWr_sram (a : Nat) (bs : List Byte) : (s.winWr a bs).sram = s.sram := rfl
@[simp] theorem winWr_spi (a : Nat) (bs : List Byte) : (s.winWr a bs).spi = s.spi := rfl
@[simp] theorem winWr_flash (a : Nat) (bs : List Byte) : (s.winWr a bs).flash = s.flash := rfl
@[simp] theorem winWr_clk (a : Nat) (bs : List Byte) : (s.winWr a bs).clk = s.clk := rfl
@[simp] theorem winWr_fresh (a : Nat) (bs : List Byte) : (s.winWr a bs).fresh = s.fresh := rfl
@[simp] theorem winWr_out (a : Nat) (bs : List Byte) : (s.winWr a bs).out = s.out := rfl
@[simp] theorem winWr_hif (a : Nat) (bs : List Byte) : (s.winWr a bs).hif = s.hif := rfl
@[simp] theorem winWr_gov (a : Nat) (bs : List Byte) : (s.winWr a bs).gov = s.gov := rfl
@[simp] theorem winWr_lanes (a : Nat) (bs : List Byte) : (s.winWr a bs).lanes = s.lanes := rfl
@[simp] theorem winWr_macs (a : Nat) (bs : List Byte) : (s.winWr a bs).macs = s.macs := rfl
@[simp] theorem winWr_frames (a : Nat) (bs : List Byte) : (s.winWr a bs).frames = s.frames := rfl
@[simp] theorem winWr_copies (a : Nat) (bs : List Byte) : (s.winWr a bs).copies = s.copies := rfl
@[simp] theorem winWr_eframes (a : Nat) (bs : List Byte) : (s.winWr a bs).eframes = s.eframes := rfl
@[simp] theorem winWr_nextId (a : Nat) (bs : List Byte) : (s.winWr a bs).nextId = s.nextId := rfl
@[simp] theorem winWr_ver (a : Nat) (bs : List Byte) : (s.winWr a bs).ver = s.ver := rfl
@[simp] theorem winWr_tbl (a : Nat) (bs : List Byte) : (s.winWr a bs).tbl = s.tbl := rfl
@[simp] theorem winWr_pol (a : Nat) (bs : List Byte) : (s.winWr a bs).pol = s.pol := rfl
@[simp] theorem winWr_glf (a : Nat) (bs : List Byte) : (s.winWr a bs).glf = s.glf := rfl
@[simp] theorem winWr_rsq (a : Nat) (bs : List Byte) : (s.winWr a bs).rsq = s.rsq := rfl
@[simp] theorem winWr_bpm (a : Nat) (bs : List Byte) : (s.winWr a bs).bpm = s.bpm := rfl
@[simp] theorem winWr_tmg (a : Nat) (bs : List Byte) : (s.winWr a bs).tmg = s.tmg := rfl
@[simp] theorem winWr_tsu (a : Nat) (bs : List Byte) : (s.winWr a bs).tsu = s.tsu := rfl
@[simp] theorem winWr_tgs (a : Nat) (bs : List Byte) : (s.winWr a bs).tgs = s.tgs := rfl
@[simp] theorem winWr_mir (a : Nat) (bs : List Byte) : (s.winWr a bs).mir = s.mir := rfl
@[simp] theorem winWr_sta (a : Nat) (bs : List Byte) : (s.winWr a bs).sta = s.sta := rfl
@[simp] theorem winWr_sec (a : Nat) (bs : List Byte) : (s.winWr a bs).sec = s.sec := rfl
@[simp] theorem winWr_isl (a : Nat) (bs : List Byte) : (s.winWr a bs).isl = s.isl := rfl
@[simp] theorem winWr_spr (a : Nat) (bs : List Byte) : (s.winWr a bs).spr = s.spr := rfl
@[simp] theorem winWr_evr (a : Nat) (bs : List Byte) : (s.winWr a bs).evr = s.evr := rfl
@[simp] theorem winWr_pmu (a : Nat) (bs : List Byte) : (s.winWr a bs).pmu = s.pmu := rfl
@[simp] theorem winWr_dbg (a : Nat) (bs : List Byte) : (s.winWr a bs).dbg = s.dbg := rfl

/-! ### winPut -/

@[simp] theorem winPut_pending (a n v : Nat) : (s.winPut a n v).pending = s.pending := rfl
@[simp] theorem winPut_regs (a n v : Nat) : (s.winPut a n v).regs = s.regs := rfl
@[simp] theorem winPut_inForce (a n v : Nat) : (s.winPut a n v).inForce = s.inForce := rfl
@[simp] theorem winPut_host (a n v : Nat) : (s.winPut a n v).host = s.host := rfl
@[simp] theorem winPut_hbm (a n v : Nat) : (s.winPut a n v).hbm = s.hbm := rfl
@[simp] theorem winPut_sram (a n v : Nat) : (s.winPut a n v).sram = s.sram := rfl
@[simp] theorem winPut_spi (a n v : Nat) : (s.winPut a n v).spi = s.spi := rfl
@[simp] theorem winPut_flash (a n v : Nat) : (s.winPut a n v).flash = s.flash := rfl
@[simp] theorem winPut_clk (a n v : Nat) : (s.winPut a n v).clk = s.clk := rfl
@[simp] theorem winPut_fresh (a n v : Nat) : (s.winPut a n v).fresh = s.fresh := rfl
@[simp] theorem winPut_out (a n v : Nat) : (s.winPut a n v).out = s.out := rfl
@[simp] theorem winPut_hif (a n v : Nat) : (s.winPut a n v).hif = s.hif := rfl
@[simp] theorem winPut_gov (a n v : Nat) : (s.winPut a n v).gov = s.gov := rfl
@[simp] theorem winPut_lanes (a n v : Nat) : (s.winPut a n v).lanes = s.lanes := rfl
@[simp] theorem winPut_macs (a n v : Nat) : (s.winPut a n v).macs = s.macs := rfl
@[simp] theorem winPut_frames (a n v : Nat) : (s.winPut a n v).frames = s.frames := rfl
@[simp] theorem winPut_copies (a n v : Nat) : (s.winPut a n v).copies = s.copies := rfl
@[simp] theorem winPut_eframes (a n v : Nat) : (s.winPut a n v).eframes = s.eframes := rfl
@[simp] theorem winPut_nextId (a n v : Nat) : (s.winPut a n v).nextId = s.nextId := rfl
@[simp] theorem winPut_ver (a n v : Nat) : (s.winPut a n v).ver = s.ver := rfl
@[simp] theorem winPut_tbl (a n v : Nat) : (s.winPut a n v).tbl = s.tbl := rfl
@[simp] theorem winPut_pol (a n v : Nat) : (s.winPut a n v).pol = s.pol := rfl
@[simp] theorem winPut_glf (a n v : Nat) : (s.winPut a n v).glf = s.glf := rfl
@[simp] theorem winPut_rsq (a n v : Nat) : (s.winPut a n v).rsq = s.rsq := rfl
@[simp] theorem winPut_bpm (a n v : Nat) : (s.winPut a n v).bpm = s.bpm := rfl
@[simp] theorem winPut_tmg (a n v : Nat) : (s.winPut a n v).tmg = s.tmg := rfl
@[simp] theorem winPut_tsu (a n v : Nat) : (s.winPut a n v).tsu = s.tsu := rfl
@[simp] theorem winPut_tgs (a n v : Nat) : (s.winPut a n v).tgs = s.tgs := rfl
@[simp] theorem winPut_mir (a n v : Nat) : (s.winPut a n v).mir = s.mir := rfl
@[simp] theorem winPut_sta (a n v : Nat) : (s.winPut a n v).sta = s.sta := rfl
@[simp] theorem winPut_sec (a n v : Nat) : (s.winPut a n v).sec = s.sec := rfl
@[simp] theorem winPut_isl (a n v : Nat) : (s.winPut a n v).isl = s.isl := rfl
@[simp] theorem winPut_spr (a n v : Nat) : (s.winPut a n v).spr = s.spr := rfl
@[simp] theorem winPut_evr (a n v : Nat) : (s.winPut a n v).evr = s.evr := rfl
@[simp] theorem winPut_pmu (a n v : Nat) : (s.winPut a n v).pmu = s.pmu := rfl
@[simp] theorem winPut_dbg (a n v : Nat) : (s.winPut a n v).dbg = s.dbg := rfl

/-! ### hostWr -/

@[simp] theorem hostWr_pending (a : Nat) (bs : List Byte) : (s.hostWr a bs).pending = s.pending := rfl
@[simp] theorem hostWr_regs (a : Nat) (bs : List Byte) : (s.hostWr a bs).regs = s.regs := rfl
@[simp] theorem hostWr_inForce (a : Nat) (bs : List Byte) : (s.hostWr a bs).inForce = s.inForce := rfl
@[simp] theorem hostWr_win (a : Nat) (bs : List Byte) : (s.hostWr a bs).win = s.win := rfl
@[simp] theorem hostWr_hbm (a : Nat) (bs : List Byte) : (s.hostWr a bs).hbm = s.hbm := rfl
@[simp] theorem hostWr_sram (a : Nat) (bs : List Byte) : (s.hostWr a bs).sram = s.sram := rfl
@[simp] theorem hostWr_spi (a : Nat) (bs : List Byte) : (s.hostWr a bs).spi = s.spi := rfl
@[simp] theorem hostWr_flash (a : Nat) (bs : List Byte) : (s.hostWr a bs).flash = s.flash := rfl
@[simp] theorem hostWr_clk (a : Nat) (bs : List Byte) : (s.hostWr a bs).clk = s.clk := rfl
@[simp] theorem hostWr_fresh (a : Nat) (bs : List Byte) : (s.hostWr a bs).fresh = s.fresh := rfl
@[simp] theorem hostWr_out (a : Nat) (bs : List Byte) : (s.hostWr a bs).out = s.out := rfl
@[simp] theorem hostWr_hif (a : Nat) (bs : List Byte) : (s.hostWr a bs).hif = s.hif := rfl
@[simp] theorem hostWr_gov (a : Nat) (bs : List Byte) : (s.hostWr a bs).gov = s.gov := rfl
@[simp] theorem hostWr_lanes (a : Nat) (bs : List Byte) : (s.hostWr a bs).lanes = s.lanes := rfl
@[simp] theorem hostWr_macs (a : Nat) (bs : List Byte) : (s.hostWr a bs).macs = s.macs := rfl
@[simp] theorem hostWr_frames (a : Nat) (bs : List Byte) : (s.hostWr a bs).frames = s.frames := rfl
@[simp] theorem hostWr_copies (a : Nat) (bs : List Byte) : (s.hostWr a bs).copies = s.copies := rfl
@[simp] theorem hostWr_eframes (a : Nat) (bs : List Byte) : (s.hostWr a bs).eframes = s.eframes := rfl
@[simp] theorem hostWr_nextId (a : Nat) (bs : List Byte) : (s.hostWr a bs).nextId = s.nextId := rfl
@[simp] theorem hostWr_ver (a : Nat) (bs : List Byte) : (s.hostWr a bs).ver = s.ver := rfl
@[simp] theorem hostWr_tbl (a : Nat) (bs : List Byte) : (s.hostWr a bs).tbl = s.tbl := rfl
@[simp] theorem hostWr_pol (a : Nat) (bs : List Byte) : (s.hostWr a bs).pol = s.pol := rfl
@[simp] theorem hostWr_glf (a : Nat) (bs : List Byte) : (s.hostWr a bs).glf = s.glf := rfl
@[simp] theorem hostWr_rsq (a : Nat) (bs : List Byte) : (s.hostWr a bs).rsq = s.rsq := rfl
@[simp] theorem hostWr_bpm (a : Nat) (bs : List Byte) : (s.hostWr a bs).bpm = s.bpm := rfl
@[simp] theorem hostWr_tmg (a : Nat) (bs : List Byte) : (s.hostWr a bs).tmg = s.tmg := rfl
@[simp] theorem hostWr_tsu (a : Nat) (bs : List Byte) : (s.hostWr a bs).tsu = s.tsu := rfl
@[simp] theorem hostWr_tgs (a : Nat) (bs : List Byte) : (s.hostWr a bs).tgs = s.tgs := rfl
@[simp] theorem hostWr_mir (a : Nat) (bs : List Byte) : (s.hostWr a bs).mir = s.mir := rfl
@[simp] theorem hostWr_sta (a : Nat) (bs : List Byte) : (s.hostWr a bs).sta = s.sta := rfl
@[simp] theorem hostWr_sec (a : Nat) (bs : List Byte) : (s.hostWr a bs).sec = s.sec := rfl
@[simp] theorem hostWr_isl (a : Nat) (bs : List Byte) : (s.hostWr a bs).isl = s.isl := rfl
@[simp] theorem hostWr_spr (a : Nat) (bs : List Byte) : (s.hostWr a bs).spr = s.spr := rfl
@[simp] theorem hostWr_evr (a : Nat) (bs : List Byte) : (s.hostWr a bs).evr = s.evr := rfl
@[simp] theorem hostWr_pmu (a : Nat) (bs : List Byte) : (s.hostWr a bs).pmu = s.pmu := rfl
@[simp] theorem hostWr_dbg (a : Nat) (bs : List Byte) : (s.hostWr a bs).dbg = s.dbg := rfl

/-! ### hbmWr -/

@[simp] theorem hbmWr_pending (a : Nat) (bs : List Byte) : (s.hbmWr a bs).pending = s.pending := rfl
@[simp] theorem hbmWr_regs (a : Nat) (bs : List Byte) : (s.hbmWr a bs).regs = s.regs := rfl
@[simp] theorem hbmWr_inForce (a : Nat) (bs : List Byte) : (s.hbmWr a bs).inForce = s.inForce := rfl
@[simp] theorem hbmWr_win (a : Nat) (bs : List Byte) : (s.hbmWr a bs).win = s.win := rfl
@[simp] theorem hbmWr_host (a : Nat) (bs : List Byte) : (s.hbmWr a bs).host = s.host := rfl
@[simp] theorem hbmWr_sram (a : Nat) (bs : List Byte) : (s.hbmWr a bs).sram = s.sram := rfl
@[simp] theorem hbmWr_spi (a : Nat) (bs : List Byte) : (s.hbmWr a bs).spi = s.spi := rfl
@[simp] theorem hbmWr_flash (a : Nat) (bs : List Byte) : (s.hbmWr a bs).flash = s.flash := rfl
@[simp] theorem hbmWr_clk (a : Nat) (bs : List Byte) : (s.hbmWr a bs).clk = s.clk := rfl
@[simp] theorem hbmWr_fresh (a : Nat) (bs : List Byte) : (s.hbmWr a bs).fresh = s.fresh := rfl
@[simp] theorem hbmWr_out (a : Nat) (bs : List Byte) : (s.hbmWr a bs).out = s.out := rfl
@[simp] theorem hbmWr_hif (a : Nat) (bs : List Byte) : (s.hbmWr a bs).hif = s.hif := rfl
@[simp] theorem hbmWr_gov (a : Nat) (bs : List Byte) : (s.hbmWr a bs).gov = s.gov := rfl
@[simp] theorem hbmWr_lanes (a : Nat) (bs : List Byte) : (s.hbmWr a bs).lanes = s.lanes := rfl
@[simp] theorem hbmWr_macs (a : Nat) (bs : List Byte) : (s.hbmWr a bs).macs = s.macs := rfl
@[simp] theorem hbmWr_frames (a : Nat) (bs : List Byte) : (s.hbmWr a bs).frames = s.frames := rfl
@[simp] theorem hbmWr_copies (a : Nat) (bs : List Byte) : (s.hbmWr a bs).copies = s.copies := rfl
@[simp] theorem hbmWr_eframes (a : Nat) (bs : List Byte) : (s.hbmWr a bs).eframes = s.eframes := rfl
@[simp] theorem hbmWr_nextId (a : Nat) (bs : List Byte) : (s.hbmWr a bs).nextId = s.nextId := rfl
@[simp] theorem hbmWr_ver (a : Nat) (bs : List Byte) : (s.hbmWr a bs).ver = s.ver := rfl
@[simp] theorem hbmWr_tbl (a : Nat) (bs : List Byte) : (s.hbmWr a bs).tbl = s.tbl := rfl
@[simp] theorem hbmWr_pol (a : Nat) (bs : List Byte) : (s.hbmWr a bs).pol = s.pol := rfl
@[simp] theorem hbmWr_glf (a : Nat) (bs : List Byte) : (s.hbmWr a bs).glf = s.glf := rfl
@[simp] theorem hbmWr_rsq (a : Nat) (bs : List Byte) : (s.hbmWr a bs).rsq = s.rsq := rfl
@[simp] theorem hbmWr_bpm (a : Nat) (bs : List Byte) : (s.hbmWr a bs).bpm = s.bpm := rfl
@[simp] theorem hbmWr_tmg (a : Nat) (bs : List Byte) : (s.hbmWr a bs).tmg = s.tmg := rfl
@[simp] theorem hbmWr_tsu (a : Nat) (bs : List Byte) : (s.hbmWr a bs).tsu = s.tsu := rfl
@[simp] theorem hbmWr_tgs (a : Nat) (bs : List Byte) : (s.hbmWr a bs).tgs = s.tgs := rfl
@[simp] theorem hbmWr_mir (a : Nat) (bs : List Byte) : (s.hbmWr a bs).mir = s.mir := rfl
@[simp] theorem hbmWr_sta (a : Nat) (bs : List Byte) : (s.hbmWr a bs).sta = s.sta := rfl
@[simp] theorem hbmWr_sec (a : Nat) (bs : List Byte) : (s.hbmWr a bs).sec = s.sec := rfl
@[simp] theorem hbmWr_isl (a : Nat) (bs : List Byte) : (s.hbmWr a bs).isl = s.isl := rfl
@[simp] theorem hbmWr_spr (a : Nat) (bs : List Byte) : (s.hbmWr a bs).spr = s.spr := rfl
@[simp] theorem hbmWr_evr (a : Nat) (bs : List Byte) : (s.hbmWr a bs).evr = s.evr := rfl
@[simp] theorem hbmWr_pmu (a : Nat) (bs : List Byte) : (s.hbmWr a bs).pmu = s.pmu := rfl
@[simp] theorem hbmWr_dbg (a : Nat) (bs : List Byte) : (s.hbmWr a bs).dbg = s.dbg := rfl

/-! ### setFrame -/

@[simp] theorem setFrame_pending (x : Frame) : (s.setFrame x).pending = s.pending := rfl
@[simp] theorem setFrame_regs (x : Frame) : (s.setFrame x).regs = s.regs := rfl
@[simp] theorem setFrame_inForce (x : Frame) : (s.setFrame x).inForce = s.inForce := rfl
@[simp] theorem setFrame_win (x : Frame) : (s.setFrame x).win = s.win := rfl
@[simp] theorem setFrame_host (x : Frame) : (s.setFrame x).host = s.host := rfl
@[simp] theorem setFrame_hbm (x : Frame) : (s.setFrame x).hbm = s.hbm := rfl
@[simp] theorem setFrame_sram (x : Frame) : (s.setFrame x).sram = s.sram := rfl
@[simp] theorem setFrame_spi (x : Frame) : (s.setFrame x).spi = s.spi := rfl
@[simp] theorem setFrame_flash (x : Frame) : (s.setFrame x).flash = s.flash := rfl
@[simp] theorem setFrame_clk (x : Frame) : (s.setFrame x).clk = s.clk := rfl
@[simp] theorem setFrame_fresh (x : Frame) : (s.setFrame x).fresh = s.fresh := rfl
@[simp] theorem setFrame_out (x : Frame) : (s.setFrame x).out = s.out := rfl
@[simp] theorem setFrame_hif (x : Frame) : (s.setFrame x).hif = s.hif := rfl
@[simp] theorem setFrame_gov (x : Frame) : (s.setFrame x).gov = s.gov := rfl
@[simp] theorem setFrame_lanes (x : Frame) : (s.setFrame x).lanes = s.lanes := rfl
@[simp] theorem setFrame_macs (x : Frame) : (s.setFrame x).macs = s.macs := rfl
@[simp] theorem setFrame_copies (x : Frame) : (s.setFrame x).copies = s.copies := rfl
@[simp] theorem setFrame_eframes (x : Frame) : (s.setFrame x).eframes = s.eframes := rfl
@[simp] theorem setFrame_nextId (x : Frame) : (s.setFrame x).nextId = s.nextId := rfl
@[simp] theorem setFrame_ver (x : Frame) : (s.setFrame x).ver = s.ver := rfl
@[simp] theorem setFrame_tbl (x : Frame) : (s.setFrame x).tbl = s.tbl := rfl
@[simp] theorem setFrame_pol (x : Frame) : (s.setFrame x).pol = s.pol := rfl
@[simp] theorem setFrame_glf (x : Frame) : (s.setFrame x).glf = s.glf := rfl
@[simp] theorem setFrame_rsq (x : Frame) : (s.setFrame x).rsq = s.rsq := rfl
@[simp] theorem setFrame_bpm (x : Frame) : (s.setFrame x).bpm = s.bpm := rfl
@[simp] theorem setFrame_tmg (x : Frame) : (s.setFrame x).tmg = s.tmg := rfl
@[simp] theorem setFrame_tsu (x : Frame) : (s.setFrame x).tsu = s.tsu := rfl
@[simp] theorem setFrame_tgs (x : Frame) : (s.setFrame x).tgs = s.tgs := rfl
@[simp] theorem setFrame_mir (x : Frame) : (s.setFrame x).mir = s.mir := rfl
@[simp] theorem setFrame_sta (x : Frame) : (s.setFrame x).sta = s.sta := rfl
@[simp] theorem setFrame_sec (x : Frame) : (s.setFrame x).sec = s.sec := rfl
@[simp] theorem setFrame_isl (x : Frame) : (s.setFrame x).isl = s.isl := rfl
@[simp] theorem setFrame_spr (x : Frame) : (s.setFrame x).spr = s.spr := rfl
@[simp] theorem setFrame_evr (x : Frame) : (s.setFrame x).evr = s.evr := rfl
@[simp] theorem setFrame_pmu (x : Frame) : (s.setFrame x).pmu = s.pmu := rfl
@[simp] theorem setFrame_dbg (x : Frame) : (s.setFrame x).dbg = s.dbg := rfl

/-! ### dropFrameRec -/

@[simp] theorem dropFrameRec_pending (i : Nat) : (s.dropFrameRec i).pending = s.pending := rfl
@[simp] theorem dropFrameRec_regs (i : Nat) : (s.dropFrameRec i).regs = s.regs := rfl
@[simp] theorem dropFrameRec_inForce (i : Nat) : (s.dropFrameRec i).inForce = s.inForce := rfl
@[simp] theorem dropFrameRec_win (i : Nat) : (s.dropFrameRec i).win = s.win := rfl
@[simp] theorem dropFrameRec_host (i : Nat) : (s.dropFrameRec i).host = s.host := rfl
@[simp] theorem dropFrameRec_hbm (i : Nat) : (s.dropFrameRec i).hbm = s.hbm := rfl
@[simp] theorem dropFrameRec_sram (i : Nat) : (s.dropFrameRec i).sram = s.sram := rfl
@[simp] theorem dropFrameRec_spi (i : Nat) : (s.dropFrameRec i).spi = s.spi := rfl
@[simp] theorem dropFrameRec_flash (i : Nat) : (s.dropFrameRec i).flash = s.flash := rfl
@[simp] theorem dropFrameRec_clk (i : Nat) : (s.dropFrameRec i).clk = s.clk := rfl
@[simp] theorem dropFrameRec_fresh (i : Nat) : (s.dropFrameRec i).fresh = s.fresh := rfl
@[simp] theorem dropFrameRec_out (i : Nat) : (s.dropFrameRec i).out = s.out := rfl
@[simp] theorem dropFrameRec_hif (i : Nat) : (s.dropFrameRec i).hif = s.hif := rfl
@[simp] theorem dropFrameRec_gov (i : Nat) : (s.dropFrameRec i).gov = s.gov := rfl
@[simp] theorem dropFrameRec_lanes (i : Nat) : (s.dropFrameRec i).lanes = s.lanes := rfl
@[simp] theorem dropFrameRec_macs (i : Nat) : (s.dropFrameRec i).macs = s.macs := rfl
@[simp] theorem dropFrameRec_copies (i : Nat) : (s.dropFrameRec i).copies = s.copies := rfl
@[simp] theorem dropFrameRec_eframes (i : Nat) : (s.dropFrameRec i).eframes = s.eframes := rfl
@[simp] theorem dropFrameRec_nextId (i : Nat) : (s.dropFrameRec i).nextId = s.nextId := rfl
@[simp] theorem dropFrameRec_ver (i : Nat) : (s.dropFrameRec i).ver = s.ver := rfl
@[simp] theorem dropFrameRec_tbl (i : Nat) : (s.dropFrameRec i).tbl = s.tbl := rfl
@[simp] theorem dropFrameRec_pol (i : Nat) : (s.dropFrameRec i).pol = s.pol := rfl
@[simp] theorem dropFrameRec_glf (i : Nat) : (s.dropFrameRec i).glf = s.glf := rfl
@[simp] theorem dropFrameRec_rsq (i : Nat) : (s.dropFrameRec i).rsq = s.rsq := rfl
@[simp] theorem dropFrameRec_bpm (i : Nat) : (s.dropFrameRec i).bpm = s.bpm := rfl
@[simp] theorem dropFrameRec_tmg (i : Nat) : (s.dropFrameRec i).tmg = s.tmg := rfl
@[simp] theorem dropFrameRec_tsu (i : Nat) : (s.dropFrameRec i).tsu = s.tsu := rfl
@[simp] theorem dropFrameRec_tgs (i : Nat) : (s.dropFrameRec i).tgs = s.tgs := rfl
@[simp] theorem dropFrameRec_mir (i : Nat) : (s.dropFrameRec i).mir = s.mir := rfl
@[simp] theorem dropFrameRec_sta (i : Nat) : (s.dropFrameRec i).sta = s.sta := rfl
@[simp] theorem dropFrameRec_sec (i : Nat) : (s.dropFrameRec i).sec = s.sec := rfl
@[simp] theorem dropFrameRec_isl (i : Nat) : (s.dropFrameRec i).isl = s.isl := rfl
@[simp] theorem dropFrameRec_spr (i : Nat) : (s.dropFrameRec i).spr = s.spr := rfl
@[simp] theorem dropFrameRec_evr (i : Nat) : (s.dropFrameRec i).evr = s.evr := rfl
@[simp] theorem dropFrameRec_pmu (i : Nat) : (s.dropFrameRec i).pmu = s.pmu := rfl
@[simp] theorem dropFrameRec_dbg (i : Nat) : (s.dropFrameRec i).dbg = s.dbg := rfl

/-! ### setCopy -/

@[simp] theorem setCopy_pending (x : Copy) : (s.setCopy x).pending = s.pending := rfl
@[simp] theorem setCopy_regs (x : Copy) : (s.setCopy x).regs = s.regs := rfl
@[simp] theorem setCopy_inForce (x : Copy) : (s.setCopy x).inForce = s.inForce := rfl
@[simp] theorem setCopy_win (x : Copy) : (s.setCopy x).win = s.win := rfl
@[simp] theorem setCopy_host (x : Copy) : (s.setCopy x).host = s.host := rfl
@[simp] theorem setCopy_hbm (x : Copy) : (s.setCopy x).hbm = s.hbm := rfl
@[simp] theorem setCopy_sram (x : Copy) : (s.setCopy x).sram = s.sram := rfl
@[simp] theorem setCopy_spi (x : Copy) : (s.setCopy x).spi = s.spi := rfl
@[simp] theorem setCopy_flash (x : Copy) : (s.setCopy x).flash = s.flash := rfl
@[simp] theorem setCopy_clk (x : Copy) : (s.setCopy x).clk = s.clk := rfl
@[simp] theorem setCopy_fresh (x : Copy) : (s.setCopy x).fresh = s.fresh := rfl
@[simp] theorem setCopy_out (x : Copy) : (s.setCopy x).out = s.out := rfl
@[simp] theorem setCopy_hif (x : Copy) : (s.setCopy x).hif = s.hif := rfl
@[simp] theorem setCopy_gov (x : Copy) : (s.setCopy x).gov = s.gov := rfl
@[simp] theorem setCopy_lanes (x : Copy) : (s.setCopy x).lanes = s.lanes := rfl
@[simp] theorem setCopy_macs (x : Copy) : (s.setCopy x).macs = s.macs := rfl
@[simp] theorem setCopy_frames (x : Copy) : (s.setCopy x).frames = s.frames := rfl
@[simp] theorem setCopy_eframes (x : Copy) : (s.setCopy x).eframes = s.eframes := rfl
@[simp] theorem setCopy_nextId (x : Copy) : (s.setCopy x).nextId = s.nextId := rfl
@[simp] theorem setCopy_ver (x : Copy) : (s.setCopy x).ver = s.ver := rfl
@[simp] theorem setCopy_tbl (x : Copy) : (s.setCopy x).tbl = s.tbl := rfl
@[simp] theorem setCopy_pol (x : Copy) : (s.setCopy x).pol = s.pol := rfl
@[simp] theorem setCopy_glf (x : Copy) : (s.setCopy x).glf = s.glf := rfl
@[simp] theorem setCopy_rsq (x : Copy) : (s.setCopy x).rsq = s.rsq := rfl
@[simp] theorem setCopy_bpm (x : Copy) : (s.setCopy x).bpm = s.bpm := rfl
@[simp] theorem setCopy_tmg (x : Copy) : (s.setCopy x).tmg = s.tmg := rfl
@[simp] theorem setCopy_tsu (x : Copy) : (s.setCopy x).tsu = s.tsu := rfl
@[simp] theorem setCopy_tgs (x : Copy) : (s.setCopy x).tgs = s.tgs := rfl
@[simp] theorem setCopy_mir (x : Copy) : (s.setCopy x).mir = s.mir := rfl
@[simp] theorem setCopy_sta (x : Copy) : (s.setCopy x).sta = s.sta := rfl
@[simp] theorem setCopy_sec (x : Copy) : (s.setCopy x).sec = s.sec := rfl
@[simp] theorem setCopy_isl (x : Copy) : (s.setCopy x).isl = s.isl := rfl
@[simp] theorem setCopy_spr (x : Copy) : (s.setCopy x).spr = s.spr := rfl
@[simp] theorem setCopy_evr (x : Copy) : (s.setCopy x).evr = s.evr := rfl
@[simp] theorem setCopy_pmu (x : Copy) : (s.setCopy x).pmu = s.pmu := rfl
@[simp] theorem setCopy_dbg (x : Copy) : (s.setCopy x).dbg = s.dbg := rfl

/-! ### dropCopyRec -/

@[simp] theorem dropCopyRec_pending (i : Nat) : (s.dropCopyRec i).pending = s.pending := rfl
@[simp] theorem dropCopyRec_regs (i : Nat) : (s.dropCopyRec i).regs = s.regs := rfl
@[simp] theorem dropCopyRec_inForce (i : Nat) : (s.dropCopyRec i).inForce = s.inForce := rfl
@[simp] theorem dropCopyRec_win (i : Nat) : (s.dropCopyRec i).win = s.win := rfl
@[simp] theorem dropCopyRec_host (i : Nat) : (s.dropCopyRec i).host = s.host := rfl
@[simp] theorem dropCopyRec_hbm (i : Nat) : (s.dropCopyRec i).hbm = s.hbm := rfl
@[simp] theorem dropCopyRec_sram (i : Nat) : (s.dropCopyRec i).sram = s.sram := rfl
@[simp] theorem dropCopyRec_spi (i : Nat) : (s.dropCopyRec i).spi = s.spi := rfl
@[simp] theorem dropCopyRec_flash (i : Nat) : (s.dropCopyRec i).flash = s.flash := rfl
@[simp] theorem dropCopyRec_clk (i : Nat) : (s.dropCopyRec i).clk = s.clk := rfl
@[simp] theorem dropCopyRec_fresh (i : Nat) : (s.dropCopyRec i).fresh = s.fresh := rfl
@[simp] theorem dropCopyRec_out (i : Nat) : (s.dropCopyRec i).out = s.out := rfl
@[simp] theorem dropCopyRec_hif (i : Nat) : (s.dropCopyRec i).hif = s.hif := rfl
@[simp] theorem dropCopyRec_gov (i : Nat) : (s.dropCopyRec i).gov = s.gov := rfl
@[simp] theorem dropCopyRec_lanes (i : Nat) : (s.dropCopyRec i).lanes = s.lanes := rfl
@[simp] theorem dropCopyRec_macs (i : Nat) : (s.dropCopyRec i).macs = s.macs := rfl
@[simp] theorem dropCopyRec_frames (i : Nat) : (s.dropCopyRec i).frames = s.frames := rfl
@[simp] theorem dropCopyRec_eframes (i : Nat) : (s.dropCopyRec i).eframes = s.eframes := rfl
@[simp] theorem dropCopyRec_nextId (i : Nat) : (s.dropCopyRec i).nextId = s.nextId := rfl
@[simp] theorem dropCopyRec_ver (i : Nat) : (s.dropCopyRec i).ver = s.ver := rfl
@[simp] theorem dropCopyRec_tbl (i : Nat) : (s.dropCopyRec i).tbl = s.tbl := rfl
@[simp] theorem dropCopyRec_pol (i : Nat) : (s.dropCopyRec i).pol = s.pol := rfl
@[simp] theorem dropCopyRec_glf (i : Nat) : (s.dropCopyRec i).glf = s.glf := rfl
@[simp] theorem dropCopyRec_rsq (i : Nat) : (s.dropCopyRec i).rsq = s.rsq := rfl
@[simp] theorem dropCopyRec_bpm (i : Nat) : (s.dropCopyRec i).bpm = s.bpm := rfl
@[simp] theorem dropCopyRec_tmg (i : Nat) : (s.dropCopyRec i).tmg = s.tmg := rfl
@[simp] theorem dropCopyRec_tsu (i : Nat) : (s.dropCopyRec i).tsu = s.tsu := rfl
@[simp] theorem dropCopyRec_tgs (i : Nat) : (s.dropCopyRec i).tgs = s.tgs := rfl
@[simp] theorem dropCopyRec_mir (i : Nat) : (s.dropCopyRec i).mir = s.mir := rfl
@[simp] theorem dropCopyRec_sta (i : Nat) : (s.dropCopyRec i).sta = s.sta := rfl
@[simp] theorem dropCopyRec_sec (i : Nat) : (s.dropCopyRec i).sec = s.sec := rfl
@[simp] theorem dropCopyRec_isl (i : Nat) : (s.dropCopyRec i).isl = s.isl := rfl
@[simp] theorem dropCopyRec_spr (i : Nat) : (s.dropCopyRec i).spr = s.spr := rfl
@[simp] theorem dropCopyRec_evr (i : Nat) : (s.dropCopyRec i).evr = s.evr := rfl
@[simp] theorem dropCopyRec_pmu (i : Nat) : (s.dropCopyRec i).pmu = s.pmu := rfl
@[simp] theorem dropCopyRec_dbg (i : Nat) : (s.dropCopyRec i).dbg = s.dbg := rfl

/-! ### setMac -/

@[simp] theorem setMac_pending (p : Nat) (m : MacX) : (s.setMac p m).pending = s.pending := rfl
@[simp] theorem setMac_regs (p : Nat) (m : MacX) : (s.setMac p m).regs = s.regs := rfl
@[simp] theorem setMac_inForce (p : Nat) (m : MacX) : (s.setMac p m).inForce = s.inForce := rfl
@[simp] theorem setMac_win (p : Nat) (m : MacX) : (s.setMac p m).win = s.win := rfl
@[simp] theorem setMac_host (p : Nat) (m : MacX) : (s.setMac p m).host = s.host := rfl
@[simp] theorem setMac_hbm (p : Nat) (m : MacX) : (s.setMac p m).hbm = s.hbm := rfl
@[simp] theorem setMac_sram (p : Nat) (m : MacX) : (s.setMac p m).sram = s.sram := rfl
@[simp] theorem setMac_spi (p : Nat) (m : MacX) : (s.setMac p m).spi = s.spi := rfl
@[simp] theorem setMac_flash (p : Nat) (m : MacX) : (s.setMac p m).flash = s.flash := rfl
@[simp] theorem setMac_clk (p : Nat) (m : MacX) : (s.setMac p m).clk = s.clk := rfl
@[simp] theorem setMac_fresh (p : Nat) (m : MacX) : (s.setMac p m).fresh = s.fresh := rfl
@[simp] theorem setMac_out (p : Nat) (m : MacX) : (s.setMac p m).out = s.out := rfl
@[simp] theorem setMac_hif (p : Nat) (m : MacX) : (s.setMac p m).hif = s.hif := rfl
@[simp] theorem setMac_gov (p : Nat) (m : MacX) : (s.setMac p m).gov = s.gov := rfl
@[simp] theorem setMac_lanes (p : Nat) (m : MacX) : (s.setMac p m).lanes = s.lanes := rfl
@[simp] theorem setMac_frames (p : Nat) (m : MacX) : (s.setMac p m).frames = s.frames := rfl
@[simp] theorem setMac_copies (p : Nat) (m : MacX) : (s.setMac p m).copies = s.copies := rfl
@[simp] theorem setMac_eframes (p : Nat) (m : MacX) : (s.setMac p m).eframes = s.eframes := rfl
@[simp] theorem setMac_nextId (p : Nat) (m : MacX) : (s.setMac p m).nextId = s.nextId := rfl
@[simp] theorem setMac_ver (p : Nat) (m : MacX) : (s.setMac p m).ver = s.ver := rfl
@[simp] theorem setMac_tbl (p : Nat) (m : MacX) : (s.setMac p m).tbl = s.tbl := rfl
@[simp] theorem setMac_pol (p : Nat) (m : MacX) : (s.setMac p m).pol = s.pol := rfl
@[simp] theorem setMac_glf (p : Nat) (m : MacX) : (s.setMac p m).glf = s.glf := rfl
@[simp] theorem setMac_rsq (p : Nat) (m : MacX) : (s.setMac p m).rsq = s.rsq := rfl
@[simp] theorem setMac_bpm (p : Nat) (m : MacX) : (s.setMac p m).bpm = s.bpm := rfl
@[simp] theorem setMac_tmg (p : Nat) (m : MacX) : (s.setMac p m).tmg = s.tmg := rfl
@[simp] theorem setMac_tsu (p : Nat) (m : MacX) : (s.setMac p m).tsu = s.tsu := rfl
@[simp] theorem setMac_tgs (p : Nat) (m : MacX) : (s.setMac p m).tgs = s.tgs := rfl
@[simp] theorem setMac_mir (p : Nat) (m : MacX) : (s.setMac p m).mir = s.mir := rfl
@[simp] theorem setMac_sta (p : Nat) (m : MacX) : (s.setMac p m).sta = s.sta := rfl
@[simp] theorem setMac_sec (p : Nat) (m : MacX) : (s.setMac p m).sec = s.sec := rfl
@[simp] theorem setMac_isl (p : Nat) (m : MacX) : (s.setMac p m).isl = s.isl := rfl
@[simp] theorem setMac_spr (p : Nat) (m : MacX) : (s.setMac p m).spr = s.spr := rfl
@[simp] theorem setMac_evr (p : Nat) (m : MacX) : (s.setMac p m).evr = s.evr := rfl
@[simp] theorem setMac_pmu (p : Nat) (m : MacX) : (s.setMac p m).pmu = s.pmu := rfl
@[simp] theorem setMac_dbg (p : Nat) (m : MacX) : (s.setMac p m).dbg = s.dbg := rfl

/-! ### setLane -/

@[simp] theorem setLane_pending (l : Nat) (x : LaneX) : (s.setLane l x).pending = s.pending := rfl
@[simp] theorem setLane_regs (l : Nat) (x : LaneX) : (s.setLane l x).regs = s.regs := rfl
@[simp] theorem setLane_inForce (l : Nat) (x : LaneX) : (s.setLane l x).inForce = s.inForce := rfl
@[simp] theorem setLane_win (l : Nat) (x : LaneX) : (s.setLane l x).win = s.win := rfl
@[simp] theorem setLane_host (l : Nat) (x : LaneX) : (s.setLane l x).host = s.host := rfl
@[simp] theorem setLane_hbm (l : Nat) (x : LaneX) : (s.setLane l x).hbm = s.hbm := rfl
@[simp] theorem setLane_sram (l : Nat) (x : LaneX) : (s.setLane l x).sram = s.sram := rfl
@[simp] theorem setLane_spi (l : Nat) (x : LaneX) : (s.setLane l x).spi = s.spi := rfl
@[simp] theorem setLane_flash (l : Nat) (x : LaneX) : (s.setLane l x).flash = s.flash := rfl
@[simp] theorem setLane_clk (l : Nat) (x : LaneX) : (s.setLane l x).clk = s.clk := rfl
@[simp] theorem setLane_fresh (l : Nat) (x : LaneX) : (s.setLane l x).fresh = s.fresh := rfl
@[simp] theorem setLane_out (l : Nat) (x : LaneX) : (s.setLane l x).out = s.out := rfl
@[simp] theorem setLane_hif (l : Nat) (x : LaneX) : (s.setLane l x).hif = s.hif := rfl
@[simp] theorem setLane_gov (l : Nat) (x : LaneX) : (s.setLane l x).gov = s.gov := rfl
@[simp] theorem setLane_macs (l : Nat) (x : LaneX) : (s.setLane l x).macs = s.macs := rfl
@[simp] theorem setLane_frames (l : Nat) (x : LaneX) : (s.setLane l x).frames = s.frames := rfl
@[simp] theorem setLane_copies (l : Nat) (x : LaneX) : (s.setLane l x).copies = s.copies := rfl
@[simp] theorem setLane_eframes (l : Nat) (x : LaneX) : (s.setLane l x).eframes = s.eframes := rfl
@[simp] theorem setLane_nextId (l : Nat) (x : LaneX) : (s.setLane l x).nextId = s.nextId := rfl
@[simp] theorem setLane_ver (l : Nat) (x : LaneX) : (s.setLane l x).ver = s.ver := rfl
@[simp] theorem setLane_tbl (l : Nat) (x : LaneX) : (s.setLane l x).tbl = s.tbl := rfl
@[simp] theorem setLane_pol (l : Nat) (x : LaneX) : (s.setLane l x).pol = s.pol := rfl
@[simp] theorem setLane_glf (l : Nat) (x : LaneX) : (s.setLane l x).glf = s.glf := rfl
@[simp] theorem setLane_rsq (l : Nat) (x : LaneX) : (s.setLane l x).rsq = s.rsq := rfl
@[simp] theorem setLane_bpm (l : Nat) (x : LaneX) : (s.setLane l x).bpm = s.bpm := rfl
@[simp] theorem setLane_tmg (l : Nat) (x : LaneX) : (s.setLane l x).tmg = s.tmg := rfl
@[simp] theorem setLane_tsu (l : Nat) (x : LaneX) : (s.setLane l x).tsu = s.tsu := rfl
@[simp] theorem setLane_tgs (l : Nat) (x : LaneX) : (s.setLane l x).tgs = s.tgs := rfl
@[simp] theorem setLane_mir (l : Nat) (x : LaneX) : (s.setLane l x).mir = s.mir := rfl
@[simp] theorem setLane_sta (l : Nat) (x : LaneX) : (s.setLane l x).sta = s.sta := rfl
@[simp] theorem setLane_sec (l : Nat) (x : LaneX) : (s.setLane l x).sec = s.sec := rfl
@[simp] theorem setLane_isl (l : Nat) (x : LaneX) : (s.setLane l x).isl = s.isl := rfl
@[simp] theorem setLane_spr (l : Nat) (x : LaneX) : (s.setLane l x).spr = s.spr := rfl
@[simp] theorem setLane_evr (l : Nat) (x : LaneX) : (s.setLane l x).evr = s.evr := rfl
@[simp] theorem setLane_pmu (l : Nat) (x : LaneX) : (s.setLane l x).pmu = s.pmu := rfl
@[simp] theorem setLane_dbg (l : Nat) (x : LaneX) : (s.setLane l x).dbg = s.dbg := rfl

/-! ### emit -/

@[simp] theorem emit_pending (o : Out) : (s.emit o).pending = s.pending := rfl
@[simp] theorem emit_regs (o : Out) : (s.emit o).regs = s.regs := rfl
@[simp] theorem emit_inForce (o : Out) : (s.emit o).inForce = s.inForce := rfl
@[simp] theorem emit_win (o : Out) : (s.emit o).win = s.win := rfl
@[simp] theorem emit_host (o : Out) : (s.emit o).host = s.host := rfl
@[simp] theorem emit_hbm (o : Out) : (s.emit o).hbm = s.hbm := rfl
@[simp] theorem emit_sram (o : Out) : (s.emit o).sram = s.sram := rfl
@[simp] theorem emit_spi (o : Out) : (s.emit o).spi = s.spi := rfl
@[simp] theorem emit_flash (o : Out) : (s.emit o).flash = s.flash := rfl
@[simp] theorem emit_clk (o : Out) : (s.emit o).clk = s.clk := rfl
@[simp] theorem emit_fresh (o : Out) : (s.emit o).fresh = s.fresh := rfl
@[simp] theorem emit_hif (o : Out) : (s.emit o).hif = s.hif := rfl
@[simp] theorem emit_gov (o : Out) : (s.emit o).gov = s.gov := rfl
@[simp] theorem emit_lanes (o : Out) : (s.emit o).lanes = s.lanes := rfl
@[simp] theorem emit_macs (o : Out) : (s.emit o).macs = s.macs := rfl
@[simp] theorem emit_frames (o : Out) : (s.emit o).frames = s.frames := rfl
@[simp] theorem emit_copies (o : Out) : (s.emit o).copies = s.copies := rfl
@[simp] theorem emit_eframes (o : Out) : (s.emit o).eframes = s.eframes := rfl
@[simp] theorem emit_nextId (o : Out) : (s.emit o).nextId = s.nextId := rfl
@[simp] theorem emit_ver (o : Out) : (s.emit o).ver = s.ver := rfl
@[simp] theorem emit_tbl (o : Out) : (s.emit o).tbl = s.tbl := rfl
@[simp] theorem emit_pol (o : Out) : (s.emit o).pol = s.pol := rfl
@[simp] theorem emit_glf (o : Out) : (s.emit o).glf = s.glf := rfl
@[simp] theorem emit_rsq (o : Out) : (s.emit o).rsq = s.rsq := rfl
@[simp] theorem emit_bpm (o : Out) : (s.emit o).bpm = s.bpm := rfl
@[simp] theorem emit_tmg (o : Out) : (s.emit o).tmg = s.tmg := rfl
@[simp] theorem emit_tsu (o : Out) : (s.emit o).tsu = s.tsu := rfl
@[simp] theorem emit_tgs (o : Out) : (s.emit o).tgs = s.tgs := rfl
@[simp] theorem emit_mir (o : Out) : (s.emit o).mir = s.mir := rfl
@[simp] theorem emit_sta (o : Out) : (s.emit o).sta = s.sta := rfl
@[simp] theorem emit_sec (o : Out) : (s.emit o).sec = s.sec := rfl
@[simp] theorem emit_isl (o : Out) : (s.emit o).isl = s.isl := rfl
@[simp] theorem emit_spr (o : Out) : (s.emit o).spr = s.spr := rfl
@[simp] theorem emit_evr (o : Out) : (s.emit o).evr = s.evr := rfl
@[simp] theorem emit_pmu (o : Out) : (s.emit o).pmu = s.pmu := rfl
@[simp] theorem emit_dbg (o : Out) : (s.emit o).dbg = s.dbg := rfl

/-! ### settle -/

@[simp] theorem settle_pending : (s.settle).pending = s.pending := rfl
@[simp] theorem settle_regs : (s.settle).regs = s.regs := rfl
@[simp] theorem settle_inForce : (s.settle).inForce = s.inForce := rfl
@[simp] theorem settle_win : (s.settle).win = s.win := rfl
@[simp] theorem settle_host : (s.settle).host = s.host := rfl
@[simp] theorem settle_hbm : (s.settle).hbm = s.hbm := rfl
@[simp] theorem settle_sram : (s.settle).sram = s.sram := rfl
@[simp] theorem settle_spi : (s.settle).spi = s.spi := rfl
@[simp] theorem settle_flash : (s.settle).flash = s.flash := rfl
@[simp] theorem settle_clk : (s.settle).clk = s.clk := rfl
@[simp] theorem settle_fresh : (s.settle).fresh = s.fresh := rfl
@[simp] theorem settle_gov : (s.settle).gov = s.gov := rfl
@[simp] theorem settle_lanes : (s.settle).lanes = s.lanes := rfl
@[simp] theorem settle_macs : (s.settle).macs = s.macs := rfl
@[simp] theorem settle_frames : (s.settle).frames = s.frames := rfl
@[simp] theorem settle_copies : (s.settle).copies = s.copies := rfl
@[simp] theorem settle_eframes : (s.settle).eframes = s.eframes := rfl
@[simp] theorem settle_nextId : (s.settle).nextId = s.nextId := rfl
@[simp] theorem settle_ver : (s.settle).ver = s.ver := rfl
@[simp] theorem settle_tbl : (s.settle).tbl = s.tbl := rfl
@[simp] theorem settle_pol : (s.settle).pol = s.pol := rfl
@[simp] theorem settle_glf : (s.settle).glf = s.glf := rfl
@[simp] theorem settle_rsq : (s.settle).rsq = s.rsq := rfl
@[simp] theorem settle_bpm : (s.settle).bpm = s.bpm := rfl
@[simp] theorem settle_tmg : (s.settle).tmg = s.tmg := rfl
@[simp] theorem settle_tsu : (s.settle).tsu = s.tsu := rfl
@[simp] theorem settle_tgs : (s.settle).tgs = s.tgs := rfl
@[simp] theorem settle_mir : (s.settle).mir = s.mir := rfl
@[simp] theorem settle_sta : (s.settle).sta = s.sta := rfl
@[simp] theorem settle_sec : (s.settle).sec = s.sec := rfl
@[simp] theorem settle_isl : (s.settle).isl = s.isl := rfl
@[simp] theorem settle_spr : (s.settle).spr = s.spr := rfl
@[simp] theorem settle_evr : (s.settle).evr = s.evr := rfl
@[simp] theorem settle_pmu : (s.settle).pmu = s.pmu := rfl
@[simp] theorem settle_dbg : (s.settle).dbg = s.dbg := rfl

end Sys2Proof.Machine
end

