-- ==== Sys2Proof/Laws/Registers.lean ====
section
/-! SUPPORT. Register words, fields and bits: what reads after writes give. -/

namespace Sys2Proof

/-- Bits of a replaced field. -/
theorem setFld_getLsbD (w : Word) (hi lo v i : Nat) (h : hi < 32) (hl : lo ≤ hi) :
    (setFld w hi lo v).getLsbD i = if lo ≤ i ∧ i ≤ hi then v.testBit (i - lo) else w.getLsbD i := by
  unfold setFld maskOf
  simp only [BitVec.getLsbD_or, BitVec.getLsbD_and, BitVec.getLsbD_not, BitVec.getLsbD_ofNat, Nat.testBit_shiftLeft,
    Nat.testBit_two_pow_sub_one, Nat.testBit_mod_two_pow]
  by_cases hi32 : i < 32
  · by_cases h1 : lo ≤ i
    · by_cases h2 : i ≤ hi
      · have : i - lo < hi + 1 - lo := by omega
        simp [hi32, h1, h2, this]
      · have : ¬ (i - lo < hi + 1 - lo) := by omega
        simp [hi32, h1, h2, this]
    · simp [hi32, h1]
  · have : ¬ (lo ≤ i ∧ i ≤ hi) := by omega
    simp [hi32, this, BitVec.getLsbD_of_ge w i (by omega)]

/-- A bit of a field of a word. -/
theorem fld_testBit (w : Word) (hi lo i : Nat) : (fld w hi lo).testBit i = (decide (i < hi + 1 - lo) && w.getLsbD (lo + i)) := by
  unfold fld bitsOf
  simp only [Nat.testBit_mod_two_pow, Nat.testBit_shiftRight, BitVec.testBit_toNat]

/-- The field that was replaced reads as written. -/
@[simp] theorem fld_setFld_same (w : Word) (hi lo v : Nat) (h : hi < 32) (hl : lo ≤ hi) :
    fld (setFld w hi lo v) hi lo = v % 2 ^ (hi + 1 - lo) := by
  apply Nat.eq_of_testBit_eq
  intro i
  rw [fld_testBit, setFld_getLsbD w hi lo v _ h hl, Nat.testBit_mod_two_pow]
  by_cases hi' : i < hi + 1 - lo
  · have : lo ≤ lo + i ∧ lo + i ≤ hi := by omega
    simp [hi', this]
  · simp [hi']

/-- A field that does not meet the one replaced reads as before. -/
theorem fld_setFld_ne (w : Word) (hi lo v hi' lo' : Nat) (h : hi < 32) (hl : lo ≤ hi) (hd : hi' < lo ∨ hi < lo') :
    fld (setFld w hi lo v) hi' lo' = fld w hi' lo' := by
  apply Nat.eq_of_testBit_eq
  intro i
  rw [fld_testBit, fld_testBit, setFld_getLsbD w hi lo v _ h hl]
  by_cases hi' : i < hi' + 1 - lo'
  · have : ¬ (lo ≤ lo' + i ∧ lo' + i ≤ hi) := by omega
    simp [this]
  · simp [hi']

@[simp] theorem bit_setBit_same (w : Word) (i : Nat) (b : Bool) (h : i < 32) : bit (setBit w i b) i = b := by
  unfold bit setBit
  rw [setFld_getLsbD w i i _ i h (Nat.le_refl _)]
  cases b <;> simp

theorem bit_setBit_ne (w : Word) (i j : Nat) (b : Bool) (h : i < 32) (hj : j ≠ i) : bit (setBit w i b) j = bit w j := by
  unfold bit setBit
  rw [setFld_getLsbD w i i _ j h (Nat.le_refl _)]
  have : ¬ (i ≤ j ∧ j ≤ i) := by omega
  simp [this]

theorem fld_setBit_ne (w : Word) (i hi lo : Nat) (b : Bool) (h : i < 32) (hd : hi < i ∨ i < lo) :
    fld (setBit w i b) hi lo = fld w hi lo := fld_setFld_ne w i i _ hi lo h (Nat.le_refl _) hd

theorem bit_setFld_ne (w : Word) (hi lo v i : Nat) (h : hi < 32) (hl : lo ≤ hi) (hd : i < lo ∨ hi < i) :
    bit (setFld w hi lo v) i = bit w i := by
  unfold bit
  rw [setFld_getLsbD w hi lo v i h hl]
  have : ¬ (lo ≤ i ∧ i ≤ hi) := by omega
  simp [this]

namespace Machine

@[simp] theorem rd_wr_same (s : State) (a : Nat) (w : Word) : (s.wr a w).rd a = w := SMap.atF_putF_same _ _ _ _
theorem rd_wr_ne (s : State) {a x : Nat} (w : Word) (h : x ≠ a) : (s.wr a w).rd x = s.rd x := SMap.atF_putF_ne _ _ _ h
@[simp] theorem rd_setF_same (s : State) (a hi lo v : Nat) : (s.setF a hi lo v).rd a = setFld (s.rd a) hi lo v := rd_wr_same _ _ _
theorem rd_setF_ne (s : State) {a x : Nat} (hi lo v : Nat) (h : x ≠ a) : (s.setF a hi lo v).rd x = s.rd x := rd_wr_ne _ _ h
@[simp] theorem rd_setB_same (s : State) (a i : Nat) (v : Bool) : (s.setB a i v).rd a = setBit (s.rd a) i v := rd_wr_same _ _ _
theorem rd_setB_ne (s : State) {a x : Nat} (i : Nat) (v : Bool) (h : x ≠ a) : (s.setB a i v).rd x = s.rd x := rd_wr_ne _ _ h
theorem rd_bump_ne (s : State) {a x : Nat} (h : x ≠ a) : (s.bump a).rd x = s.rd x := rd_wr_ne _ _ h
theorem rd_irq_ne (s : State) {page x : Nat} (n : Nat) (h : x ≠ page * 0x1000 + 8) : (s.irq page n).rd x = s.rd x := rd_setB_ne _ _ _ h
@[simp] theorem rd_raise (s : State) (page code p0 p1 p2 p3 x : Nat) : (s.raise page code p0 p1 p2 p3).rd x = s.rd x := rfl
theorem rd_report_ne (s : State) {page x : Nat} (n code p0 p1 p2 p3 : Nat) (h : x ≠ page * 0x1000 + 8) :
    (s.report page n code p0 p1 p2 p3).rd x = s.rd x := rd_irq_ne s n h

/-- A state whose register words are another's reads as it. -/
theorem rd_congr {s t : State} (h : t.regs = s.regs) (a : Nat) : t.rd a = s.rd a := by unfold State.rd; rw [h]

/-- A report puts its event behind those that wait. -/
theorem report_waiting (s : State) (page n code p0 p1 p2 p3 : Nat) :
    ∃ e : Ev, e.page = page ∧ e.code = code ∧ (s.report page n code p0 p1 p2 p3).evr.waiting = s.evr.waiting ++ [e] :=
  ⟨_, rfl, rfl, rfl⟩

/-! ### Frames, copies, ports and lanes -/

@[simp] theorem frame_setFrame_same (s : State) (x : Frame) : (s.setFrame x).frame x.id = x := SMap.at_put_same _ _ _ _
theorem frame_setFrame_ne (s : State) (x : Frame) {i : Nat} (h : i ≠ x.id) : (s.setFrame x).frame i = s.frame i :=
  SMap.at_put_ne _ _ _ h
@[simp] theorem copy_setCopy_same (s : State) (x : Copy) : (s.setCopy x).copy x.id = x := SMap.at_put_same _ _ _ _
theorem copy_setCopy_ne (s : State) (x : Copy) {i : Nat} (h : i ≠ x.id) : (s.setCopy x).copy i = s.copy i := SMap.at_put_ne _ _ _ h
@[simp] theorem mac_setMac_same (s : State) (p : Nat) (m : MacX) : (s.setMac p m).mac p = m := SMap.at_put_same _ _ _ _
theorem mac_setMac_ne (s : State) {p q : Nat} (m : MacX) (h : q ≠ p) : (s.setMac p m).mac q = s.mac q := SMap.at_put_ne _ _ _ h
@[simp] theorem lane_setLane_same (s : State) (l : Nat) (x : LaneX) : (s.setLane l x).lane l = x := SMap.at_put_same _ _ _ _
theorem lane_setLane_ne (s : State) {l k : Nat} (x : LaneX) (h : k ≠ l) : (s.setLane l x).lane k = s.lane k := SMap.at_put_ne _ _ _ h

/-! ### Memories -/

@[simp] theorem winRd_winWr (s : State) (a : Nat) (bs : List Byte) : (s.winWr a bs).winRd a bs.length = bs := readBytes_writeBytes _ _ _
@[simp] theorem hostRd_hostWr (s : State) (a : Nat) (bs : List Byte) : (s.hostWr a bs).hostRd a bs.length = bs := readBytes_writeBytes _ _ _
@[simp] theorem diffBytes_length (base : Nat → Byte) (a : Nat) (bs : List Byte) : (diffBytes base a bs).length = bs.length := by
  induction bs generalizing a with
  | nil => rfl
  | cons b bs ih => simp [diffBytes, ih]

/-- Differences from a base, taken twice, give the bytes back. -/
@[simp] theorem diffBytes_diffBytes (base : Nat → Byte) (a : Nat) (bs : List Byte) :
    diffBytes base a (diffBytes base a bs) = bs := by
  induction bs generalizing a with
  | nil => rfl
  | cons b bs ih => simp [diffBytes, ih, BitVec.xor_assoc]

@[simp] theorem hbmBase_hbmWr (s : State) (a : Nat) (bs : List Byte) : (s.hbmWr a bs).hbmBase = s.hbmBase := rfl

@[simp] theorem hbmRd_hbmWr (s : State) (a : Nat) (bs : List Byte) : (s.hbmWr a bs).hbmRd a bs.length = bs := by
  have h := readBytes_writeBytes s.hbm a (diffBytes s.hbmBase a bs)
  rw [diffBytes_length] at h
  show diffBytes s.hbmBase a (readBytes (writeBytes s.hbm a (diffBytes s.hbmBase a bs)) a bs.length) = bs
  rw [h, diffBytes_diffBytes]
/-- HBM reads rest on what is stored of it and on where descriptors stand. -/
theorem hbmRd_congr {s t : State} (h : t.hbm = s.hbm) (hb : t.bpm = s.bpm) (a n : Nat) : t.hbmRd a n = s.hbmRd a n := by
  have e : t.hbmBase = s.hbmBase := by funext x; simp only [State.hbmBase, hb]
  simp only [State.hbmRd, h, e]

theorem winWr_wf (s : State) (a : Nat) (bs : List Byte) (h : SMap.WF (fun _ => (0 : Byte)) s.win) :
    SMap.WF (fun _ => (0 : Byte)) (s.winWr a bs).win := writeBytes_wf _ _ _ h
theorem winPut_wf (s : State) (a n v : Nat) (h : SMap.WF (fun _ => (0 : Byte)) s.win) :
    SMap.WF (fun _ => (0 : Byte)) (s.winPut a n v).win := writeBytes_wf _ _ _ h
theorem hostWr_wf (s : State) (a : Nat) (bs : List Byte) (h : SMap.WF (fun _ => (0 : Byte)) s.host) :
    SMap.WF (fun _ => (0 : Byte)) (s.hostWr a bs).host := writeBytes_wf _ _ _ h
theorem hbmWr_wf (s : State) (a : Nat) (bs : List Byte) (h : SMap.WF (fun _ => (0 : Byte)) s.hbm) :
    SMap.WF (fun _ => (0 : Byte)) (s.hbmWr a bs).hbm := writeBytes_wf _ _ _ h

/-! ### Loops -/

/-- What every round of a loop keeps, the loop keeps. -/
theorem forEach_keeps {α : Type} (P : State → Prop) (f : State → α → State) (xs : List α) (s : State) (h0 : P s)
    (h : ∀ s x, x ∈ xs → P s → P (f s x)) : P (forEach xs s f) := by
  unfold forEach
  induction xs generalizing s with
  | nil => exact h0
  | cons x xs ih => exact ih (f s x) (h s x (by simp) h0) (fun s y hy => h s y (by simp [hy]))

end Machine

end Sys2Proof
end

