-- ==== Sys2Proof/Laws/Answer.lean ====
section
/-! SUPPORT. What the shared operations around a command's effect can do: performance events, counters, watchpoints, the
answer itself, and a host write. -/

namespace Sys2Proof.Machine

/-- From `s` to `t` only statistics, waiting events, draws, vector levels, the outbox and the registers that any command may
change (`watchRegs`, `countRegs`) have changed. -/
def Quiet (s t : State) : Prop :=
  (∃ regs sta evr fresh hif out, t = { s with regs := regs, sta := sta, evr := evr, fresh := fresh, hif := hif, out := out }) ∧
    ∀ a, a ∉ watchRegs → a ∉ countRegs → t.rd a = s.rd a

theorem Quiet.refl (s : State) : Quiet s s := ⟨⟨_, _, _, _, _, _, rfl⟩, fun _ _ _ => rfl⟩

theorem Quiet.trans {s t u : State} (h1 : Quiet s t) (h2 : Quiet t u) : Quiet s u := by
  obtain ⟨⟨_, _, _, _, _, _, rfl⟩, r1⟩ := h1
  obtain ⟨⟨_, _, _, _, _, _, rfl⟩, r2⟩ := h2
  exact ⟨⟨_, _, _, _, _, _, rfl⟩, fun a h h' => (r2 a h h').trans (r1 a h h')⟩

theorem Quiet.rd {s t : State} (h : Quiet s t) {a : Nat} (hw : a ∉ watchRegs) (hc : a ∉ countRegs) : t.rd a = s.rd a := h.2 a hw hc
theorem Quiet.regsBut {s t : State} (h : Quiet s t) : RegsBut [] s t := fun a _ hw hc => h.2 a hw hc
theorem Quiet.pending {s t : State} (h : Quiet s t) : t.pending = s.pending := by obtain ⟨⟨_, _, _, _, _, _, rfl⟩, _⟩ := h; rfl
theorem Quiet.inForce {s t : State} (h : Quiet s t) : t.inForce = s.inForce := by obtain ⟨⟨_, _, _, _, _, _, rfl⟩, _⟩ := h; rfl
theorem Quiet.win {s t : State} (h : Quiet s t) : t.win = s.win := by obtain ⟨⟨_, _, _, _, _, _, rfl⟩, _⟩ := h; rfl
theorem Quiet.host {s t : State} (h : Quiet s t) : t.host = s.host := by obtain ⟨⟨_, _, _, _, _, _, rfl⟩, _⟩ := h; rfl
theorem Quiet.hbm {s t : State} (h : Quiet s t) : t.hbm = s.hbm := by obtain ⟨⟨_, _, _, _, _, _, rfl⟩, _⟩ := h; rfl
theorem Quiet.sram {s t : State} (h : Quiet s t) : t.sram = s.sram := by obtain ⟨⟨_, _, _, _, _, _, rfl⟩, _⟩ := h; rfl
theorem Quiet.spi {s t : State} (h : Quiet s t) : t.spi = s.spi := by obtain ⟨⟨_, _, _, _, _, _, rfl⟩, _⟩ := h; rfl
theorem Quiet.flash {s t : State} (h : Quiet s t) : t.flash = s.flash := by obtain ⟨⟨_, _, _, _, _, _, rfl⟩, _⟩ := h; rfl
theorem Quiet.clk {s t : State} (h : Quiet s t) : t.clk = s.clk := by obtain ⟨⟨_, _, _, _, _, _, rfl⟩, _⟩ := h; rfl
theorem Quiet.gov {s t : State} (h : Quiet s t) : t.gov = s.gov := by obtain ⟨⟨_, _, _, _, _, _, rfl⟩, _⟩ := h; rfl
theorem Quiet.lanes {s t : State} (h : Quiet s t) : t.lanes = s.lanes := by obtain ⟨⟨_, _, _, _, _, _, rfl⟩, _⟩ := h; rfl
theorem Quiet.macs {s t : State} (h : Quiet s t) : t.macs = s.macs := by obtain ⟨⟨_, _, _, _, _, _, rfl⟩, _⟩ := h; rfl
theorem Quiet.frames {s t : State} (h : Quiet s t) : t.frames = s.frames := by obtain ⟨⟨_, _, _, _, _, _, rfl⟩, _⟩ := h; rfl
theorem Quiet.copies {s t : State} (h : Quiet s t) : t.copies = s.copies := by obtain ⟨⟨_, _, _, _, _, _, rfl⟩, _⟩ := h; rfl
theorem Quiet.eframes {s t : State} (h : Quiet s t) : t.eframes = s.eframes := by obtain ⟨⟨_, _, _, _, _, _, rfl⟩, _⟩ := h; rfl
theorem Quiet.nextId {s t : State} (h : Quiet s t) : t.nextId = s.nextId := by obtain ⟨⟨_, _, _, _, _, _, rfl⟩, _⟩ := h; rfl
theorem Quiet.ver {s t : State} (h : Quiet s t) : t.ver = s.ver := by obtain ⟨⟨_, _, _, _, _, _, rfl⟩, _⟩ := h; rfl
theorem Quiet.tbl {s t : State} (h : Quiet s t) : t.tbl = s.tbl := by obtain ⟨⟨_, _, _, _, _, _, rfl⟩, _⟩ := h; rfl
theorem Quiet.pol {s t : State} (h : Quiet s t) : t.pol = s.pol := by obtain ⟨⟨_, _, _, _, _, _, rfl⟩, _⟩ := h; rfl
theorem Quiet.glf {s t : State} (h : Quiet s t) : t.glf = s.glf := by obtain ⟨⟨_, _, _, _, _, _, rfl⟩, _⟩ := h; rfl
theorem Quiet.rsq {s t : State} (h : Quiet s t) : t.rsq = s.rsq := by obtain ⟨⟨_, _, _, _, _, _, rfl⟩, _⟩ := h; rfl
theorem Quiet.bpm {s t : State} (h : Quiet s t) : t.bpm = s.bpm := by obtain ⟨⟨_, _, _, _, _, _, rfl⟩, _⟩ := h; rfl
theorem Quiet.tmg {s t : State} (h : Quiet s t) : t.tmg = s.tmg := by obtain ⟨⟨_, _, _, _, _, _, rfl⟩, _⟩ := h; rfl
theorem Quiet.tsu {s t : State} (h : Quiet s t) : t.tsu = s.tsu := by obtain ⟨⟨_, _, _, _, _, _, rfl⟩, _⟩ := h; rfl
theorem Quiet.tgs {s t : State} (h : Quiet s t) : t.tgs = s.tgs := by obtain ⟨⟨_, _, _, _, _, _, rfl⟩, _⟩ := h; rfl
theorem Quiet.mir {s t : State} (h : Quiet s t) : t.mir = s.mir := by obtain ⟨⟨_, _, _, _, _, _, rfl⟩, _⟩ := h; rfl
theorem Quiet.sec {s t : State} (h : Quiet s t) : t.sec = s.sec := by obtain ⟨⟨_, _, _, _, _, _, rfl⟩, _⟩ := h; rfl
theorem Quiet.isl {s t : State} (h : Quiet s t) : t.isl = s.isl := by obtain ⟨⟨_, _, _, _, _, _, rfl⟩, _⟩ := h; rfl
theorem Quiet.spr {s t : State} (h : Quiet s t) : t.spr = s.spr := by obtain ⟨⟨_, _, _, _, _, _, rfl⟩, _⟩ := h; rfl
theorem Quiet.pmu {s t : State} (h : Quiet s t) : t.pmu = s.pmu := by obtain ⟨⟨_, _, _, _, _, _, rfl⟩, _⟩ := h; rfl
theorem Quiet.dbg {s t : State} (h : Quiet s t) : t.dbg = s.dbg := by obtain ⟨⟨_, _, _, _, _, _, rfl⟩, _⟩ := h; rfl

theorem Quiet.flowKept {s t : State} (h : Quiet s t) : FlowKept s t := ⟨h.frames, h.copies, h.eframes, h.glf, h.rsq⟩
theorem Quiet.winKept {s t : State} (h : Quiet s t) : WinKept s t := fun x => by rw [h.win]
theorem Quiet.memKept {s t : State} (h : Quiet s t) : MemKept s t := fun a => by
  rw [h.host, h.sram, h.spi, h.flash, hbmRd_congr h.hbm h.bpm]; exact ⟨rfl, rfl, rfl, rfl, rfl⟩
theorem Quiet.memWF {s t : State} (h : Quiet s t) (w : s.MemWF) : t.MemWF := by
  unfold State.MemWF; rw [h.win, h.host, h.hbm, h.sram, h.spi, h.flash]; exact w

/-- A write of one of the registers that any command may change. -/
theorem quiet_wr (s : State) {a : Nat} (w : Word) (h : a ∈ watchRegs ∨ a ∈ countRegs) : Quiet s (s.wr a w) :=
  ⟨⟨_, _, _, _, _, _, rfl⟩, fun x hw hc => rd_wr_ne s w (fun e => by subst e; exact h.elim hw hc)⟩

theorem quiet_raise (s : State) (page code p0 p1 p2 p3 : Nat) : Quiet s (s.raise page code p0 p1 p2 p3) :=
  ⟨⟨_, _, _, _, _, _, rfl⟩, fun _ _ _ => rfl⟩

theorem quiet_report (s : State) {page : Nat} (n code p0 p1 p2 p3 : Nat) (h : page * 0x1000 + 8 ∈ watchRegs ∨ page * 0x1000 + 8 ∈ countRegs) :
    Quiet s (s.report page n code p0 p1 p2 p3) :=
  Quiet.trans (quiet_wr s _ h) (quiet_raise _ _ _ _ _ _ _)

theorem quiet_forEach {α : Type} (f : State → α → State) (xs : List α) (s : State) (h : ∀ t x, x ∈ xs → Quiet t (f t x)) :
    Quiet s (forEach xs s f) :=
  forEach_keeps (fun t => Quiet s t) f xs s (Quiet.refl s) (fun t x hx ht => ht.trans (h t x hx))

/-! ### Counting -/

theorem capture_quiet (s : State) (w : Nat) : Quiet s (s.capture (staA 0x060) w) := by
  unfold State.capture
  split
  · exact Quiet.refl s
  · exact quiet_wr s _ (.inr (by decide))

theorem capture_evr (s : State) (a w : Nat) : (s.capture a w).evr = s.evr := by
  unfold State.capture
  split
  · rfl
  · simp only [forEach, List.foldl_nil]
    exact wr_evr _ _ _

/-- A count changes the counters alone, or besides captures and reports that a free counter passed half its range. -/
theorem cntAdd_cases (s : State) (page k n : Nat) :
    ∃ x w, s.cntAdd page k n = s.putCnt page k x ∨
      s.cntAdd page k n = ((s.putCnt page k x).capture (staA 0x060) (k / 8)).report 9 1 0x2402 w := by
  unfold State.cntAdd
  simp only
  split
  · split
    · exact ⟨_, _, .inr rfl⟩
    · exact ⟨_, 0, .inl rfl⟩
  · exact ⟨_, 0, .inl rfl⟩

theorem putCnt_quiet (s : State) (page k x : Nat) : Quiet s (s.putCnt page k x) := by
  unfold State.putCnt
  split <;> exact ⟨⟨_, _, _, _, _, _, rfl⟩, fun _ _ _ => rfl⟩

theorem putCnt_evr (s : State) (page k x : Nat) : (s.putCnt page k x).evr = s.evr := by
  unfold State.putCnt
  split <;> rfl

/-- A count in a live counter. -/
theorem cntAdd_quiet (s : State) (page k n : Nat) : Quiet s (s.cntAdd page k n) := by
  obtain ⟨x, w, h | h⟩ := cntAdd_cases s page k n <;> rw [h]
  · exact putCnt_quiet s page k x
  · exact (putCnt_quiet s page k x).trans
      ((capture_quiet _ _).trans (quiet_report (page := 9) _ 1 0x2402 w 0 0 0 (.inr (by decide))))

/-- An occurrence of a performance event. -/
theorem pmc_quiet (s : State) (page ev n : Nat) : Quiet s (s.pmc page ev n) := by
  unfold State.pmc
  split
  · exact quiet_forEach _ _ _ (fun t c _ => cntAdd_quiet t _ _ _)
  · exact Quiet.refl s

/-! ### Watchpoints -/

/-- From `s` to `t` only what is quiet has changed, and in the MACs at most that a frame in reception knows of a halt. -/
def QuietHalt (s t : State) : Prop := ∃ m, Quiet { s with macs := m } t

theorem Quiet.halt {s t : State} (h : Quiet s t) : QuietHalt s t := ⟨s.macs, h⟩

theorem QuietHalt.trans {s t u : State} (h1 : QuietHalt s t) (h2 : QuietHalt t u) : QuietHalt s u := by
  obtain ⟨m, h1⟩ := h1
  obtain ⟨n, h2⟩ := h2
  refine ⟨n, Quiet.trans ?_ h2⟩
  obtain ⟨⟨_, _, _, _, _, _, rfl⟩, r⟩ := h1
  exact ⟨⟨_, _, _, _, _, _, rfl⟩, r⟩

theorem setHalt_quiet (s : State) (m : Nat) : QuietHalt s (s.setHalt m) :=
  ⟨_, ⟨_, _, _, _, _, _, rfl⟩, fun _ hw hc => rd_wr_ne s _ (fun e => by
    subst e; exact (Or.inl (by decide) : dbgA 0x058 ∈ watchRegs ∨ dbgA 0x058 ∈ countRegs).elim hw hc)⟩

theorem dbgHit_quiet (s : State) (src pipe port halt : Nat) : QuietHalt s (s.dbgHit src pipe port halt) := by
  have h60 : ∀ (t : State) (v : Bool), QuietHalt t (t.setB (dbgA 0x060) src v) := fun t v => (quiet_wr t _ (.inl (by decide))).halt
  unfold State.dbgHit State.haltPipes
  simp only
  split
  · exact h60 _ _
  · refine QuietHalt.trans ?_ (setHalt_quiet _ _)
    split
    · exact (h60 s true).trans ((quiet_wr _ _ (.inl (by decide))).trans (quiet_report _ _ _ _ _ _ _ (.inl (by decide)))).halt
    · exact h60 _ _

/-- Watchpoints on a completed write. -/
theorem watch_quiet (s : State) (kind target idx : Nat) : QuietHalt s (s.watch kind target idx) := by
  refine forEach_keeps (fun t => QuietHalt s t) _ _ _ (Quiet.refl s).halt (fun t j _ h => h.trans ?_)
  simp only
  split
  · have hd : Quiet t { t with fresh := t.fresh + 1 } := ⟨⟨_, _, _, _, _, _, rfl⟩, fun _ _ _ => rfl⟩
    exact hd.halt.trans (dbgHit_quiet _ _ _ _ _)
  · exact (Quiet.refl t).halt

/-! ### The answer of every command -/

theorem pendRose_quiet (s t : State) : Quiet t (s.pendRose t) := quiet_forEach _ _ _ (fun t p _ => pmc_quiet t p 6 1)

theorem settle_quiet (s : State) : Quiet s s.settle := ⟨⟨_, _, _, _, _, _, rfl⟩, fun _ _ _ => rfl⟩

/-- Every command answers a next state that its effect left, but for what is quiet, with the queue as it was and the vector
levels up to date. -/
theorem answer_next (s t : State) : ∃ u, answer s t = .next { u with pending := s.pending } ∧ Quiet t u ∧ u.Settled :=
  ⟨_, rfl, (pendRose_quiet s t).trans (settle_quiet _), rfl⟩

theorem answer_settled (s t : State) : ∃ u, answer s t = .next u ∧ u.pending = s.pending ∧ u.Settled := ⟨_, rfl, rfl, rfl⟩

/-- The events that wait when a command has had its effect still wait when it is answered. -/
theorem cntAdd_waiting (s : State) (page k n : Nat) : ∃ es, (s.cntAdd page k n).evr.waiting = s.evr.waiting ++ es := by
  obtain ⟨x, w, h | h⟩ := cntAdd_cases s page k n <;> rw [h]
  · exact ⟨[], by rw [putCnt_evr, List.append_nil]⟩
  · obtain ⟨e, _, _, h⟩ := report_waiting ((s.putCnt page k x).capture (staA 0x060) (k / 8)) 9 1 0x2402 w 0 0 0
    exact ⟨[e], h.trans (by rw [capture_evr, putCnt_evr])⟩

theorem pmc_waiting (s : State) (page ev n : Nat) : ∃ es, (s.pmc page ev n).evr.waiting = s.evr.waiting ++ es := by
  unfold State.pmc
  split
  · refine forEach_keeps (fun t => ∃ es, t.evr.waiting = s.evr.waiting ++ es) _ _ _ ⟨[], (List.append_nil _).symm⟩ ?_
    rintro t c - ⟨es, h⟩
    obtain ⟨fs, h'⟩ := cntAdd_waiting t page (0x20000 + 64 * page + 8 * c) n
    exact ⟨es ++ fs, by rw [h', h, List.append_assoc]⟩
  · exact ⟨[], (List.append_nil _).symm⟩

theorem answer_raised {s t : State} {page code : Nat} (h : t.raised page code) :
    ∃ u, answer s t = .next u ∧ u.raised page code := by
  refine ⟨_, rfl, ?_⟩
  obtain ⟨e, he, hp⟩ := h
  have : ∃ es, (s.pendRose t).evr.waiting = t.evr.waiting ++ es := by
    refine forEach_keeps (fun u => ∃ es, u.evr.waiting = t.evr.waiting ++ es) _ _ _ ⟨[], (List.append_nil _).symm⟩ ?_
    rintro u p - ⟨es, h⟩
    obtain ⟨fs, h'⟩ := pmc_waiting u p 6 1
    exact ⟨es ++ fs, by rw [h', h, List.append_assoc]⟩
  obtain ⟨es, hes⟩ := this
  exact ⟨e, by show e ∈ (s.pendRose t).evr.waiting; rw [hes]; exact List.mem_append_left _ he, hp⟩

/-! ### A host write -/

/-- An accepted host write to a page that posts nothing stores its fields and has its effect; then watchpoints see it. -/
theorem hostWriteWith_accepted (s : State) (addr : Nat) (data : Word) (eff : RegReq → State → State) (b : Blk) (i : Nat)
    (h : s.accepts addr data) (hp : pageOf (resolve addr data).page = some (b, i)) (hn : isPosted b (resolve addr data).off = false) :
    s.hostWriteWith addr data true eff =
      (eff (resolve addr data) (s.storeReg (resolve addr data))).watch 0 0 (resolve addr data).addr := by
  unfold State.hostWriteWith
  simp only [h.1, h.2, hp, hn, Bool.true_eq_false, if_false, ne_eq, not_true_eq_false, Bool.false_eq_true]

/-- A stored write changes no register but its own. -/
theorem storeReg_rd_ne (s : State) (r : RegReq) {a : Nat} (h : a ≠ r.addr) : (s.storeReg r).rd a = s.rd a := rd_wr_ne _ _ h

end Sys2Proof.Machine
end

