-- ==== Sys2Proof/Laws/Interrupts.lean ====
section
/-! SUPPORT. The interrupt tree: the words built from summary bits, and which pages are pending. -/

namespace Sys2Proof.Machine

theorem bitsBy_succ (n : Nat) (f : Nat → Bool) : bitsBy (n + 1) f = bitsBy n f + if f n then 2 ^ n else 0 := by
  simp [bitsBy, sumBy, List.range_succ]

theorem bitsBy_lt (n : Nat) (f : Nat → Bool) : bitsBy n f < 2 ^ n := by
  induction n with
  | zero => simp [bitsBy, sumBy]
  | succ n ih => rw [bitsBy_succ, Nat.pow_succ]; split <;> omega

theorem bitsBy_testBit (n : Nat) (f : Nat → Bool) (i : Nat) (h : i < n) : (bitsBy n f).testBit i = f i := by
  induction n with
  | zero => omega
  | succ n ih =>
    rw [bitsBy_succ]
    by_cases e : i = n
    · subst e
      have : (bitsBy i f).testBit i = false := Nat.testBit_lt_two_pow (bitsBy_lt i f)
      split <;> rename_i hf
      · rw [Nat.add_comm, Nat.testBit_two_pow_add_eq, this, hf]; rfl
      · rw [Nat.add_zero, this]; simpa using hf
    · have hi : i < n := by omega
      split
      · rw [Nat.add_comm, Nat.testBit_two_pow_add_gt hi, ih hi]
      · rw [Nat.add_zero, ih hi]

/-- A register word built from 32 flags shows each at its bit. -/
theorem word_bitsBy (f : Nat → Bool) (i : Nat) (h : i < 32) : (word (bitsBy 32 f)).getLsbD i = f i := by
  rw [show (word (bitsBy 32 f)).getLsbD i = (decide (i < 32) && (bitsBy 32 f).testBit i) from BitVec.getLsbD_ofNat _ _ _,
    bitsBy_testBit 32 f i h]
  simp [h]

theorem resetWord_raw (page : Nat) : resetWord (page * 0x1000 + 8) = 0 := by
  unfold resetWord
  rw [show (page * 0x1000 + 8) / 0x1000 = page by omega, show (page * 0x1000 + 8) % 0x1000 = 8 by omega]
  split
  · rfl
  · rename_i b i _
    simp only [show (8 : Nat) ≠ 0 by decide, if_false, regAt, show (8 : Nat) < 0x40 by decide, if_true]
    simp [findReg, commonRegs, reg, RegD.resetAt, word]

theorem atF_ne {α : Type} (d : Nat → α) (m : SMap α) (k : Nat) (h : SMap.atF d m k ≠ d k) : ∃ e ∈ m, e.1 = k := by
  induction m with
  | nil => exact absurd rfl h
  | cons x m ih =>
    by_cases e : x.1 = k
    · exact ⟨x, List.mem_cons_self, e⟩
    · obtain ⟨y, hy, hk⟩ := ih (by simpa [SMap.atF, e] using h)
      exact ⟨y, List.mem_cons_of_mem _ hy, hk⟩

/-- The pages listed as pending are those whose PAGE_IRQ_PEND is not 0. -/
theorem mem_pendPages (s : State) (page : Nat) : page ∈ s.pendPages ↔ s.pagePend page ≠ 0 := by
  unfold State.pendPages
  simp only [List.mem_map, List.mem_filter, decide_eq_true_eq]
  constructor
  · rintro ⟨e, ⟨_, _, h⟩, rfl⟩; exact h
  · intro h
    have h0 : s.rd (page * 0x1000 + 8) ≠ 0 := by
      intro h0; apply h; unfold State.pagePend; rw [h0]; simp
    obtain ⟨e, he, hk⟩ := atF_ne resetWord s.regs (page * 0x1000 + 8) (by rw [resetWord_raw]; exact h0)
    refine ⟨e, ⟨he, by rw [hk]; omega, ?_⟩, by rw [hk]; omega⟩
    rw [hk, show (page * 0x1000 + 8) / 0x1000 = page by omega]; exact h

/-- A summary bit is 1 exactly while a page that is summed into it is pending. -/
theorem topPend_iff (s : State) (n : Nat) : s.topPend n = true ↔ ∃ page, s.pagePend page ≠ 0 ∧ topBit page = n := by
  unfold State.topPend
  simp only [List.any_eq_true, decide_eq_true_eq]
  exact ⟨fun ⟨p, h, e⟩ => ⟨p, (mem_pendPages s p).1 h, e⟩, fun ⟨p, h, e⟩ => ⟨p, (mem_pendPages s p).2 h, e⟩⟩

end Sys2Proof.Machine
end

