-- ==== Sys2Proof/WellFormed.lean ====
section
/-! DEFINITION. Which commands are well-formed: operands that no type bounds keep to what the hardware's ports can carry. -/

namespace Sys2Proof

/-- Bytes of a BAR (R51). -/
def Bar.size : Bar → Nat
  | .bar0 => 2 ^ 24
  | .bar2 => 2 ^ 30
  | .bar4 => 2 ^ 14

/-- A request lies inside its BAR and carries at least one byte; a run of wire bits is not empty. -/
def Via.wf : Via → Bool
  | .write bar addr _ data => decide (1 ≤ data.length ∧ addr + data.length ≤ bar.size)
  | .read bar addr len _ => decide (1 ≤ len ∧ addr + len ≤ bar.size)
  | .wire bits => decide (1 ≤ bits.length)

/-- A page index of R53. -/
def isPage (page : Nat) : Bool :=
  decide (page < 0x65 ∨ (0x68 ≤ page ∧ page < 0x6D) ∨ (0x70 ≤ page ∧ page < 0x75) ∨ (0x78 ≤ page ∧ page < 0x7D) ∨
    (0x80 ≤ page ∧ page < 0x85) ∨ (0x88 ≤ page ∧ page < 0x8D) ∨ page = 0x90 ∨ (0x98 ≤ page ∧ page < 0x9A) ∨
    (0xA0 ≤ page ∧ page < 0xB0))

/-- The data of an access is as long as the access. -/
def fits (len : Nat) : Option (List Byte) → Bool
  | none => true
  | some bs => decide (bs.length = len)

/-- A cell number within a frame. -/
def cellNo {α : Type} : Option (Nat × α) → Bool
  | none => true
  | some u => decide (u.1 < 64)

/-- Whether a command's operands are ones that can occur. -/
def Instr.wf : Instr → Bool
  | .registerWrite via _ => via.wf
  | .maskedAliasWrite page _ _ _ _ => isPage page
  | .counterClearWrite page _ _ => isPage page
  | .farWriteComplete page => isPage page
  | .farWriteTimeout page => isPage page
  | .stallLimitReached _ _ _ => true
  | .apertureAccess off len write => decide (off < 2 ^ 29 ∧ 1 ≤ len) && fits len write
  | .hifIrqEoi _ => true
  | .msixVectorUnmask _ => true
  | .functionLevelReset => true
  | .d3hotEntry => true
  | .pcieReset _ => true
  | .hifErrCapClear => true
  | .ringTailWrite _ _ => true
  | .ringDisable _ => true
  | .ringIrqPendClear _ => true
  | .ringCoalesceTimeout _ => true
  | .hostDmaDisable => true
  | .hostTxFetch _ => true
  | .hostRxDeliver _ upset => cellNo upset
  | .governorIntervalEnd _ => true
  | .monitorWindowEnd readings => decide (readings.1.length = 37)
  | .avsTransactionComplete _ _ => true
  | .avsReadbackTimeout => true
  | .avsFaultClear => true
  | .clkMonClr => true
  | .clockLoss _ => true
  | .quadModeChange _ _ => true
  | .laneEnableChange _ _ _ => true
  | .autonegComplete _ _ _ _ => true
  | .trainingDone _ _ => true
  | .trainingTimeout _ _ => true
  | .trainingRestart _ _ => true
  | .linkUp _ => true
  | .linkDown _ _ => true
  | .serdesPllLockLost _ => true
  | .rxFrameStart _ bytes => decide (1 ≤ bytes.length ∧ bytes.length ≤ 65535)
  | .rxOversize _ _ => true
  | .rxFrameEnd _ rest _ _ _ => decide (rest.length ≤ 65535)
  | .pauseFrameReceived _ _ _ => true
  | .pfcFrameReceived _ _ timers => decide (timers.length = 8)
  | .pauseTimerExpire _ => true
  | .pfcTimerExpire _ _ => true
  | .pauseFrameSend _ => true
  | .macRxEnableChange _ _ => true
  | .macTxDisable _ => true
  | .preemptVerifySend _ => true
  | .preemptVerifyResponse _ => true
  | .preemptVerifyTimeout _ => true
  | .wakeEnergyDetect _ _ => true
  | .wakePatternMatch _ bytes => decide (bytes.length ≤ 65535)
  | .parseAdmit _ _ => true
  | .lateClaimCheck _ => true
  | .pipelineStage _ _ => true
  | .puntMeterRefill => true
  | .egressEdit _ _ => true
  | .takeoverForce _ => true
  | .takeoverPortSwitch _ => true
  | .takeoverRelease => true
  | .learnProcess => true
  | .agingScan => true
  | .pendingSweep => true
  | .tblDmaDisable => true
  | .tblCmdWrite => true
  | .tblCmdRead => true
  | .tblCmdInsert => true
  | .tblCmdDelete => true
  | .tblCmdSearch => true
  | .tblCmdLock => true
  | .tblCmdUnlock => true
  | .lockAutoRelease _ => true
  | .scrubWord bad _ => bad.1.all (fun u => decide (u.1 < 5 ∧ u.2.1 < 128))
  | .verSetOpen => true
  | .verSetCommit => true
  | .verSetClose => true
  | .commitPoint => true
  | .openSetLimit => true
  | .policeFrame _ => true
  | .meterRefill _ _ => true
  | .streamGateEntry _ _ => true
  | .scheduleCycleStart _ _ => true
  | .cellSend _ => true
  | .cellAck _ => true
  | .ackTimeoutResend _ _ _ => true
  | .planeStallDetect _ _ _ => true
  | .planeSelfTestDone _ _ => true
  | .cmdPlaneIsolate _ => true
  | .cmdPlaneTest _ => true
  | .cmdPlaneSwap _ => true
  | .fabricEnableChange _ => true
  | .rsqCellArrive _ _ _ _ => true
  | .rsqCellPassOut _ => true
  | .gapTimeout _ _ => true
  | .recoveryResetTimeout _ _ => true
  | .rsqIndRead _ _ _ => true
  | .rsqIndWrite _ _ _ => true
  | .rsqIndDone _ => true
  | .bpmAdmit _ => true
  | .bpmCellAlloc _ => true
  | .copyRelease head gen _ => decide (head < 2 ^ 24 ∧ gen < 4096)
  | .freeStoreMove _ => true
  | .bpmEnable => true
  | .bpmInitDone => true
  | .sweepRequest => true
  | .sweepComplete => true
  | .hbmRequestServe _ bad _ => decide (bad ≤ 272)
  | .hbmRefresh _ _ => true
  | .pcFreeze _ _ addr _ => decide (addr < 2 ^ 35)
  | .slotResume _ => true
  | .sparePcTestDone _ _ => true
  | .hbcPprCmd _ _ _ _ => true
  | .pprComplete _ _ => true
  | .hbmStackEnable _ => true
  | .hbmInitDone _ => true
  | .tmgSelect _ _ => true
  | .txCopyStart _ _ upset => cellNo upset
  | .txCopyEnd _ upset _ => cellNo upset
  | .shaperRefill _ => true
  | .residencyVisit _ => true
  | .fcRepeatTimer _ => true
  | .sampleRoundStart _ _ => true
  | .tbSet _ => true
  | .tbStep _ => true
  | .tbSnapshot _ => true
  | .txtsPop _ => true
  | .pinEventPop _ => true
  | .pinPulseRise _ => true
  | .pinPulseFall _ => true
  | .pinInputEdge _ _ _ => true
  | .tsPllLockLost => true
  | .gclCommit _ => true
  | .gclCancel _ => true
  | .gclTakeover _ => true
  | .gateEntryBoundary _ => true
  | .gateEngineDisable _ => true
  | .captureRecordWrite => true
  | .captureUnfreeze => true
  | .frontTimedInject => true
  | .frontSoftwareInject => true
  | .frontPassBlock _ => true
  | .frontComplete => true
  | .frontLate => true
  | .ledgerAudit => true
  | .ledgerUnfreeze => true
  | .staEnableChange _ _ _ _ => true
  | .bwWindowEnd _ _ => true
  | .pmcStopRequest => true
  | .pmcResume => true
  | .secAllocate _ => true
  | .secProgramRootHash _ _ _ => true
  | .doorbellComplete => true
  | .seal => true
  | .sealComplete _ => true
  | .getNonce => true
  | .enroll => true
  | .wardenWrite => true
  | .wardenRead => true
  | .verOpen => true
  | .verCommit => true
  | .verClose => true
  | .kekInit => true
  | .keyLoad => true
  | .keyErase => true
  | .setView => true
  | .setMirror => true
  | .setMacsecReq => true
  | .attest => true
  | .reseal => true
  | .signatureLockoutEnd _ => true
  | .tenantSection => true
  | .mscIndRead _ _ _ => true
  | .mscIndWrite _ _ _ => true
  | .mscIndDone _ => true
  | .islWindowClose _ bits => decide (bits.1.length = bits.2.length ∧ bits.1.length ≤ 1638400)
  | .islInputFault _ _ => true
  | .islSecondClassify bits => decide (bits.length = 4) && bits.all (fun b => decide (b.1.length = b.2.length ∧ b.1.length ≤ 16384))
  | .islPeriodBoundary _ => true
  | .islCheckpoint => true
  | .islRecordSend => true
  | .islMailboxTime _ _ => true
  | .islMailboxCalibration _ _ => true
  | .islMailboxSealArm _ => true
  | .islSealFuse _ => true
  | .islSealArmLapse => true
  | .islSealBreak _ => true
  | .islHoldEnter => true
  | .islHoldExit _ => true
  | .islColdStart _ => true
  | .islWatchdogReset _ => true
  | .islStatusUpdate _ _ _ => true
  | .islLinkTimeout => true
  | .regionStallTimeout _ _ => true
  | .sprCmdDeclare _ => true
  | .sprCmdTest _ => true
  | .sprCmdApprove => true
  | .sprCmdDeny => true
  | .sprCmdRetire _ => true
  | .approvalTimeout => true
  | .repairStart => true
  | .repairComplete _ => true
  | .eventAccept => true
  | .squallAccept => true
  | .evrRecordStore _ _ => true
  | .evrHeaderWrite => true
  | .evrStartScan => true
  | .evrMirrorSelect _ => true
  | .evrSwEvent _ => true
  | .porRelease _ => true
  | .porAssert => true
  | .pwrEnSdsTimer => true
  | .pwrEnHbmTimer => true
  | .railCheck _ _ => true
  | .warmReset => true
  | .bootHeaderCheck => true
  | .sectionRegisterWrites _ => true
  | .sectionWindowWrites => true
  | .sectionTableCommands => true
  | .sectionTenant => true
  | .sectionAllocation _ => true
  | .sectionPoll => true
  | .sectionChangeSet => true
  | .lullEnterCmd => true
  | .lullReqPin _ => true
  | .lullDrainExpire => true
  | .lullGo => true
  | .lullHoldExpire => true
  | .lullPowerDownDone => true
  | .lullAbort _ => true
  | .wakePin _ => true
  | .wakeTimer => true
  | .lullExit => true
  | .dbgReceiverReset => true
  | .dbgSessionOpen => true
  | .dbgSessionClose => true
  | .dbgRespPush _ => true
  | .dbgUnlock => true
  | .dbgIdleTimeout => true
  | .dbgHaltWrite _ => true
  | .dbgStep _ _ => true
  | .dbgTokenSelect _ _ => true
  | .dbgMemAccess _ _ _ => true
  | .dbgMemAccessDone => true
  | .jtagInstruction _ => true
  | .jtagReset => true
  | .initEnd => true
  | .pcieLinkUp _ _ => true
  | .laneLockAcquired _ _ _ => true
  | .remoteFaultReceived _ _ => true
  | .clockLossHeld _ => true
  | .lockOverlapWaitEnd => true
  | .stackHotChange _ _ => true

end Sys2Proof
end

