-- ==== Sys2Proof/Tests/Slice0.lean ====
section
/-! SUPPORT. Tests of single steps on small states, ill-formed commands that the check refuses, and states that meet the
hypotheses of the statements. -/

namespace Sys2Proof.Tests

-- The theorems below are elaborated one after another, so that few threads run at a time.
set_option Elab.async false

open Sys2Proof Sys2Proof.Machine

/-- A device in state Run with its PCIe link up, every register at its reset value beside TOP_STATE. -/
def up : State :=
  State.wr { State.reset with pmu := { por := true, enCore := true }, hif := { linkUp := true } } (topA 0x048) 2
/-- A word of a register set. -/
def put (a : Nat) (w : Word) (s : State := up) : State := s.wr a w

/-- A configuration of the island (R481): circuit 0 enabled, gains 1, unit 1. -/
def islCfg : List Byte :=
  [1, 0x10, 2, 2, 2, 2, 2, 2, 3, 3, 3, 3, 3, 3, 0, 5, 0, 0, 0, 1, 0, 0, 0, 0, 0, 0, 0, 0, 0, 0, 0, 0, 0, 0x8C, 0xA0,
    0, 0, 1, 0, 0, 0, 0, 0, 0, 0, 0, 0, 0, 0, 0, 0, 0, 0, 0, 0, 0, 0, 0x8C, 0xA0, 0, 0, 1, 0, 0, 0, 0, 0, 0, 0, 0, 0,
    0, 0, 0, 0, 0, 0, 0, 0, 0, 0, 0x8C, 0xA0, 0, 0, 1, 0, 0, 0, 0, 0, 0, 0, 0, 0, 0, 0, 0, 0, 0, 0, 0, 0, 0, 0, 0x8C,
    0xA0, 0, 0, 1, 0, 0, 0, 0, 0, 0, 0, 0, 0, 0, 0, 0, 0, 0, 0, 0, 0, 0]

/-- The island while it measures under it. -/
def islUp : Isl := { (State.reset.isl) with run := true, cfg := islCfg }

/-- A device whose VLAN map gives VID 1 to domain 2 in pipeline 0. -/
def vlanUp : State := { up with tbl := { banks := [(12451848, 0x40), (12451849, 2)] } }
/-- A device with one table command in host memory: op, target, index, count, buffer address and the bytes there. -/
def cmdUp (op t index count : Nat) (buf : List Byte) (s : State := up) : State :=
  { put (tblA 0x054) 1 (put (tblA 0x04C) 0x401 s) with
    host := writeBytes (writeBytes [] 0 (leBytes 1 op ++ leBytes 1 t ++ leBytes 2 0 ++ leBytes 4 index ++ leBytes 2 count ++
      leBytes 6 0 ++ leBytes 8 0x1000)) 0x1000 buf }
/-- The bytes of an R-NAT entry of domain 0 with key 5 and versions 0 to 0. -/
def rnat : List Byte := [5, 0, 0, 0, 0, 0, 0, 0, 0x40, 0, 0, 0, 1, 2, 3, 4]
/-- An entry in the first bytes of a table, in all five copies. -/
def inTable (o : Nat) (bs : List Byte) (s : State := up) : State :=
  { s with tbl := { s.tbl with banks := (List.range 5).foldl (fun m c => writeBytes m (c * 2 ^ 28 + o) bs) s.tbl.banks } }

/-- The public key of a test operator, and a command frame it signs: domain, op, body, signature (seq 7, nonce of nines). -/
def wkey : List Byte :=
  4 :: beBytes 96 0xe2a6dec9d2b66068f44d66230316468f879062b0062f6e64c81263eef27c80980c2b9ddd0434c02bd5a3759b069920f6b9f3967b78cd7e64532a1961333df2b0c0bb4935d975524971656187dc2513be780a0a11b855499043962c35f90b308
def wcmd (d op : Nat) (body : List Byte) (sig : Nat) : WCmd :=
  { dom := d, port := 0, front := true, bytes := List.replicate 12 2 ++ beBytes 2 0x88B5 ++ beBytes 1 1 ++ beBytes 1 d ++ beBytes 2 op ++
      beBytes 4 7 ++ List.replicate 16 9 ++ beBytes 2 body.length ++ [1, 0] ++ body ++ beBytes 96 sig }
/-- A device at whose warden a command waits, its domain's key enrolled. -/
def wup (c : WCmd) (o : OtpGen := {}) (s : State := up) : State :=
  { s with sec := { s.sec with otp := [{ o with roots := [(c.dom, [1])], algs := [(c.dom, 1)] }, {}, {}, {}],
                               keys := [(c.dom, wkey)], nonces := [(c.dom, List.replicate 16 9)], inbox := [c] } }

-- TESTS

/-! ### Ill-formed commands, one for each check -/

theorem test_wf_register_write_outside :
    (Instr.registerWrite (.write .bar0 (2 ^ 24 - 2) true [0, 0, 0, 0]) true).wf = false := by decide
theorem test_wf_register_write_empty : (Instr.registerWrite (.write .bar2 0 true []) true).wf = false := by decide
theorem test_wf_register_read_empty : (Instr.registerWrite (.read .bar0 0 0 true) true).wf = false := by decide
theorem test_wf_register_wire_empty : (Instr.registerWrite (.wire []) true).wf = false := by decide
theorem test_wf_masked_alias_page : (Instr.maskedAliasWrite 0x66 0 false 0 0).wf = false := by decide
theorem test_wf_counter_clear_page : (Instr.counterClearWrite 0xB0 0 0).wf = false := by decide
theorem test_wf_far_complete_page : (Instr.farWriteComplete 0x91).wf = false := by decide
theorem test_wf_far_timeout_page : (Instr.farWriteTimeout 0x6D).wf = false := by decide
theorem test_wf_aperture_outside : (Instr.apertureAccess (2 ^ 29) 4 none).wf = false := by decide
theorem test_wf_aperture_data_length : (Instr.apertureAccess 0 4 (some [1, 2, 3])).wf = false := by decide
theorem test_wf_rx_deliver_cell : (Instr.hostRxDeliver 0 (some (64, 0))).wf = false := by decide
theorem test_wf_monitor_readings : (Instr.monitorWindowEnd ([0, 0], false)).wf = false := by decide
theorem test_wf_rx_start_empty : (Instr.rxFrameStart 0 []).wf = false := by decide
theorem test_wf_rx_end_long (bs : List Byte) (h : bs.length = 65536) : (Instr.rxFrameEnd 0 bs (false, []) false 0).wf = false := by
  simp only [Instr.wf, h, decide_eq_false_iff_not]; omega
theorem test_wf_pfc_timers : (Instr.pfcFrameReceived 0 0 [1, 2]).wf = false := by decide
theorem test_wf_wake_pattern_long (bs : List Byte) (h : bs.length = 65536) : (Instr.wakePatternMatch 0 bs).wf = false := by
  simp only [Instr.wf, h, decide_eq_false_iff_not]; omega
theorem test_wf_scrub_bank : (Instr.scrubWord ([(5, 0, 0)], []) false).wf = false := by decide
theorem test_wf_copy_release_head : (Instr.copyRelease (2 ^ 24) 0 none).wf = false := by decide
theorem test_wf_hbm_serve_symbols : (Instr.hbmRequestServe 0 273 0).wf = false := by decide
theorem test_wf_pc_freeze_addr : (Instr.pcFreeze 0 0 (2 ^ 35) 0).wf = false := by decide
theorem test_wf_tx_start_cell : (Instr.txCopyStart 0 false (some (64, 0))).wf = false := by decide
theorem test_wf_tx_end_cell : (Instr.txCopyEnd 0 (some (70, 0)) false).wf = false := by decide
theorem test_wf_isl_bits : (Instr.islWindowClose 0 ([true], [])).wf = false := by decide
theorem test_wf_isl_seconds : (Instr.islSecondClassify []).wf = false := by decide
theorem test_wf_good_write : (Instr.registerWrite (.write .bar0 0x2C44 true [1, 0, 3, 0]) true).wf = true := by decide

/-! ### Check codes: the value R74 gives for "123456789", and the published vectors of the algorithms the spec names -/

theorem test_crc16_r74 : crc16 [0x31, 0x32, 0x33, 0x34, 0x35, 0x36, 0x37, 0x38, 0x39] = 0x29B1 := by decide +kernel
theorem test_crc32c_check : crc32c [0x31, 0x32, 0x33, 0x34, 0x35, 0x36, 0x37, 0x38, 0x39] = 0xE3069283 := by decide +kernel
theorem test_crc32_check : crc32 [0x31, 0x32, 0x33, 0x34, 0x35, 0x36, 0x37, 0x38, 0x39] = 0xCBF43926 := by decide +kernel
/-- FIPS 180: SHA-384 of "abc". -/
theorem test_sha384_abc : Crypto.sha384 [0x61, 0x62, 0x63] =
    beBytes 48 0xcb00753f45a35e8bb5a03d699ac65007272c32ab0eded1631a8b605a43ff5bed8086072ba1e7cc2358baeca134c825a7 := by
  decide +kernel
/-- FIPS 197, appendix C.3. -/
theorem test_aes256 : Crypto.aesEnc (Crypto.aesKeys ((List.range 32).map (BitVec.ofNat 8))) 0x00112233445566778899aabbccddeeff =
    0x8ea2b7ca516745bfeafc49904b496089 := by decide +kernel
/-- The AES-GCM test case with a zero key, nonce and block. -/
theorem test_gcm : Crypto.gcmSeal (List.replicate 16 0) (List.replicate 12 0) [] (List.replicate 16 0) =
    beBytes 32 0x0388dace60b6a392f328c2b971b2fe78ab6e47d42cec13bdf53a67b21257bddf := by decide +kernel

/-! ### Worked examples of the spec -/

/-- Chapter 3: the MAC page of port 5 reads 0x4405_0100, and the CLK page reads 0x0800_0100. -/
theorem test_page_id : State.reset.rd (macA 5 0) = 0x44050100 ∧ State.reset.rd (clkA 0) = 0x08000100 := by decide +kernel
/-- Chapter 3: 0x0003_0001 at 0x00_2C44, the high alias of CLK_GOV_CTL, puts the governor in governed mode. -/
theorem test_masked_alias : (match exec (.registerWrite (.write .bar0 0x2C44 true [1, 0, 3, 0]) true) up with
    | .next t => decide (t.f (clkA 0x044) 17 16 = 1 ∧ t.f (clkA 0x044) 15 0 = up.f (clkA 0x044) 15 0)
    | _ => false) = true := by decide +kernel
/-- R60: a write of a reserved bit pattern to an unimplemented offset is captured with kind 1. -/
theorem test_rejected_write : (match exec (.registerWrite (.write .bar0 0x020 true [1, 0, 0, 0]) true) up with
    | .next t => decide (t.b (hifA 0x048) 31 = true ∧ t.f (hifA 0x048) 27 24 = 1)
    | _ => false) = true := by decide +kernel

/-- States and operands that meet the hypotheses of StepRunsTheFrontCommand, clause by clause. -/
theorem witness_StepRunsTheFrontCommand :
    (∃ (c : Instr) (cs : List Instr) (s : State), s.pending = c :: cs) :=
  ⟨.initEnd, [], { up with pending := [.initEnd] }, rfl⟩

/-- States and operands that meet the hypotheses of IdleTimePasses, clause by clause. -/
theorem witness_IdleTimePasses :
    (∃ (s : State), s.pending = [] ∧ s.alive = true ∧ s.regionDown 61 = false) :=
  ⟨up, by decide +kernel⟩

/-- States and operands that meet the hypotheses of LevelsStaySettled, clause by clause. -/
theorem witness_LevelsStaySettled :
    (∃ (s t : State), s.Settled ∧ step s = .next t) :=
  ⟨{ up with pending := [.pwrEnSdsTimer] }, _, by decide +kernel, rfl⟩

/-- States and operands that meet the hypotheses of HostWriteOfPageEnable, clause by clause. -/
theorem witness_HostWriteOfPageEnable :
    (∃ (s : State) (page : Nat) (data : Word), ((pageOf page).isSome = true) ∧ (s.accepts (page * 0x1000 + 0xC) data)) :=
  ⟨up, 9, 5, by decide +kernel⟩

/-- States and operands that meet the hypotheses of MaskedAliasWritesSelectedBits, clause by clause. -/
theorem witness_MaskedAliasWritesSelectedBits :
    (∃ (s : State) (page : Nat) (sel : BitVec 16) (val : BitVec 16), ((pageOf page).isSome = true) ∧ (s.accepts (page * 0x1000 + 0x80C) (word (sel.toNat * 65536 + val.toNat)))) ∧
    (∃ (s : State) (page : Nat) (sel : BitVec 16) (val : BitVec 16), ((pageOf page).isSome = true) ∧ (s.accepts (page * 0x1000 + 0xC0C) (word (sel.toNat * 65536 + val.toNat)))) :=
  ⟨⟨put 0x900C 0x1234, 9, 0xFF, 0x56, by decide +kernel⟩,
   ⟨put 0x900C 0x1234, 9, 0xFF, 0x56, by decide +kernel⟩⟩

/-- States and operands that meet the hypotheses of RejectedWriteChangesNoRegister, clause by clause. -/
theorem witness_RejectedWriteChangesNoRegister :
    (∃ (s : State) (addr : Nat) (data : Word), (s.hostOpen = true) ∧ (addr < 2 ^ 24) ∧ (addr % 4 = 0) ∧ (s.regCheck .host true (resolve addr data) ≠ 0) ∧ (s.b (hifA 0x048) 31 = false)) :=
  ⟨up, 0x1040, 5, by decide +kernel⟩

/-- States and operands that meet the hypotheses of PostedWritesEndAtTheirPage, clause by clause. -/
theorem witness_PostedWritesEndAtTheirPage :
    (∃ (s : State) (p : Port) (w : FarPost), (s.b (macA p.val 4) 31 = true) ∧ (s.hif.far.at {} (macPage p.val) = w) ∧ (w.off = 0x080)) ∧
    (∃ (s : State) (page : Nat) (w : FarPost), ((pageOf page).isSome = true) ∧ (s.b (page * 0x1000 + 4) 31 = true) ∧ (s.hif.far.at {} page = w) ∧ (w.off < 0x1000) ∧ (w.addr < 2 ^ 30) ∧ (s.b (hifA 0x048) 31 = false)) ∧
    (∃ (s : State), (s.hostOpen = true) ∧ (s.b (hifA 0x048) 31 = false)) :=
  ⟨⟨{ State.setB up (macA 3 4) 31 true with hif := { up.hif with far := [(macPage 3, { off := 0x080, mask := 0xFF, data := 0x12, addr := 0x23080, sent := 0x12 })] } }, 3, { off := 0x080, mask := 0xFF, data := 0x12, addr := 0x23080, sent := 0x12 }, by decide +kernel⟩,
   ⟨{ State.setB up (macA 3 4) 31 true with hif := { up.hif with far := [(macPage 3, { off := 0x080, mask := 0xFF, data := 0x12, addr := 0x23080, sent := 0x12 })] } }, macPage 3, { off := 0x080, mask := 0xFF, data := 0x12, addr := 0x23080, sent := 0x12 }, by decide +kernel⟩,
   ⟨up, by decide +kernel⟩⟩

/-- States and operands that meet the hypotheses of ApertureReachesHbm, clause by clause. -/
theorem witness_ApertureReachesHbm :
    (∃ (s : State) (off : Nat) (bs : List Byte), (s.hostOpen = true) ∧ (s.apertureKind off bs.length = 0)) ∧
    (∃ (s : State) (off : Nat) (len : Nat), (s.hostOpen = true) ∧ (s.apertureKind off len = 0)) :=
  ⟨⟨up, 0x20, [1, 2, 3, 4], by decide +kernel⟩,
   ⟨{ up with hbm := [(0x21, 7)] }, 0x20, 4, by decide +kernel⟩⟩

/-- States and operands that meet the hypotheses of EndOfInterruptResends, clause by clause. -/
theorem witness_EndOfInterruptResends :
    (∃ (s : State) (v : Fin 256), (s.accepts (hifA 0x05C) (word v.val)) ∧ (s.Settled) ∧ ((∀ j : Fin 4, s.b (dbgA (0x180 + 16 * j.val)) 0 = false)) ∧ (v.val ∈ s.levels) ∧ ((s.msix v.val).masked = false)) ∧
    (∃ (s : State) (v : Fin 256), (s.accepts (hifA 0x05C) (word v.val)) ∧ (s.Settled) ∧ ((∀ j : Fin 4, s.b (dbgA (0x180 + 16 * j.val)) 0 = false)) ∧ (¬ (v.val ∈ s.levels ∧ (s.msix v.val).masked = false))) :=
  ⟨⟨{ put 0x1010C 0xFFFFFFFF (put 0x1000C 1 (put 0x10008 1 (put 0x140 0x80000005))) with hif := { linkUp := true, msix := [(5, { addr := 8, data := 9, masked := false })], levels := [5] } }, 5, by decide +kernel⟩,
   ⟨up, 5, by decide +kernel⟩⟩

/-- States and operands that meet the hypotheses of VectorUnmaskSends, clause by clause. -/
theorem witness_VectorUnmaskSends :
    (∃ (s : State) (v : Fin 256), (s.hostOpen = true) ∧ (s.Settled) ∧ ((s.msix v.val).masked = true)) :=
  ⟨{ put 0x1000C 1 (put 0x10008 1 (put 0x140 0x80000005)) with hif := { linkUp := true, levels := [5] } }, 5, by decide +kernel⟩

/-- States and operands that meet the hypotheses of FunctionResetsStopHostDma, clause by clause. -/
theorem witness_FunctionResetsStopHostDma :
    (∃ (s : State), (s.pmu.por = true) ∧ (s.hif.linkUp = true) ∧ (s.dmaReady = false)) ∧
    (∃ (s : State), (s.pmu.por = true) ∧ (s.hif.linkUp = true) ∧ (s.dmaReady = false)) ∧
    (∃ (s : State), (s.pmu.por = true)) ∧
    (∃ (s : State), (s.pmu.por = true)) :=
  ⟨⟨{ up with win := [(0x1000016, 1)] }, by decide +kernel⟩,
   ⟨{ up with win := [(0x1000016, 1)] }, by decide +kernel⟩,
   ⟨{ put 0x1044 1 with win := [(0x1000016, 1)] }, by decide +kernel⟩,
   ⟨{ up with hif := { perst := true } }, by decide +kernel⟩⟩

/-- States and operands that meet the hypotheses of RingControlWrites, clause by clause. -/
theorem witness_RingControlWrites :
    (∃ (s : State), (s.hostOpen = true) ∧ (2 ≤ s.f (topA 0x048) 2 0)) ∧
    (∃ (s : State), (s.hostOpen = true) ∧ (2 ≤ s.f (topA 0x048) 2 0)) ∧
    (∃ (s : State) (i : Fin 2048), (s.hostOpen = true) ∧ (2 ≤ s.f (topA 0x048) 2 0) ∧ (s.ringDue i.val = false)) ∧
    (∃ (s : State) (i : Fin 2048), (s.hostOpen = true) ∧ (2 ≤ s.f (topA 0x048) 2 0) ∧ (s.ringDue i.val = true) ∧ (s.ringFlag i.val 1 = true)) ∧
    (∃ (s : State) (i : Fin 2048), (0 < (s.ringX i.val).unrep) ∧ (s.winLE (ringA i.val + 20) 2 ≠ 0) ∧ (s.ringFlag i.val 1 = true) ∧ (s.ringFlag i.val 5 = false)) ∧
    (∃ (s : State), (s.accepts (hifA 0x044) 0)) :=
  ⟨⟨up, by decide +kernel⟩,
   ⟨{ up with win := [(0x1000036, 0x2F)] }, by decide +kernel⟩,
   ⟨{ up with win := [(0x1000036, 0x2F)] }, 1, by decide +kernel⟩,
   ⟨{ up with win := [(0x1000036, 0x2F)], hif := { linkUp := true, rings := [(1, { unrep := 5 })] } }, 1, by decide +kernel⟩,
   ⟨{ up with win := [(0x1000032, 8), (0x1000034, 9), (0x1000036, 0x03)], hif := { linkUp := true, rings := [(1, { unrep := 5 })] } }, 1, by decide +kernel⟩,
   ⟨put 0x1044 1, by decide +kernel⟩⟩

/-- States and operands that meet the hypotheses of GovernorStepsTheVoltage, clause by clause. -/
theorem witness_GovernorStepsTheVoltage :
    (∃ (s : State) (v : Nat), (s.alive = true) ∧ (s.govMode = 1) ∧ (s.gov.vset = some v) ∧ (s.gov.next = none) ∧ (s.gov.writing = none) ∧ (s.b (clkA 0x074) 31 = false) ∧ (s.b (clkA 0x078) 0 = true) ∧ (s.slowest.1 < s.f (clkA 0x050) 11 0) ∧ (v < s.vmax) ∧ (0 < s.ff (clkA 0x04C) 7 0) ∧ (s.gov.reading = false)) ∧
    (∃ (s : State) (v : Nat), (s.alive = true) ∧ (s.govMode = 1) ∧ (s.gov.vset = some v) ∧ (s.gov.next = none) ∧ (s.gov.writing = none) ∧ (s.b (clkA 0x074) 31 = false) ∧ (s.b (clkA 0x078) 0 = true) ∧ (s.slowest.1 < s.f (clkA 0x050) 11 0) ∧ (v < s.vmax) ∧ (0 < s.ff (clkA 0x04C) 7 0)) ∧
    (∃ (s : State) (readings : List (BitVec 12)), (s.alive = true) ∧ (readings.length = 37)) ∧
    (∃ (s : State) (readings : List (BitVec 12)) (r : Fin 37), (s.alive = true) ∧ (readings.length = 37) ∧ (1120 ≤ s.f (clkA (0x100 + 4 * r.val)) 11 0) ∧ ((readings.getD r.val 0).toNat < 1120)) ∧
    (∃ (s : State), (s.accepts (clkA 0x084) 1)) :=
  ⟨⟨{ (((put (clkA 0x078) 1).load (clkA 0x044)).load (clkA 0x048)).load (clkA 0x04C) with gov := { vset := some 750 }, inForce := [(clkA 0x044, 0x10064)] }, 750, by decide +kernel⟩,
   ⟨{ (((put (clkA 0x078) 1).load (clkA 0x044)).load (clkA 0x048)).load (clkA 0x04C) with gov := { vset := some 750 }, inForce := [(clkA 0x044, 0x10064)] }, 750, by decide +kernel⟩,
   ⟨up, List.replicate 37 1300, by decide +kernel⟩,
   ⟨put (clkA 0x10C) 1300, List.replicate 37 1100, 3, by decide +kernel⟩,
   ⟨put (clkA 0x080) 0x30400, by decide +kernel⟩⟩

/-- States and operands that meet the hypotheses of VoltageTransactions, clause by clause. -/
theorem witness_VoltageTransactions :
    (∃ (s : State) (v : Nat), (s.alive = true) ∧ (s.gov.writing = some v) ∧ (s.gov.next = none)) ∧
    (∃ (s : State), (s.alive = true) ∧ (s.gov.writing = none) ∧ (s.gov.next = none)) ∧
    (∃ (s : State) (v : Nat), (s.alive = true) ∧ (s.gov.writing = some v) ∧ (s.gov.tries < 3)) ∧
    (∃ (s : State) (v : Nat), (s.alive = true) ∧ (s.gov.writing = some v) ∧ (s.gov.tries = 3) ∧ (s.b (clkA 0x074) 31 = false)) ∧
    (∃ (s : State) (op : AvsOp), (s.alive = true) ∧ (s.gov.writing = none) ∧ (op ≠ .write) ∧ (s.gov.tries < 3)) ∧
    (∃ (s : State) (v : Nat), (s.alive = true) ∧ (s.gov.writing.isSome = true) ∧ (s.gov.next = some v) ∧ (s.avsWrites = true)) ∧
    (∃ (s : State), (s.gov.vset.isSome = true) ∧ (s.f (clkA 0x070) 25 16 + 10 < s.f (clkA 0x070) 9 0 ∨ s.f (clkA 0x070) 9 0 + 10 < s.f (clkA 0x070) 25 16) ∧ (s.b (clkA 0x074) 31 = false)) ∧
    (∃ (s : State), (s.accepts (clkA 0x074) (word (2 ^ 31)))) ∧
    (∃ (s : State) (d : Fin 212), (s.pmu.por = true) ∧ (d.val < 208) ∧ (s.b (clkA (0x220 + 4 * (d.val / 32))) (d.val % 32) = false)) :=
  ⟨⟨{ up with gov := { vset := some 760, writing := some 760, tries := 2 } }, 760, by decide +kernel⟩,
   ⟨up, by decide +kernel⟩,
   ⟨{ up with gov := { vset := some 760, writing := some 760, tries := 2 } }, 760, by decide +kernel⟩,
   ⟨{ up with gov := { vset := some 760, writing := some 760, tries := 3 } }, 760, by decide +kernel⟩,
   ⟨{ up with gov := { reading := true, tries := 1 } }, .status, by decide +kernel⟩,
   ⟨{ (put (clkA 0x078) 1) with gov := { writing := some 750, vset := some 750, next := some 760 }, inForce := [(clkA 0x044, 0x10064)] }, 760, by decide +kernel⟩,
   ⟨{ put (clkA 0x070) 0x2EE0300 with gov := { vset := some 768 } }, by decide +kernel⟩,
   ⟨put (clkA 0x074) 0x80000002, by decide +kernel⟩,
   ⟨up, 37, by decide +kernel⟩⟩

/-- States and operands that meet the hypotheses of LanesTrainAndLock, clause by clause. -/
theorem witness_LanesTrainAndLock :
    (∃ (s : State) (q : Quad) (l : Fin 4), (s.govLane q.val l.val = l.val) ∧ (s.b (laneCtlA q.val l.val) 0 = false) ∧ (s.accepts (laneCtlA q.val l.val) (setBit (s.rd (laneCtlA q.val l.val)) 0 true))) ∧
    (∃ (s : State) (q : Quad) (l : Fin 4), (s.govLane q.val l.val = l.val) ∧ (s.b (laneCtlA q.val l.val) 0 = true) ∧ (s.accepts (laneCtlA q.val l.val) (setBit (s.rd (laneCtlA q.val l.val)) 0 false))) ∧
    (∃ (s : State) (q : Quad) (l : Fin 4) (en : Bool), (s.govLane q.val l.val ≠ l.val) ∧ (s.accepts (laneCtlA q.val l.val) (setBit (s.rd (laneCtlA q.val l.val)) 0 en))) ∧
    (∃ (s : State) (q : Quad) (l : Fin 4) (w : Fin 5), (s.laneOn q.val l.val = true) ∧ (w.val < 3)) ∧
    (∃ (s : State) (q : Quad) (l : Fin 4), (s.laneOn q.val l.val = true)) ∧
    (∃ (s : State) (q : Quad) (l : Fin 4), (s.laneOn q.val l.val = true) ∧ (s.f (laneCtlA q.val (s.govLane q.val l.val)) 6 4 = 0) ∧ (s.b (laneCtlA q.val (s.govLane q.val l.val)) 14 = true)) ∧
    (∃ (s : State) (q : Quad) (l : Fin 4), (s.laneOn q.val l.val = true) ∧ (s.f (laneCtlA q.val (s.govLane q.val l.val)) 6 4 = 0) ∧ (s.b (laneCtlA q.val (s.govLane q.val l.val)) 13 = true)) ∧
    (∃ (s : State) (q : Quad) (l : Fin 4), (s.f (laneStA q.val l.val) 6 4 = 1)) ∧
    (∃ (s : State) (q : Quad) (l : Fin 4), (s.f (laneStA q.val l.val) 6 4 = 1)) ∧
    (∃ (s : State) (q : Quad) (l : Fin 4), (s.laneOn q.val l.val = true) ∧ (s.f (laneStA q.val l.val) 6 4 = 3)) :=
  ⟨⟨put (sdsA 2 0x050) 0x30 (put (sdsA 2 0x040) 1), 2, 2, by decide +kernel⟩,
   ⟨put (sdsA 2 0x048) 0x31 (put (sdsA 2 0x040) 1), 2, 0, by decide +kernel⟩,
   ⟨put (sdsA 2 0x048) 0x31 (put (sdsA 2 0x040) 1), 2, 1, true, by decide +kernel⟩,
   ⟨put (sdsA 2 0x04C) 1, 2, 1, 2, by decide +kernel⟩,
   ⟨put (sdsA 2 0x04C) 1, 2, 1, by decide +kernel⟩,
   ⟨put (sdsA 2 0x04C) 0x4001, 2, 1, by decide +kernel⟩,
   ⟨put (sdsA 2 0x04C) 0x2001, 2, 1, by decide +kernel⟩,
   ⟨put (sdsA 2 0x05C) 0x17, 2, 1, by decide +kernel⟩,
   ⟨put (sdsA 2 0x05C) 0x17, 2, 1, by decide +kernel⟩,
   ⟨put (sdsA 2 0x05C) 0x37 (put (sdsA 2 0x04C) 1), 2, 1, by decide +kernel⟩⟩

/-- States and operands that meet the hypotheses of LinksComeUpAndGoDown, clause by clause. -/
theorem witness_LinksComeUpAndGoDown :
    (∃ (s : State) (p : Port), (s.b (macA p.val 0x048) 0 = false) ∧ (s.linkOk p.val = true) ∧ (s.regionDown (37 + p.val / 4) = false)) ∧
    (∃ (s : State) (p : Port) (l : Fin 4), (s.carried p.val = true) ∧ ((s.portLanes p.val).contains l.val = true) ∧ (s.b (macA p.val 0x048) 0 = true)) ∧
    (∃ (s : State) (p : Port), (s.carried p.val = true) ∧ (s.f (macA p.val 0x048) 5 4 = 0)) ∧
    (∃ (s : State) (q : Quad), (s.b (sdsA q.val 0x044) 0 = true) ∧ ((List.range 4).any (s.laneOn q.val) = true)) ∧
    (∃ (s : State) (q : Quad) (mode : Fin 4), (s.accepts (sdsA q.val 0x040) (word mode.val))) :=
  ⟨⟨put (macA 8 0x048) 0 (put (sdsA 2 0x044) 1 (put (sdsA 2 0x058) 7 (put (sdsA 2 0x048) 1))), 8, by decide +kernel⟩,
   ⟨put (macA 8 0x048) 1, 8, 0, by decide +kernel⟩,
   ⟨put (macA 8 0x048) 1, 8, by decide +kernel⟩,
   ⟨put (sdsA 2 0x044) 1 (put (sdsA 2 0x048) 1), 2, by decide +kernel⟩,
   ⟨put (macA 9 0x040) 3, 2, 1, by decide +kernel⟩⟩

/-- States and operands that meet the hypotheses of MacControlFrames, clause by clause. -/
theorem witness_MacControlFrames :
    (∃ (s : State) (p : Port), (s.rxWire p.val = true) ∧ (s.b (macA p.val 0x054) 0 = true)) ∧
    (∃ (s : State) (p : Port), (s.rxWire p.val = true) ∧ (s.b (macA p.val 0x054) 0 = false)) ∧
    (∃ (s : State) (p : Port) (enable : BitVec 8) (timers : List (BitVec 16)) (pr : Fin 8), (s.rxWire p.val = true) ∧ (s.b (macA p.val 0x054) 1 = true) ∧ (timers.length = 8) ∧ (enable.getLsbD pr.val = true)) ∧
    (∃ (s : State) (p : Port) (f : List Byte) (rest : List (List Byte)), ((s.mac p.val).ctlOut = f :: rest) ∧ (s.portDown p.val = false) ∧ (s.tx p.val = none)) ∧
    (∃ (s : State) (p : Port) (en : Bool), (s.accepts (macA p.val 0x040) (setBit (s.rd (macA p.val 0x040)) 0 en)) ∧ ((s.mac p.val).rx = none)) ∧
    (∃ (s : State) (p : Port), (s.accepts (macA p.val 0x040) (setBit (s.rd (macA p.val 0x040)) 1 false)) ∧ (s.tx p.val = none)) ∧
    (∃ (s : State) (p : Port), (s.b (macA p.val 0x048) 0 = true) ∧ (s.b (macA p.val 0x064) 0 = true) ∧ (s.b (macA p.val 0x064) 1 = false) ∧ ((s.f (macA p.val 0x068) 2 0 = 1 ∨ s.f (macA p.val 0x068) 2 0 = 2)) ∧ ((s.mac p.val).verifyTries < 3)) ∧
    (∃ (s : State) (p : Port), (s.b (macA p.val 0x064) 0 = true) ∧ (s.b (macA p.val 0x064) 1 = false) ∧ (s.f (macA p.val 0x068) 2 0 = 2)) ∧
    (∃ (s : State) (p : Port), (s.f (macA p.val 0x068) 2 0 = 2) ∧ ((s.mac p.val).verifyTries = 3)) :=
  ⟨⟨{ put (macA 8 0x054) 1 (put (macA 8 0x048) 1) with macs := [(8, { rxEn := true })] }, 8, by decide +kernel⟩,
   ⟨{ put (macA 8 0x048) 1 with macs := [(8, { rxEn := true })] }, 8, by decide +kernel⟩,
   ⟨{ put (macA 8 0x054) 2 (put (macA 8 0x048) 1) with macs := [(8, { rxEn := true })] }, 8, 0x12, [1, 2, 3, 4, 5, 6, 7, 8], 4, by decide +kernel⟩,
   ⟨{ put (macA 8 0x048) 1 with macs := [(8, { txEn := true, ctlOut := [[1], [2]] })] }, 8, [1], [[2]], by decide +kernel⟩,
   ⟨up, 8, true, by decide +kernel⟩,
   ⟨{ put (macA 8 0x040) 2 with macs := [(8, { txEn := true })] }, 8, by decide +kernel⟩,
   ⟨put (macA 8 0x068) 1 (put (macA 8 0x064) 0xFF0A01 (put (macA 8 0x048) 1)), 8, by decide +kernel⟩,
   ⟨put (macA 8 0x068) 2 (put (macA 8 0x064) 0xFF0A01), 8, by decide +kernel⟩,
   ⟨{ put (macA 8 0x068) 2 with macs := [(8, { verifyTries := 3 })] }, 8, by decide +kernel⟩⟩

/-- States and operands that meet the hypotheses of FramesAreReceived, clause by clause. -/
theorem witness_FramesAreReceived :
    (∃ (s : State) (p : Port) (bytes : List Byte), (s.rxOpen p.val = true) ∧ (s.portLoop p.val ≠ 1) ∧ ((s.mac p.val).rx.isSome = false) ∧ (bytes.length < 64)) ∧
    (∃ (s : State) (p : Port) (bytes : List Byte), (s.rxOpen p.val = true) ∧ (s.portLoop p.val ≠ 1) ∧ ((s.mac p.val).rx.isSome = false) ∧ (64 ≤ bytes.length) ∧ (heldAtMac (s.mscPort p.val) bytes = false) ∧ (s.stageFits (p.val / 16) 0 bytes.length = true)) ∧
    (∃ (s : State) (p : Port) (bytes : List Byte) (f : List Byte) (rest : List (List Byte)), (s.rxOpen p.val = true) ∧ (s.portLoop p.val = 1) ∧ ((s.mac p.val).rx.isSome = false) ∧ ((s.mac p.val).loop = f :: rest) ∧ (bytes.length < 64)) ∧
    (∃ (s : State) (p : Port) (r : RxFrame), ((s.mac p.val).rx = some r) ∧ (r.stopped = false) ∧ (r.begun = true) ∧ (r.full = 0) ∧ (r.fid = none) ∧ (s.passed (macPage p.val) = false) ∧ (s.freeMode (macPage p.val) = false)) ∧
    (∃ (s : State) (p : Port) (r : RxFrame) (rest : List Byte), ((s.mac p.val).rx = some r) ∧ (r.stopped = false) ∧ (r.begun = true) ∧ (r.fid = none) ∧ (r.loop = none) ∧ (r.bytes.length + rest.length < 64) ∧ (s.passed (macPage p.val) = false) ∧ (s.freeMode (macPage p.val) = false)) ∧
    (∃ (s : State) (p : Port) (r : RxFrame) (fid : Nat) (rest : List Byte), ((s.mac p.val).rx = some r) ∧ (r.stopped = false) ∧ (r.begun = true) ∧ (r.full = 0) ∧ (r.loop = none) ∧ (r.fid = some fid) ∧ ((s.frame fid).id = fid) ∧ ((s.frame fid).place = Place.staged) ∧ ((s.frame fid).verdict = 0) ∧ ((s.frame fid).bytes = r.bytes) ∧ (s.stageFits (p.val / 16) r.bytes.length rest.length = true) ∧ (64 ≤ (r.bytes ++ rest).length) ∧ ((r.bytes ++ rest).length ≤ s.f (macA p.val 0x044) 13 0) ∧ (heldAtMac r.msc (r.bytes ++ rest) = false) ∧ (leVal ((r.bytes ++ rest).drop ((r.bytes ++ rest).length - 4)) = crc32 ((r.bytes ++ rest).take ((r.bytes ++ rest).length - 4)))) :=
  ⟨⟨{ put (macA 8 0x048) 1 with macs := [(8, { rxEn := true })] }, 8, List.replicate 20 1, by decide +kernel⟩,
   ⟨{ put (macA 8 0x048) 1 with macs := [(8, { rxEn := true })] }, 8, List.replicate 70 1, by decide +kernel⟩,
   ⟨{ put (macA 8 0x048) 1 (put (laneCtlA 2 0) 0x100001) with macs := [(8, { rxEn := true, loop := [[1, 2, 3], [4]] })] }, 8, [0, 0], [1, 2, 3], [[4]], by decide +kernel⟩,
   ⟨{ put (macA 8 0x048) 1 with macs := [(8, { rxEn := true, rx := some { bytes := [1], begun := true } })] }, 8, { bytes := [1], begun := true }, by decide +kernel⟩,
   ⟨{ put (macA 8 0x048) 1 with macs := [(8, { rxEn := true, rx := some { bytes := [1], begun := true } })] }, 8, { bytes := [1], begun := true }, [2, 3], by decide +kernel⟩,
   ⟨{ put (macA 8 0x048) 1 with nextId := 8, frames := [(7, { id := 7, place := .staged, bytes := List.replicate 64 1 })], macs := [(8, { rxEn := true, rx := some { bytes := List.replicate 64 1, begun := true, fid := some 7 } })] }, 8, { bytes := List.replicate 64 1, begun := true, fid := some 7 }, 7, leBytes 4 (crc32 (List.replicate 64 1)), by decide +kernel⟩⟩

/-- States and operands that meet the hypotheses of FramesEnterAndPassThePipeline, clause by clause. -/
theorem witness_FramesEnterAndPassThePipeline :
    (∃ (s : State) (k : Group) (p : AnyPort) (f : Frame) (d : Nat), (k.val < 4) ∧ (s.pipeOf p.val = k.val) ∧ (s.halted k.val = false) ∧ ((s.stageToken k.val 0).isNone = true) ∧ (s.nextStaged p.val = some f) ∧ (f.parseReady = true) ∧ (f.pass = 1) ∧ (f.startNode = none) ∧ (f.inPort ≠ 64) ∧ (f.inPort ≠ 67) ∧ (s.critical = false) ∧ (s.region (5 + f.grp) ≠ 2) ∧ (s.region (10 + f.grp) ≠ 2) ∧ (s.region k.val = 0) ∧ (tagCount (s.tpid k.val s.verC) (f.bytes.take 256) = 0) ∧ (bit (s.prsCfg k.val f.inPort s.verC) 31 = false) ∧ ((∀ i : Fin 8, s.b (dbgA (0x100 + 16 * i.val)) 0 = false)) ∧ ((s.vlanHalf k.val (fld (s.prsCfg k.val f.inPort s.verC) 11 0) s.verC).map (fun h => h.1) = some d) ∧ (s.drain s.verC + 1 < 2 ^ 32)) ∧
    (∃ (s : State) (k : Group) (n : Fin 12) (f : Frame), (n.val < 11) ∧ (s.halted k.val = false) ∧ (s.regionDown k.val = false) ∧ ((s.stageToken k.val (n.val + 1)).isNone = true) ∧ (s.stageToken k.val n.val = some f) ∧ (s.frame f.id = f) ∧ (f.held = false) ∧ (s.stageProgs k.val n.val f.version = [])) ∧
    (∃ (s : State) (k : Group) (f : Frame), (s.halted k.val = false) ∧ (s.regionDown k.val = false) ∧ (s.stageToken k.val 11 = some f) ∧ (s.frame f.id = f) ∧ (f.held = false) ∧ (s.stageProgs k.val 11 f.version = []) ∧ (f.acts.frozen = false) ∧ (f.acts.ttl = none) ∧ (f.acts.rnatReq = false) ∧ (f.acts.learn = none) ∧ (f.direct = none) ∧ (f.etherType ≠ 0x88B5) ∧ (f.mdGet 8 = 1) ∧ (f.mdGet 9 < 64) ∧ (s.qOwner f.queueId = f.domain)) ∧
    (∃ (s : State) (k : Group) (e : Nat × Frame), (s.frames.find? (fun e => decide (e.2.pipe = k.val) && e.2.complete && !e.2.late.isEmpty) = some e) ∧ (e.2.place ≠ Place.gone) ∧ (e.2.verdict = 0) ∧ (e.2.domain = 0) ∧ ((e.2.late.find? (fun l => decide (e.2.wireLen - 4 < l.claim))).isSome = true) ∧ (s.b (prsA k.val 0x044) 31 = false)) :=
  ⟨⟨{ vlanUp with frames := [(5, { id := 5, src := 3, inPort := 3, complete := true, wireLen := 64, bytes := List.replicate 64 1, place := .staged })], nextId := 6 }, 0, 3, { id := 5, src := 3, inPort := 3, complete := true, wireLen := 64, bytes := List.replicate 64 1, place := .staged }, 2, by decide +kernel⟩,
   ⟨{ up with frames := [(5, { id := 5, pipe := 2, place := .stage 4 })], nextId := 6 }, 2, 4, { id := 5, pipe := 2, place := .stage 4 }, by decide +kernel⟩,
   ⟨{ up with frames := [(5, { id := 5, pipe := 2, domain := 0, md := [(8, 1), (9, 7)], place := .stage 11 })], nextId := 6 }, 2, { id := 5, pipe := 2, domain := 0, md := [(8, 1), (9, 7)], place := .stage 11 }, by decide +kernel⟩,
   ⟨{ up with frames := [(5, { id := 5, pipe := 2, complete := true, wireLen := 64, late := [{ claim := 90, kind := 5, node := 1, start := 14 }], place := .stage 3 })] }, 2, (5, { id := 5, pipe := 2, complete := true, wireLen := 64, late := [{ claim := 90, kind := 5, node := 1, start := 14 }], place := .stage 3 }), by decide +kernel⟩⟩

/-- States and operands that meet the hypotheses of TakeoverAndEgressEdit, clause by clause. -/
theorem witness_TakeoverAndEgressEdit :
    (∃ (s : State) (g : Fin 4), (s.accepts (pipA 4 0x080) (word (1 + 2 * g.val + s.f (pipA 4 0x080) 8 8 * 256)))) ∧
    (∃ (s : State) (p : Port), (s.covering = true) ∧ (s.coveredGroup = p.val / 16) ∧ (s.b (pipA 4 0x080) 16 = false) ∧ (s.spr.moved.contains p.val = false) ∧ (s.portInside (p.val / 16) p.val = false)) ∧
    (∃ (s : State) (p : Port) (q : Port), (s.covering = true) ∧ (s.coveredGroup = p.val / 16) ∧ (s.b (pipA 4 0x080) 16 = true) ∧ (s.spr.moved.contains p.val = true) ∧ (s.spr.moved.contains q.val = true) ∧ (p ≠ q) ∧ (s.portInside 4 p.val = false)) ∧
    (∃ (s : State), (s.accepts (pipA 4 0xC80) 0x00010001) ∧ (s.covering = true) ∧ (s.spr.moved.isEmpty = false)) ∧
    (∃ (s : State) (g : Group) (x : EFrame) (spec : CopySpec) (rest : List CopySpec), (s.regionDown (25 + g.val) = false) ∧ (s.eframes.find? (fun y => decide (y.e = g.val) && !y.todo.isEmpty && !(s.behind (s.frame y.fid) && !s.passed (tmgPage g.val))) = some x) ∧ (x.todo = spec :: rest) ∧ ((s.frame x.fid).id = x.fid) ∧ (s.copyOwner (s.frame x.fid) spec = (s.frame x.fid).domain) ∧ (spec.owner.getD (s.frame x.fid).domain = (s.frame x.fid).domain) ∧ (s.portDown spec.port = false) ∧ (spec.port < 64) ∧ (spec.vid = 0) ∧ (spec.edit = 0) ∧ ((s.frame x.fid).mdGet 0x12 = 0) ∧ (s.portProg g.val spec.port = 0) ∧ ((s.frame x.fid).acts.ttl = none) ∧ ((s.frame x.fid).acts.rnatReq = false) ∧ ((s.frame x.fid).rtag = false) ∧ (x.strip = false) ∧ (s.critical = false) ∧ (s.region (53 + g.val) ≠ 2)) ∧
    (∃ (s : State) (g : Group) (x : EFrame) (spec : CopySpec) (rest : List CopySpec) (v : Option Word), (s.regionDown (25 + g.val) = false) ∧ (s.eframes.find? (fun y => decide (y.e = g.val) && !y.todo.isEmpty && !(s.behind (s.frame y.fid) && !s.passed (tmgPage g.val))) = some x) ∧ (x.todo = spec :: rest) ∧ ((s.frame x.fid).id = x.fid) ∧ (s.copyOwner (s.frame x.fid) spec = (s.frame x.fid).domain) ∧ (spec.owner.getD (s.frame x.fid).domain = (s.frame x.fid).domain) ∧ (spec.port = 66) ∧ (v.all (fun w => decide (w.toNat = crc32c ((s.frame x.fid).bytes.take 256))) = true) ∧ ((s.frame x.fid).acts.ttl = none) ∧ ((s.frame x.fid).acts.rnatReq = false) ∧ ((s.frame x.fid).rtag = false) ∧ (x.strip = false)) ∧
    (∃ (s : State) (g : Group) (x : EFrame) (spec : CopySpec) (rest : List CopySpec) (v : Word), (s.regionDown (25 + g.val) = false) ∧ (s.eframes.find? (fun y => decide (y.e = g.val) && !y.todo.isEmpty && !(s.behind (s.frame y.fid) && !s.passed (tmgPage g.val))) = some x) ∧ (x.todo = spec :: rest) ∧ ((s.frame x.fid).id = x.fid) ∧ (s.copyOwner (s.frame x.fid) spec = (s.frame x.fid).domain) ∧ (spec.owner.getD (s.frame x.fid).domain = (s.frame x.fid).domain) ∧ (s.portDown spec.port = false) ∧ (v.toNat ≠ crc32c ((s.frame x.fid).bytes.take 256)) ∧ (s.b (staA 0x440) 31 = false)) :=
  ⟨⟨up, 2, by decide +kernel⟩,
   ⟨put (pipA 4 0x084) 0x10015, 34, by decide +kernel⟩,
   ⟨{ put (pipA 4 0x080) 0x10100 (put (pipA 4 0x084) 0x10015) with spr := { moved := [34, 35] } }, 34, 35, by decide +kernel⟩,
   ⟨{ put (pipA 4 0x084) 0x10005 with spr := { moved := [34, 35] } }, by decide +kernel⟩,
   ⟨{ put (macA 7 0x048) 1 with macs := [(7, { txEn := true })], frames := [(5, { id := 5, bytes := List.replicate 64 1 })], nextId := 6, eframes := [{ e := 0, fid := 5, k := 0, order := 1, todo := [{ port := 7, queue := some 448 }] }] }, 0, { e := 0, fid := 5, k := 0, order := 1, todo := [{ port := 7, queue := some 448 }] }, { port := 7, queue := some 448 }, [], by decide +kernel⟩,
   ⟨{ up with frames := [(5, { id := 5, bytes := List.replicate 64 1 })], nextId := 6, eframes := [{ e := 0, fid := 5, k := 0, order := 1, todo := [{ port := 66 }] }] }, 0, { e := 0, fid := 5, k := 0, order := 1, todo := [{ port := 66 }] }, { port := 66 }, [], some (word (crc32c (List.replicate 64 1))), by decide +kernel⟩,
   ⟨{ up with frames := [(5, { id := 5, bytes := List.replicate 64 1 })], nextId := 6, eframes := [{ e := 0, fid := 5, k := 0, order := 1, todo := [{ port := 66 }] }] }, 0, { e := 0, fid := 5, k := 0, order := 1, todo := [{ port := 66 }] }, { port := 66 }, [], 3, by decide +kernel⟩⟩

/-- States and operands that meet the hypotheses of AddressesAreLearnedAndAge, clause by clause. -/
theorem witness_AddressesAreLearnedAndAge :
    (∃ (s : State) (r : LearnReq) (rest : List LearnReq) (j : Nat), (s.regionDown 32 = false) ∧ (s.tbl.park = []) ∧ (s.tbl.fifo = r :: rest) ∧ (s.reqLocked r = false) ∧ (s.anyKey 0 r.owner r.key = none) ∧ ((candidates 0 (entKey 0 (learnedEnt r)).1 (entKey 0 (learnedEnt r)).2).find? (fun i => !entValid 0 (s.ent 0 0 i)) = some j)) ∧
    (∃ (s : State) (r : LearnReq) (rest : List LearnReq) (j : Nat), (s.regionDown 32 = false) ∧ (s.tbl.park = []) ∧ (s.tbl.fifo = r :: rest) ∧ (s.reqLocked r = false) ∧ (s.anyKey 0 r.owner r.key = some j) ∧ (bitsOf (leAt (s.ent 0 0 j) 9 1) 1 1 = 1)) ∧
    (∃ (s : State) (j : Nat), (s.b (lrnA 0x04C) 31 = true) ∧ (s.regionDown 32 = false) ∧ (s.listed 0 0 = [j]) ∧ (isLearned (s.ent 0 0 j) = true) ∧ (bitsOf (leAt (s.ent 0 0 j) 9 1) 1 1 = 0) ∧ ((∀ k : Fin 5, s.hit k.val j = false)) ∧ (s.f (lrnA 0x04C) 19 16 ≤ leAt (s.ent 0 0 j) 12 4 % 16 + 1)) ∧
    (∃ (s : State) (j : Nat), (s.regionDown 32 = false) ∧ (s.listed 0 0 = [j]) ∧ (entValid 0 (s.ent 0 0 j) = true) ∧ (leAt (s.ent 0 0 j) 9 1 < 16) ∧ (bitsOf (leAt (s.ent 0 0 j) 9 1) 2 2 = 1) ∧ (2 * s.f (lrnA 0x048) 7 0 ≤ (s.lrnTime % 1024 + 1024 - sfld (s.ent 0 0 j) 116 107) % 1024)) :=
  ⟨⟨{ up with tbl := { fifo := [⟨2, 1, 0x112233445566, 3⟩] } }, ⟨2, 1, 0x112233445566, 3⟩, [], (hashSlot 0 0 2 (1 * 2 ^ 48 + 0x112233445566)), by decide +kernel⟩,
   ⟨{ inTable (hashSlot 0 0 2 (1 * 2 ^ 48 + 0x112233445566) * 16) ([0x11, 0x22, 0x33, 0x44, 0x55, 0x66, 1, 0x20, 0xC0, 2]) with tbl := { (inTable (hashSlot 0 0 2 (1 * 2 ^ 48 + 0x112233445566) * 16) ([0x11, 0x22, 0x33, 0x44, 0x55, 0x66, 1, 0x20, 0xC0, 2])).tbl with fifo := [⟨2, 1, 0x112233445566, 3⟩] } }, ⟨2, 1, 0x112233445566, 3⟩, [], (hashSlot 0 0 2 (1 * 2 ^ 48 + 0x112233445566)), by decide +kernel⟩,
   ⟨put (lrnA 0x04C) 0x8001012C (inTable 0x50 [0x11, 0x22, 0x33, 0x44, 0x55, 0x66, 1, 0x20, 0xC0, 0]), 5, by decide +kernel⟩,
   ⟨{ inTable 0x50 [0x11, 0x22, 0x33, 0x44, 0x55, 0x66, 1, 0x20, 0xC0, 4] with clk := 500000000 }, 5, by decide +kernel⟩⟩

/-- States and operands that meet the hypotheses of TableCommandsRun, clause by clause. -/
theorem witness_TableCommandsRun :
    (∃ (s : State) (tg : Nat) (index : Nat) (copy : Nat) (buf : Nat), (s.dmaReady = true) ∧ (leAt (s.hostRd s.dmaCmdAddr 32) 0 2 = 1 + tg * 256) ∧ (leAt (s.hostRd s.dmaCmdAddr 32) 2 1 % 8 = copy) ∧ (leAt (s.hostRd s.dmaCmdAddr 32) 4 4 = index) ∧ (leAt (s.hostRd s.dmaCmdAddr 32) 8 2 = 1) ∧ (leAt (s.hostRd s.dmaCmdAddr 32) 16 8 = buf) ∧ (cmdRsv (s.hostRd s.dmaCmdAddr 32) = false) ∧ (s.cmdHead 1 tg copy index 1 = 0) ∧ (s.bankHeld tg index 1 = false) ∧ (entRsv tg (s.hostRd buf (entSize tg)) = false) ∧ (entEnc tg (s.hostRd buf (entSize tg)) = false) ∧ (s.entGuard tg index 0 (s.ent 0 tg index) (s.hostRd buf (entSize tg)) = 0) ∧ (s.clash tg index (s.hostRd buf (entSize tg)) = false)) ∧
    (∃ (s : State) (tg : Nat) (index : Nat) (copy : Nat) (buf : Nat) (e : List Byte), (s.dmaReady = true) ∧ (leAt (s.hostRd s.dmaCmdAddr 32) 0 2 = 2 + tg * 256) ∧ (leAt (s.hostRd s.dmaCmdAddr 32) 2 1 % 8 = copy) ∧ (leAt (s.hostRd s.dmaCmdAddr 32) 4 4 = index) ∧ (leAt (s.hostRd s.dmaCmdAddr 32) 8 2 = 1) ∧ (leAt (s.hostRd s.dmaCmdAddr 32) 16 8 = buf) ∧ (cmdRsv (s.hostRd s.dmaCmdAddr 32) = false) ∧ (s.cmdHead 2 tg copy index 1 = 0) ∧ (s.entRead tg index 0 copy = (0, e)) ∧ ((buf + entSize tg ≤ s.dmaCmdAddr + 24 ∨ s.dmaCmdAddr + 32 ≤ buf))) ∧
    (∃ (s : State) (tg : Nat) (index : Nat) (copy : Nat) (buf : Nat) (j : Nat), ((tg = 0 ∨ tg = 4 ∨ tg = 5)) ∧ (s.dmaReady = true) ∧ (leAt (s.hostRd s.dmaCmdAddr 32) 0 2 = 3 + tg * 256) ∧ (leAt (s.hostRd s.dmaCmdAddr 32) 2 1 % 8 = copy) ∧ (leAt (s.hostRd s.dmaCmdAddr 32) 4 4 = index) ∧ (leAt (s.hostRd s.dmaCmdAddr 32) 8 2 = 1) ∧ (leAt (s.hostRd s.dmaCmdAddr 32) 16 8 = buf) ∧ (cmdRsv (s.hostRd s.dmaCmdAddr 32) = false) ∧ (s.cmdHead 3 tg copy index 1 = 0) ∧ (s.bankHeld tg index 1 = false) ∧ (entRsv tg (s.hostRd buf (entSize tg)) = false) ∧ (entEnc tg (s.hostRd buf (entSize tg)) = false) ∧ ((entKey tg (s.hostRd buf (entSize tg))).1 = 0) ∧ (s.anyKey tg 0 (entKey tg (s.hostRd buf (entSize tg))).2 = none) ∧ (s.entGuard tg (2 ^ 20) 0 (List.replicate (entSize tg) 0) (s.hostRd buf (entSize tg)) = 0) ∧ ((candidates tg 0 (entKey tg (s.hostRd buf (entSize tg))).2).find? (fun i => !entValid tg (s.ent 0 tg i)) = some j)) ∧
    (∃ (s : State) (tg : Nat) (index : Nat) (copy : Nat) (buf : Nat) (j : Nat), (s.dmaReady = true) ∧ (leAt (s.hostRd s.dmaCmdAddr 32) 0 2 = 4 + tg * 256) ∧ (leAt (s.hostRd s.dmaCmdAddr 32) 2 1 % 8 = copy) ∧ (leAt (s.hostRd s.dmaCmdAddr 32) 4 4 = index) ∧ (leAt (s.hostRd s.dmaCmdAddr 32) 8 2 = 1) ∧ (leAt (s.hostRd s.dmaCmdAddr 32) 16 8 = buf) ∧ (cmdRsv (s.hostRd s.dmaCmdAddr 32) = false) ∧ (s.cmdHead 4 tg copy index 1 = 0) ∧ (s.bankHeld tg index 1 = false) ∧ (entRsv tg (s.hostRd buf (entSize tg)) = false) ∧ (entEnc tg (s.hostRd buf (entSize tg)) = false) ∧ ((tg = 0 ∨ tg = 4 ∨ tg = 5)) ∧ ((entKey tg (s.hostRd buf (entSize tg))).1 = 0) ∧ (s.entFind tg 0 (s.hostRd buf (entSize tg)) = some j) ∧ (s.entGuard tg j 0 (s.ent 0 tg j) (s.ent 0 tg j) = 0)) ∧
    (∃ (s : State) (tg : Nat) (index : Nat) (copy : Nat) (buf : Nat) (j : Nat), (s.dmaReady = true) ∧ (leAt (s.hostRd s.dmaCmdAddr 32) 0 2 = 5 + tg * 256) ∧ (leAt (s.hostRd s.dmaCmdAddr 32) 2 1 % 8 = copy) ∧ (leAt (s.hostRd s.dmaCmdAddr 32) 4 4 = index) ∧ (leAt (s.hostRd s.dmaCmdAddr 32) 8 2 = 1) ∧ (leAt (s.hostRd s.dmaCmdAddr 32) 16 8 = buf) ∧ (cmdRsv (s.hostRd s.dmaCmdAddr 32) = false) ∧ (s.cmdHead 5 tg copy index 1 = 0) ∧ (s.bankHeld tg index 1 = false) ∧ (entRsv tg (s.hostRd buf (entSize tg)) = false) ∧ (entEnc tg (s.hostRd buf (entSize tg)) = false) ∧ ((s.entFind tg 0 (s.hostRd buf (entSize tg)) = some j ∨ s.entHeld tg 0 (s.hostRd buf (entSize tg)) = [j]))) :=
  ⟨⟨cmdUp 1 4 9 1 rnat, 4, 9, 0, 0x1000, by decide +kernel⟩,
   ⟨cmdUp 2 4 9 1 [] (inTable (56 * 131072 + 9 * 16) rnat), 4, 9, 0, 0x1000, rnat, by decide +kernel⟩,
   ⟨cmdUp 3 4 0 1 rnat, 4, 0, 0, 0x1000, hashSlot 4 0 0 5, by decide +kernel⟩,
   ⟨cmdUp 4 4 0 1 rnat (inTable (56 * 131072 + hashSlot 4 0 0 5 * 16) rnat), 4, 0, 0, 0x1000, hashSlot 4 0 0 5, by decide +kernel⟩,
   ⟨cmdUp 5 4 0 1 rnat (inTable (56 * 131072 + hashSlot 4 0 0 5 * 16) rnat), 4, 0, 0, 0x1000, hashSlot 4 0 0 5, by decide +kernel⟩⟩

/-- States and operands that meet the hypotheses of TableLocksAndScrubbing, clause by clause. -/
theorem witness_TableLocksAndScrubbing :
    (∃ (s : State) (tg : Nat) (index : Nat) (count : Nat), (s.dmaReady = true) ∧ (leAt (s.hostRd s.dmaCmdAddr 32) 0 2 = 6 + tg * 256) ∧ (leAt (s.hostRd s.dmaCmdAddr 32) 4 4 = index) ∧ (leAt (s.hostRd s.dmaCmdAddr 32) 8 2 = count) ∧ (cmdRsv (s.hostRd s.dmaCmdAddr 32) = false) ∧ (s.cmdHead 6 tg (leAt (s.hostRd s.dmaCmdAddr 32) 2 1 % 8) index count = 0) ∧ (s.lockWaits tg index count = false) ∧ ((s.takeLock tg index count).1 = 0)) ∧
    (∃ (s : State) (tg : Nat) (index : Nat) (count : Nat) (i : Fin 8), (s.dmaReady = true) ∧ (leAt (s.hostRd s.dmaCmdAddr 32) 0 2 = 7 + tg * 256) ∧ (leAt (s.hostRd s.dmaCmdAddr 32) 4 4 = index) ∧ (leAt (s.hostRd s.dmaCmdAddr 32) 8 2 = count) ∧ (cmdRsv (s.hostRd s.dmaCmdAddr 32) = false) ∧ (s.cmdHead 7 tg (leAt (s.hostRd s.dmaCmdAddr 32) 2 1 % 8) index count = 0) ∧ ((List.range 8).find? (fun n => s.b (tblA (0x0C0 + 4 * n)) 31 && decide (s.f (tblA (0x0C0 + 4 * n)) 27 24 = tg) && decide (s.f (tblA (0x0E0 + 4 * n)) 15 0 = index) && decide (s.f (tblA (0x0C0 + 4 * n)) 12 0 = count)) = some i.val)) ∧
    (∃ (s : State) (i : Fin 8), (s.b (tblA (0x0C0 + 4 * i.val)) 31 = true)) ∧
    (∃ (s : State) (tg : Nat) (index : Nat) (count : Nat), (s.tbl.waiting = true) ∧ (s.dmaReady = true) ∧ (leAt (s.hostRd s.dmaCmdAddr 32) 0 2 = 6 + tg * 256) ∧ (leAt (s.hostRd s.dmaCmdAddr 32) 4 4 = index) ∧ (leAt (s.hostRd s.dmaCmdAddr 32) 8 2 = count) ∧ (cmdRsv (s.hostRd s.dmaCmdAddr 32) = false) ∧ (s.cmdHead 6 tg (leAt (s.hostRd s.dmaCmdAddr 32) 2 1 % 8) index count = 0) ∧ ((s.takeLock tg index count).1 = 0)) ∧
    (∃ (s : State), (s.accepts (tblA 0x04C) (word (s.f (tblA 0x04C) 11 8 * 256))) ∧ (s.dmaReady = false)) ∧
    (∃ (s : State) (tg : Nat) (index : Nat) (count : Nat) (copy : Nat), (s.accepts (tblA 0x04C) (word (s.f (tblA 0x04C) 11 8 * 256))) ∧ (s.dmaReady = true) ∧ (leAt (s.hostRd s.dmaCmdAddr 32) 0 2 = 2 + tg * 256) ∧ (leAt (s.hostRd s.dmaCmdAddr 32) 2 1 % 8 = copy) ∧ (leAt (s.hostRd s.dmaCmdAddr 32) 4 4 = index) ∧ (leAt (s.hostRd s.dmaCmdAddr 32) 8 2 = count) ∧ (cmdRsv (s.hostRd s.dmaCmdAddr 32) = false) ∧ (s.cmdHead 2 tg copy index count = 0)) ∧
    (∃ (s : State), (s.b (tblA 0x060) 0 = true) ∧ (s.b (tblA 0x060) 3 = false) ∧ (s.regionDown 31 = false) ∧ (s.tbl.unread = []) ∧ (0 < s.tbl.scrubWord) ∧ (s.tbl.scrubWord + 1 < 96 * 1024) ∧ ((∀ c : Fin 5, s.scrubWord c.val (s.tbl.scrubWord / 1024) (s.tbl.scrubWord % 1024) = s.scrubWord 0 (s.tbl.scrubWord / 1024) (s.tbl.scrubWord % 1024)))) ∧
    (∃ (s : State), (s.b (tblA 0x060) 0 = true) ∧ (s.b (tblA 0x060) 3 = false) ∧ (s.f (tblA 0x060) 2 1 = 1) ∧ (s.regionDown 31 = false) ∧ (s.tbl.unread = []) ∧ (0 < s.tbl.scrubWord) ∧ (s.tbl.scrubWord + 1 < 96 * 1024) ∧ ((∀ c : Fin 4, s.scrubWord c.val (s.tbl.scrubWord / 1024) (s.tbl.scrubWord % 1024) = s.scrubWord 0 (s.tbl.scrubWord / 1024) (s.tbl.scrubWord % 1024))) ∧ (s.scrubWord 4 (s.tbl.scrubWord / 1024) (s.tbl.scrubWord % 1024) ≠ s.scrubWord 0 (s.tbl.scrubWord / 1024) (s.tbl.scrubWord % 1024))) :=
  ⟨⟨cmdUp 6 0 0x100 8 [], 0, 0x100, 8, by decide +kernel⟩,
   ⟨cmdUp 7 0 0x100 8 [] (put (tblA 0x0C4) 0x80000008 (put (tblA 0x0E4) 0x100)), 0, 0x100, 8, 1, by decide +kernel⟩,
   ⟨put (tblA 0x0C4) 0x80000008 (put (tblA 0x0E4) 0x100), 1, by decide +kernel⟩,
   ⟨{ cmdUp 6 0 0x100 8 [] with tbl := { waiting := true, freed := [(0, 0x100, 1, 0)] } }, 0, 0x100, 8, by decide +kernel⟩,
   ⟨put (tblA 0x04C) 0x501, by decide +kernel⟩,
   ⟨cmdUp 2 4 9 3 [], 4, 9, 3, 0, by decide +kernel⟩,
   ⟨{ put (tblA 0x060) 0x1003 with tbl := { scrubWord := 1023 } }, by decide +kernel⟩,
   ⟨{ put (tblA 0x060) 0x1003 with tbl := { scrubWord := 1, banks := [(4 * 2 ^ 28 + 130, 1)] } }, by decide +kernel⟩⟩

/-- States and operands that meet the hypotheses of RuleVersionsCommit, clause by clause. -/
theorem witness_RuleVersionsCommit :
    (∃ (s : State), (s.accepts (topA 0x304) (word 1)) ∧ (s.b (topA 0x300) 24 = false) ∧ (s.b (topA 0x300) 12 = false)) ∧
    (∃ (s : State), (s.accepts (topA 0x304) (word 2)) ∧ (s.b (topA 0x300) 24 = false) ∧ (s.setOpenFor 0 = true) ∧ (s.f (topA 0x300) 10 8 < 4)) ∧
    (∃ (s : State), (s.accepts (topA 0x304) (word 3)) ∧ (s.b (topA 0x300) 24 = false) ∧ (s.setOpenFor 0 = true) ∧ (topA 0x300 ∉ s.ver.staged)) ∧
    (∃ (s : State) (d : Nat), (s.ver.pendingCommit = some d) ∧ (s.tbl.repairs = []) ∧ (s.tbl.dirty = false) ∧ ((∀ a ∈ s.ver.staged, a < 2 ^ 24))) ∧
    (∃ (s : State), (s.b (topA 0x300) 12 = true) ∧ (s.ver.late = false) ∧ (msec s.ver.limit < s.clk - s.ver.openAt)) :=
  ⟨⟨up, by decide +kernel⟩,
   ⟨put (topA 0x300) 0x1100, by decide +kernel⟩,
   ⟨{ put (prsA 0 0x040) 5 (put (topA 0x300) 0x1100) with ver := { staged := [prsA 0 0x040] } }, by decide +kernel⟩,
   ⟨{ put (prsA 0 0x040) 5 (put (topA 0x300) 0x1001100) with ver := { staged := [prsA 0 0x040], pendingCommit := some 0 } }, 0, by decide +kernel⟩,
   ⟨{ put (topA 0x300) 0x1100 with clk := msec 1001, ver := { limit := 1000 } }, by decide +kernel⟩⟩

/-- States and operands that meet the hypotheses of PolicingRunsItsChecks, clause by clause. -/
theorem witness_PolicingRunsItsChecks :
    (∃ (s : State) (k : Group) (f : Frame), (s.regionDown (10 + k.val) = false) ∧ (s.nextPolice k.val = some f) ∧ (s.frame f.id = f) ∧ (f.pol = none) ∧ (f.mdGet 0x0F = 0xFFFF) ∧ (f.mdGet 0x0E = 0xFFFF) ∧ (f.mdGet 8 = 1)) ∧
    (∃ (s : State) (k : Group) (f : Frame), (s.regionDown (10 + k.val) = false) ∧ (s.nextPolice k.val = some f) ∧ (s.frame f.id = f) ∧ (f.pol = none) ∧ (s.polWaits k.val f (s.polView k.val f) = true)) ∧
    (∃ (s : State) (k : Group) (f : Frame) (h : Nat), (s.regionDown (10 + k.val) = false) ∧ (s.nextPolice k.val = some f) ∧ (s.frame f.id = f) ∧ (f.pol = none) ∧ (s.polWaits k.val f (s.polView k.val f) = false) ∧ (f.mdGet 0x0F = h) ∧ (h < 4096) ∧ (f.sentN = 0) ∧ (s.winLE (filterA k.val h) 1 % 2 = 1) ∧ (bitsOf (leAt (s.filterRd k.val h) 0 1) 2 2 = 1) ∧ (s.polFenced k.val (s.polUse k.val f) f.domain = false)) ∧
    (∃ (s : State) (k : Group) (m : Fin 8192), (m.val < meterCount k.val) ∧ (s.meterStaged k.val m.val = false) ∧ (meterEn (s.meterCfg k.val m.val) = true)) ∧
    (∃ (s : State) (k : Group) (m : Fin 8192), (m.val < meterCount k.val) ∧ (s.meterStaged k.val m.val = false) ∧ (meterEn (s.meterCfg k.val m.val) = true) ∧ (s.spr.rows = [])) ∧
    (∃ (s : State) (k : Group) (m : Fin 8192), (m.val < meterCount k.val) ∧ (s.meterStaged k.val m.val = true) ∧ (bitsOf (leAt (s.winRd (meterA k.val m.val) 24) 18 1) 5 5 = 1)) ∧
    (∃ (s : State) (k : Group) (j : Fin 256), (s.tsuDown = false) ∧ (schedValid (s.sched k.val j.val) = true)) ∧
    (∃ (s : State) (k : Group) (j : Fin 256), (s.tsuDown = false) ∧ (schedValid (s.sched k.val j.val) = true) ∧ (schedValid (s.winRd (schedA k.val j.val) 128) = true)) :=
  ⟨⟨{ up with frames := [(5, { id := 5, place := .police, complete := true, md := [(8, 1), (9, 7), (14, 65535), (15, 65535)] })], nextId := 6 }, 0, { id := 5, place := .police, complete := true, md := [(8, 1), (9, 7), (14, 65535), (15, 65535)] }, by decide +kernel⟩,
   ⟨{ (State.winPut up (filterA 0 3) 4 0x00400001) with frames := [(5, { id := 5, place := .police, md := [(8, 1), (9, 7), (14, 65535), (15, 3)] })], nextId := 6 }, 0, { id := 5, place := .police, md := [(8, 1), (9, 7), (14, 65535), (15, 3)] }, by decide +kernel⟩,
   ⟨{ (State.winPut up (filterA 0 3) 1 5) with frames := [(5, { id := 5, place := .police, complete := true, md := [(8, 1), (9, 7), (14, 65535), (15, 3)] })], nextId := 6 }, 0, { id := 5, place := .police, complete := true, md := [(8, 1), (9, 7), (14, 65535), (15, 3)] }, 3, by decide +kernel⟩,
   ⟨{ (State.winPut up (meterA 0 3 + 24) 4 5) with pol := { meters := [(3, [10, 0, 0, 0, 20, 0, 0, 0, 1, 0, 0, 0, 2, 0, 0, 0, 0, 0, 1, 0, 0, 0, 0, 0])] } }, 0, 3, by decide +kernel⟩,
   ⟨{ (State.winPut up (meterA 0 3 + 24) 4 5) with pol := { meters := [(3, [10, 0, 0, 0, 20, 0, 0, 0, 1, 0, 0, 0, 2, 0, 0, 0, 0, 0, 1, 0, 0, 0, 0, 0])] } }, 0, 3, by decide +kernel⟩,
   ⟨State.winPut (State.winPut (State.winPut up (meterA 0 3 + 8) 4 7) (meterA 0 3 + 18) 1 0x21) (meterA 0 3 + 19) 1 0x82, 0, 3, by decide +kernel⟩,
   ⟨{ up with pol := { scheds := [(3, [0, 0, 0, 0, 0, 0, 0, 0, 0, 0, 0x80, 0x02, 0, 1, 0, 0, 100, 0, 0, 0, 1, 0, 0, 0, 100, 0, 0, 0, 0, 0, 0, 0])] }, tsu := { tb := [(0, { ns := 120 })] } }, 0, 3, by decide +kernel⟩,
   ⟨{ (State.winPut up (schedA 0 3 + 10) 1 0x80) with pol := { scheds := [(3, [0, 0, 0, 0, 0, 0, 0, 0, 0, 0, 0x80])] } }, 0, 3, by decide +kernel⟩⟩

/-- States and operands that meet the hypotheses of CellsCrossTheFabric, clause by clause. -/
theorem witness_CellsCrossTheFabric :
    (∃ (s : State) (k : Group) (q : Nat) (j : Nat) (e : Nat) (f : Frame) (cls : Bool), (s.regionDown (5 + k.val) = false) ∧ ((∀ x : Fin 5, s.pacerOk k.val x.val = true)) ∧ (((List.range 6).map (fun i => (s.glf.rr.at 0 k.val + 1 + i) % 6)).find? (s.sendReady k.val) = some q) ∧ (s.resendOf k.val q = none) ∧ (s.sendHead k.val q = some f) ∧ (s.frame f.id = f) ∧ (s.spraySlot k.val q (decide (f.sentN = 0)) = some j) ∧ (maskGroups f.groups = [e]) ∧ (s.liveGroups f = [e]) ∧ (s.creditFor k.val e j f.prot = some cls)) ∧
    (∃ (s : State) (k : Group) (e : Nat) (seq : Nat) (c : SentCell) (cs : List SentCell) (rest : List (Nat × Nat × Nat)), (takeFirst (fun a => decide (a.1 = k.val)) s.glf.acks = some ((k.val, e, seq), rest)) ∧ (s.glf.unacked = c :: cs) ∧ (c.k = k.val) ∧ (c.wait = [(e, seq)]) ∧ (({ c with wait := [] } : SentCell) ∉ cs)) ∧
    (∃ (s : State) (k : Group) (e : Nat) (seq : Nat) (rest : List (Nat × Nat × Nat)), (takeFirst (fun a => decide (a.1 = k.val)) s.glf.acks = some ((k.val, e, seq), rest)) ∧ (s.glf.unacked.find? (fun c => decide (c.k = k.val) && c.wait.contains (e, seq)) = none)) ∧
    (∃ (s : State) (k : Group) (e : Group) (seq : BitVec 20) (j : Nat) (c : SentCell) (cs : List SentCell), (s.glf.unacked = c :: cs) ∧ (c.k = k.val) ∧ (c.wait = [(e.val, seq.toNat)]) ∧ (c.resends = 0) ∧ (s.slotFrom (c.slot + 1) = some j) ∧ ((s.glf.errs.filter (fun x => decide (s.clk < x.2 + usec 100) && decide (x.1 = c.plane))).length + 1 < s.f (glfA 0x05C) 23 16)) ∧
    (∃ (s : State), (s.b (glfA 0x044) 31 = false) ∧ (s.accepts (glfA 0x044) (setBit (s.rd (glfA 0x044)) 31 true))) :=
  ⟨⟨State.wr { put (glfA 0x044) 0x80000000 with frames := [(5, { id := 5, place := .queued 0, complete := true, groups := 1, bytes := List.replicate 300 1 })], glf := { queues := [(0, [5])], free := [(0, 4)] } } (glfA 0x048) 0x009A, 0, 0, 0, 0, { id := 5, place := .queued 0, complete := true, groups := 1, bytes := List.replicate 300 1 }, false, by decide +kernel⟩,
   ⟨{ put (glfA 0x068) 0x00030003 with glf := { unacked := [{ k := 0, fid := 5, idx := 0, first := true, last := true, q := 0, slot := 1, plane := 1, wait := [(0, 9)] }], acks := [(0, 0, 9)] }, frames := [(5, { id := 5, stg := 2, place := .sending 0 })] }, 0, 0, 9, { k := 0, fid := 5, idx := 0, first := true, last := true, q := 0, slot := 1, plane := 1, wait := [(0, 9)] }, [], [], by decide +kernel⟩,
   ⟨{ up with glf := { acks := [(0, 0, 9), (1, 0, 3)] } }, 0, 0, 9, [(1, 0, 3)], by decide +kernel⟩,
   ⟨{ State.wr (put (glfA 0x048) 0x00A9) (glfA 0x05C) 0x00080000 with glf := { unacked := [{ k := 0, fid := 5, idx := 0, first := true, last := true, q := 0, slot := 0, plane := 1, wait := [(0, 9)] }] } }, 0, 0, 9, 1, { k := 0, fid := 5, idx := 0, first := true, last := true, q := 0, slot := 0, plane := 1, wait := [(0, 9)] }, [], by decide +kernel⟩,
   ⟨put (glfA 0x058) 0x00100064, by decide +kernel⟩⟩

/-- States and operands that meet the hypotheses of PlanesFailAndAreSwapped, clause by clause. -/
theorem witness_PlanesFailAndAreSwapped :
    (∃ (s : State) (p : Group) (j : Fin 4), (s.accepts (glfA 0x050) (word (16 + p.val))) ∧ ((List.range 4).find? (fun j => s.slotValid j && decide (s.slotPlane j = p.val)) = some j.val)) ∧
    (∃ (s : State) (p : Group) (j : Fin 4), (s.planeState p.val = 0) ∧ ((List.range 4).find? (fun j => s.slotValid j && decide (s.slotPlane j = p.val)) = some j.val) ∧ (s.regionExists (15 + p.val) = true)) ∧
    (∃ (s : State) (p : Group), ((s.planeState p.val = 1 ∨ s.planeState p.val = 3)) ∧ (s.regionExists (15 + p.val) = true)) ∧
    (∃ (s : State) (p : Group), ((s.planeState p.val = 2 ∨ s.planeState p.val = 4))) :=
  ⟨⟨State.wr (State.wr (put (glfA 0x048) 0xBA98) (glfA 0x04C) 0x10000) (sprA 0x048) 0xAAAA, 2, 2, by decide +kernel⟩,
   ⟨State.wr (State.wr (put (glfA 0x048) 0xBA98) (glfA 0x04C) 0x10000) (sprA 0x048) 0xAAAA, 2, 2, by decide +kernel⟩,
   ⟨State.wr (State.wr (put (glfA 0x048) 0xBA98) (glfA 0x04C) 0x10000) (sprA 0x048) 0xAAAA, 4, by decide +kernel⟩,
   ⟨State.wr (put (glfA 0x048) 0xBA98) (glfA 0x04C) 0x20000, 4, by decide +kernel⟩⟩

/-- States and operands that meet the hypotheses of PlanesAreTestedAndSwapped, clause by clause. -/
theorem witness_PlanesAreTestedAndSwapped :
    (∃ (s : State) (p : Group), (s.accepts (glfA 0x050) (word (32 + p.val)))) ∧
    (∃ (s : State) (p : Group) (j : Fin 4), (s.accepts (glfA 0x050) (word (48 + p.val))) ∧ ((List.range 4).find? (fun j => !s.slotValid j) = some j.val)) ∧
    (∃ (s : State) (p : Group) (j : Fin 4), (s.glf.tests.find? (fun x => decide (x.1 = p.val)) = some (p.val, some j.val)) ∧ (s.regionDown (15 + p.val) = false)) ∧
    (∃ (s : State) (p : Group) (sl : Option Nat), (s.glf.tests.find? (fun x => decide (x.1 = p.val)) = some (p.val, sl)) ∧ (s.planeState p.val = 3)) ∧
    (∃ (s : State) (p : Group) (r : Group) (j : Fin 4), (s.glf.tests = [(p.val, some j.val)]) ∧ (s.planeState p.val = 3) ∧ (s.sparePlane = some r.val)) ∧
    (∃ (s : State) (p : Group), (s.glf.tests = [(p.val, none)]) ∧ (s.glf.waiting = []) ∧ (s.regionDown (15 + p.val) = false)) ∧
    (∃ (s : State) (p : Group), (s.glf.tests.find? (fun x => decide (x.1 = p.val)) = none)) :=
  ⟨⟨State.wr (put (glfA 0x048) 0xBA98) (glfA 0x04C) 0x10000, 4, by decide +kernel⟩,
   ⟨State.wr (put (glfA 0x048) 0xB098) (glfA 0x04C) 0x10000, 4, 2, by decide +kernel⟩,
   ⟨{ State.wr (put (glfA 0x048) 0xB098) (glfA 0x04C) 0x30000 with glf := { tests := [(4, some 2)] } }, 4, 2, by decide +kernel⟩,
   ⟨{ State.wr (put (glfA 0x048) 0xB098) (glfA 0x04C) 0x30000 with glf := { tests := [(4, some 2)] } }, 4, some 2, by decide +kernel⟩,
   ⟨{ State.wr (put (glfA 0x048) 0xB098) (glfA 0x04C) 0x31000 with glf := { tests := [(4, some 2)] } }, 4, 3, 2, by decide +kernel⟩,
   ⟨{ State.wr (put (glfA 0x048) 0xBA98) (glfA 0x04C) 0x30000 with glf := { tests := [(4, none)] } }, 4, by decide +kernel⟩,
   ⟨up, 4, by decide +kernel⟩⟩

/-- States and operands that meet the hypotheses of CellsAreResequenced, clause by clause. -/
theorem witness_CellsAreResequenced :
    (∃ (s : State) (e : Group) (k : Group) (p : Group) (c : Flight) (rest : List Flight), (s.regionDown (20 + e.val) = false) ∧ (takeFirst (fun x => decide (x.e = e.val ∧ x.k = k.val ∧ x.plane = p.val)) s.glf.flights = some (c, rest)) ∧ ((c.seq + 2 ^ 20 - s.rsqNext e.val k.val) % 2 ^ 20 < 2048) ∧ (s.isHeld e.val k.val c.seq = false) ∧ ((s.rsq.held.filter (fun x => decide (x.e = e.val))).length < 4096)) ∧
    (∃ (s : State) (e : Group) (k : Group) (p : Group) (c : Flight) (rest : List Flight), (s.regionDown (20 + e.val) = false) ∧ (takeFirst (fun x => decide (x.e = e.val ∧ x.k = k.val ∧ x.plane = p.val)) s.glf.flights = some (c, rest)) ∧ (2 ^ 19 ≤ (c.seq + 2 ^ 20 - s.rsqNext e.val k.val) % 2 ^ 20)) ∧
    (∃ (s : State) (e : Group) (k : Group) (p : Group) (c : Flight) (rest : List Flight), (s.regionDown (20 + e.val) = false) ∧ (takeFirst (fun x => decide (x.e = e.val ∧ x.k = k.val ∧ x.plane = p.val)) s.glf.flights = some (c, rest)) ∧ ((s.glf.errs.filter (fun x => decide (s.clk < x.2 + usec 100) && decide (x.1 = p.val))).length + 1 < s.f (glfA 0x05C) 23 16)) ∧
    (∃ (s : State) (e : Group) (k : Nat) (c : HeldCell) (f : Frame), (s.regionDown (20 + e.val) = false) ∧ (s.regionDown (25 + e.val) = false) ∧ (((List.range 5).map (fun i => (s.rsq.rr.at 0 e.val + 1 + i) % 5)).find? (fun k => (s.readyCell e.val k).isSome) = some k) ∧ (s.readyCell e.val k = some c) ∧ (c.first = true) ∧ (s.frame c.fid = f) ∧ (s.rsq.dead.contains (e.val, c.fid) = false) ∧ (f.verdict = 0) ∧ (f.mdGet 0x0F = 0xFFFF) ∧ (f.mdGet 8 = 1) ∧ (f.mdGet 9 ≠ 64)) ∧
    (∃ (s : State) (e : Group) (k : Group) (n : Nat) (m : Nat) (c : HeldCell) (c0 : SentCell), (s.regionDown (20 + e.val) = false) ∧ (s.rsqNext e.val k.val = n) ∧ (s.gapNumbers e.val k.val = [n, m]) ∧ (n ≠ m) ∧ (s.heldOf e.val k.val = [c]) ∧ (c.seq = m) ∧ (c.last = false) ∧ (s.sentCell k.val e.val n = some c0) ∧ (c0.fid = c.fid) ∧ (c0.last = false) ∧ (s.rsq.dead.contains (e.val, c.fid) = false) ∧ ((s.frame c.fid).verdict = 0) ∧ (s.eframe e.val c.fid = none) ∧ (s.copies.filter (fun x => decide (x.2.fid = c.fid ∧ x.2.e = e.val)) = []) ∧ (s.b (rsqA e.val 0x048) 31 = false)) :=
  ⟨⟨{ up with glf := { flights := [{ k := 0, e := 1, plane := 2, seq := 3, fid := 5, idx := 0, first := true, last := false }] } }, 1, 0, 2, { k := 0, e := 1, plane := 2, seq := 3, fid := 5, idx := 0, first := true, last := false }, [], by decide +kernel⟩,
   ⟨{ State.setF up (rsqA 1 0x050) 19 0 4 with glf := { flights := [{ k := 0, e := 1, plane := 2, seq := 3, fid := 5, idx := 0, first := true, last := false }] } }, 1, 0, 2, { k := 0, e := 1, plane := 2, seq := 3, fid := 5, idx := 0, first := true, last := false }, [], by decide +kernel⟩,
   ⟨{ put (glfA 0x05C) 0x00080000 with glf := { flights := [{ k := 0, e := 1, plane := 2, seq := 3, fid := 5, idx := 0, first := true, last := false }] } }, 1, 0, 2, { k := 0, e := 1, plane := 2, seq := 3, fid := 5, idx := 0, first := true, last := false }, [], by decide +kernel⟩,
   ⟨{ up with rsq := { held := [{ e := 0, k := 1, seq := 0, fid := 5, idx := 0, first := true, last := false }] }, frames := [(5, { id := 5, md := [(8, 1), (9, 7), (15, 65535)] })], nextId := 6 }, 0, 1, { e := 0, k := 1, seq := 0, fid := 5, idx := 0, first := true, last := false }, { id := 5, md := [(8, 1), (9, 7), (15, 65535)] }, by decide +kernel⟩,
   ⟨{ up with rsq := { held := [{ e := 0, k := 1, seq := 1, fid := 5, idx := 1, first := false, last := false }] }, glf := { unacked := [{ k := 1, fid := 5, idx := 0, first := true, last := false, q := 0, slot := 0, plane := 0, wait := [(0, 0)] }] }, frames := [(5, { id := 5, md := [(8, 1), (9, 7), (15, 65535)] })], nextId := 6 }, 0, 1, 0, 1, { e := 0, k := 1, seq := 1, fid := 5, idx := 1, first := false, last := false }, { k := 1, fid := 5, idx := 0, first := true, last := false, q := 0, slot := 0, plane := 0, wait := [(0, 0)] }, by decide +kernel⟩⟩

/-- States and operands that meet the hypotheses of RecoveryEntriesAreReached, clause by clause. -/
theorem witness_RecoveryEntriesAreReached :
    (∃ (s : State) (e : Group) (i : Fin 1024), (leAt (s.rsqEnt e.val 1 i.val) 0 1 % 2 = 1) ∧ (leAt (s.rsqEnt e.val 2 i.val) 2 1 % 2 = 0)) ∧
    (∃ (s : State) (e : Group) (tg : Fin 4) (i : BitVec 15), (s.accepts (rsqA e.val 0x0A0) (word (2 ^ 24 + tg.val * 65536 + i.toNat)))) ∧
    (∃ (s : State) (e : Group) (tg : Fin 4) (i : BitVec 15), (s.accepts (rsqA e.val 0x0A0) (word (2 ^ 24 + 2 ^ 20 + tg.val * 65536 + i.toNat)))) ∧
    (∃ (s : State) (e : Group), (s.b (rsqA e.val 0x0A0) 31 = true) ∧ (s.b (rsqA e.val 0x0A0) 20 = false) ∧ (s.rsq.indBusy.at 0 e.val = 0) ∧ (s.f (rsqA e.val 0x0A0) 14 0 < rsqCount (s.f (rsqA e.val 0x0A0) 17 16)) ∧ (s.sec.views = [])) ∧
    (∃ (s : State) (e : Group), (s.b (rsqA e.val 0x0A0) 31 = true) ∧ (s.b (rsqA e.val 0x0A0) 20 = true) ∧ (s.f (rsqA e.val 0x0A0) 17 16 = 0) ∧ (s.f (rsqA e.val 0x0A0) 14 0 < 20480) ∧ (rsqBad 0 (s.f (rsqA e.val 0x0A0) 14 0) (s.rsqData e.val) = false) ∧ (s.rsqFenced e.val 0 (s.f (rsqA e.val 0x0A0) 14 0) (s.rsq.indBusy.at 0 e.val) (s.rsqData e.val) = false)) :=
  ⟨⟨{ up with rsq := { ind := writeBytes [] (rsqEntA 0 1 3) [1] } }, 0, 3, by decide +kernel⟩,
   ⟨up, 0, 1, 3, by decide +kernel⟩,
   ⟨up, 0, 1, 3, by decide +kernel⟩,
   ⟨{ put (rsqA 0 0x0A0) 0x80010003 with rsq := { ind := writeBytes [] (rsqEntA 0 1 3) [1, 2, 3] } }, 0, by decide +kernel⟩,
   ⟨State.wr (put (rsqA 0 0x0A0) 0x80100003) (rsqA 0 0x0C0) 0x8005, 0, by decide +kernel⟩⟩

/-- States and operands that meet the hypotheses of BuffersAreAdmittedAndFilled, clause by clause. -/
theorem witness_BuffersAreAdmittedAndFilled :
    (∃ (s : State), (s.b (bpmA 0x044) 0 = false) ∧ (s.accepts (bpmA 0x044) (s.rd (bpmA 0x044) ||| 1))) ∧
    (∃ (s : State), (s.b (bpmA 0x044) 0 = true) ∧ (s.b (bpmA 0x040) 0 = false)) ∧
    (∃ (s : State) (p : Fin 7) (x : Pool) (n : Nat), (s.pool p.val = x) ∧ (x.cache < 1024) ∧ (min 1024 (s.poolFree p.val - x.cache) = n) ∧ ((∀ i ∈ ((x.back ++ (List.range (x.cache + n - x.back.length)).map (fun i => x.fresh + i)).drop x.cache).take n, s.cellOut (handle p.val i) = false))) ∧
    (∃ (s : State) (e : Group) (x : EFrame) (c : Copy) (q : Nat) (n : Nat) (i : Nat) (rest : List Nat), (s.critical = false) ∧ (s.oldestE e.val (fun y => y.todo.isEmpty && !y.ready.isEmpty && !y.admitted) = some x) ∧ (s.eframe x.e x.fid = some x) ∧ (x.last = false) ∧ (x.ready = [c.id]) ∧ (s.copy c.id = c) ∧ (c.queue = some q) ∧ (s.qFlag q 0 = true) ∧ (s.chargeOf (s.frame x.fid) = n) ∧ (0 < n) ∧ (s.qCells q + n ≤ s.qLE q 12 4 % 2 ^ 26) ∧ (s.rd (bpmA (0x200 + 4 * (16 * x.k + (s.frame x.fid).domain))) = 0xFFFF0000) ∧ (s.placeCells n (s.frame x.fid).prot x.e = some (x.e, false)) ∧ (x.e < 5) ∧ (x.e = e.val) ∧ ((s.frame x.fid).fcKey = none) ∧ ((s.pool x.e).back = i :: rest) ∧ (0 < (s.pool x.e).cache) ∧ (i < 2 ^ 26) ∧ (0 < c.head.length)) ∧
    (∃ (s : State) (e : Group) (x : EFrame) (c : Copy) (g : Nat) (i : Nat) (rest : List Nat), (s.oldestE e.val (fun y => y.admitted && decide (y.alloc - y.copies + 1 < y.got)) = some x) ∧ (s.eframe x.e x.fid = some x) ∧ (x.alloc = x.copies) ∧ (x.alloc = 1) ∧ (x.last = false) ∧ (x.lastH = none) ∧ (x.ready = [c.id]) ∧ (s.copy c.id = c) ∧ (c.headH = some g) ∧ ((s.cell g).twin = none) ∧ (g < 5 * 2 ^ 29) ∧ (x.dual = false) ∧ (x.pool = e.val) ∧ (x.resv = 0) ∧ (x.e = e.val) ∧ ((s.pool e.val).back = i :: rest) ∧ (i < 2 ^ 26) ∧ (g ≠ handle e.val i) ∧ (256 < (s.frame x.fid).bytes.length)) :=
  ⟨⟨State.wr (State.wr (put (bpmA 0x04C) 2) (bpmA 0x080) 100) (bpmA 0x050) 0x2000, by decide +kernel⟩,
   ⟨State.wr (put (bpmA 0x044) 1) (bpmA 0x094) 7680, by decide +kernel⟩,
   ⟨{ put (bpmA 0x0A0) 3 with bpm := { pools := [(0, { fresh := 2, back := [7] })] } }, 0, { fresh := 2, back := [7] }, 3, by decide +kernel⟩,
   ⟨{ State.wr (State.winPut (State.winPut up (qA 448) 1 1) (qA 448 + 12) 4 9) (bpmA 0x0A0) 600 with frames := [(5, { id := 5, src := 64, inPort := 64, complete := true, lenKnown := true, wireLen := 300, bytes := List.replicate 300 1 })], nextId := 8, copies := [(6, { id := 6, fid := 5, port := 7, queue := some 448, head := List.replicate 256 1 })], eframes := [{ e := 0, fid := 5, k := 0, order := 1, got := 1, ready := [6] }], bpm := { pools := [(0, { back := [9], cache := 1 })] } }, 0, { e := 0, fid := 5, k := 0, order := 1, got := 1, ready := [6] }, { id := 6, fid := 5, port := 7, queue := some 448, head := List.replicate 256 1 }, 448, 2, 9, [], by decide +kernel⟩,
   ⟨{ put (bpmA 0x0A0) 600 with frames := [(5, { id := 5, src := 64, inPort := 64, complete := true, lenKnown := true, wireLen := 600, bytes := List.replicate 600 1 })], nextId := 8, copies := [(6, { id := 6, fid := 5, port := 7, queue := some 448, headH := some 3, head := List.replicate 256 1 })], eframes := [{ e := 0, fid := 5, k := 0, order := 1, got := 2, ready := [6], admitted := true, n := 3, need := 3, pool := 0, alloc := 1 }], bpm := { pools := [(0, { back := [9] })], cells := [(3, { alloc := true, head := true, len := 256 })] } }, 0, { e := 0, fid := 5, k := 0, order := 1, got := 2, ready := [6], admitted := true, n := 3, need := 3, pool := 0, alloc := 1 }, { id := 6, fid := 5, port := 7, queue := some 448, headH := some 3, head := List.replicate 256 1 }, 3, 9, [], by decide +kernel⟩⟩

/-- States and operands that meet the hypotheses of CellsAreReleasedAndSwept, clause by clause. -/
theorem witness_CellsAreReleasedAndSwept :
    (∃ (s : State) (h : Nat) (gen : Nat) (e : Nat × Copy), (s.copies.find? (fun e => decide (e.2.headH = some h)) = some e) ∧ ((s.cell h).alloc = true) ∧ ((s.cell h).gen = gen) ∧ (e.2.headGen = gen) ∧ (s.copy e.2.id = e.2) ∧ (e.2.id ≠ 0) ∧ (e.2.tailH = none) ∧ (s.inTx e.2.id = false) ∧ (e.2.done = true) ∧ (h < 5 * 2 ^ 29) ∧ ((s.cell h).twin = none) ∧ (s.eframe e.2.e e.2.fid = none)) ∧
    (∃ (s : State) (h : Nat) (gen : Nat), ((s.cell h).gen ≠ gen) ∧ (s.b (bpmA 0x104) 31 = false)) ∧
    (∃ (s : State), (s.accepts (bpmA 0x044) (s.rd (bpmA 0x044) ||| word 256)) ∧ (s.b (bpmA 0x040) 1 = false)) ∧
    (∃ (s : State) (h : Nat), (s.b (bpmA 0x040) 1 = true) ∧ (s.b (bpmA 0x040) 2 = false) ∧ (s.orphans = [h]) ∧ (h < 5 * 2 ^ 29) ∧ ((s.cell h).twin = none) ∧ ((s.cell h).fcKey = none)) :=
  ⟨⟨{ State.wr (put (bpmA 0x080) 4) (bpmA 0x0C0) 4 with copies := [(6, { id := 6, fid := 5, port := 64, ring := 3, headH := some 3, headGen := 2, done := true })], bpm := { cells := [(3, { alloc := true, gen := 2, head := true, len := 60 })] } }, 3, 2, (6, { id := 6, fid := 5, port := 64, ring := 3, headH := some 3, headGen := 2, done := true }), by decide +kernel⟩,
   ⟨{ up with bpm := { cells := [(3, { alloc := true, gen := 2, head := true, len := 60 })] } }, 3, 5, by decide +kernel⟩,
   ⟨up, by decide +kernel⟩,
   ⟨{ State.wr (State.wr (put (bpmA 0x080) 4) (bpmA 0x0C0) 4) (bpmA 0x040) 2 with clk := 9, bpm := { cells := [(3, { alloc := true, gen := 2, head := true, len := 60 })] } }, 3, by decide +kernel⟩⟩

/-- States and operands that meet the hypotheses of HbmStacksServe, clause by clause. -/
theorem witness_HbmStacksServe :
    (∃ (s : State) (k : Fin 2), (s.accepts (hbcA k.val 0x044) 1)) ∧
    (∃ (s : State) (k : Fin 2), (s.b (hbcA k.val 0x044) 0 = true)) ∧
    (∃ (s : State) (u : Fin 64), (s.slotLive u.val = true)) ∧
    (∃ (s : State) (u : Fin 64) (r : HbmReq) (rest : List HbmReq) (bad : Nat), (s.slotLive u.val = true) ∧ (s.nextRequest u.val = some (r, rest)) ∧ ((r.write = true ∨ bad = 0))) ∧
    (∃ (s : State) (u : Fin 64) (r : HbmReq) (rest : List HbmReq), (s.slotLive u.val = true) ∧ (s.nextRequest u.val = some (r, rest)) ∧ (r.write = false)) ∧
    (∃ (s : State) (u : Fin 64) (r : HbmReq) (rest : List HbmReq) (bad : Nat), (s.slotLive u.val = true) ∧ (s.nextRequest u.val = some (r, rest)) ∧ (r.write = false) ∧ (2 ≤ bad) ∧ (s.b (hbcA (u.val / 32) (0x180 + 4 * (u.val % 32))) 31 = false)) :=
  ⟨⟨up, 1, by decide +kernel⟩,
   ⟨put (hbcA 1 0x044) 1, 1, by decide +kernel⟩,
   ⟨{ put (hbcA 0 0x044) 1 with bpm := { openRow := [(3 * 64 + 4, 9)] } }, 3, by decide +kernel⟩,
   ⟨{ put (hbcA 0 0x044) 1 with bpm := { hbmQ := [(3, [{ addr := 0x300, write := true, old := [], at_ := 0 }])] } }, 3, { addr := 0x300, write := true, old := [], at_ := 0 }, [], 2, by decide +kernel⟩,
   ⟨{ State.wr (put (hbcA 0 0x044) 1) (hbcA 0 0x064) 9 with bpm := { hbmQ := [(3, [{ addr := 0x300, write := false, old := [], at_ := 0 }])] } }, 3, { addr := 0x300, write := false, old := [], at_ := 0 }, [], by decide +kernel⟩,
   ⟨{ State.wr (put (hbcA 0 0x044) 1) (hbcA 0 0x064) 9 with bpm := { hbmQ := [(3, [{ addr := 0x300, write := false, old := [], at_ := 0 }])] } }, 3, { addr := 0x300, write := false, old := [], at_ := 0 }, [], 2, by decide +kernel⟩⟩

/-- States and operands that meet the hypotheses of HbmSlotsFreezeAndReturn, clause by clause. -/
theorem witness_HbmSlotsFreezeAndReturn :
    (∃ (s : State) (u : Fin 64) (kind : Fin 4), (s.slotLive u.val = true) ∧ (kind.val ≠ 0) ∧ (s.b (hbcA (u.val / 32) (0x180 + 4 * (u.val % 32))) 31 = false)) ∧
    (∃ (s : State) (k : Fin 2) (pc : Fin 32) (bank : Fin 64) (row : BitVec 13), (s.accepts (hbcA k.val 0x074) (word (row.toNat * 2 ^ 16 + bank.val * 256 + pc.val)))) ∧
    (∃ (s : State) (k : Fin 2) (result : Fin 4), (s.b (hbcA k.val 0x078) 31 = true) ∧ (result.val ≠ 0)) ∧
    (∃ (s : State) (u : Fin 64), (s.accepts (hbcA (u.val / 32) 0x070) (word (256 + u.val % 32))) ∧ (s.b (hbcA (u.val / 32) 0x06C) (u.val % 32) = true)) ∧
    (∃ (s : State) (u : Fin 64) (pc : Nat), (s.bpm.testSpare.at 0 u.val = pc + 1)) ∧
    (∃ (s : State) (u : Fin 64) (pc : Nat), (s.bpm.testSpare.at 0 u.val = pc + 1)) :=
  ⟨⟨put (hbcA 0 0x044) 1, 3, 2, by decide +kernel⟩,
   ⟨State.wr (put (hbcA 1 0x044) 1) (hbcA 1 0x09C) 0, 1, 30, 2, 5, by decide +kernel⟩,
   ⟨put (hbcA 1 0x078) 0x80000000, 1, 2, by decide +kernel⟩,
   ⟨{ State.wr (put (hbcA 0 0x068) 8) (hbcA 0 0x06C) 8 with bpm := { retired := [handle 5 3] } }, 3, by decide +kernel⟩,
   ⟨{ State.wr (put (hbcA 0 0x068) 8) (hbcA 0 0x06C) 8 with bpm := { retired := [handle 5 3], testSpare := [(3, 31)] } }, 3, 30, by decide +kernel⟩,
   ⟨{ State.wr (put (hbcA 0 0x068) 8) (hbcA 0 0x06C) 8 with bpm := { retired := [handle 5 3], testSpare := [(3, 31)] } }, 3, 30, by decide +kernel⟩⟩

/-- States and operands that meet the hypotheses of CopiesAreSelectedAndSent, clause by clause. -/
theorem witness_CopiesAreSelectedAndSent :
    (∃ (s : State) (p : AnyPort) (ex : Bool) (x : TxSel), (p.val ≠ 64) ∧ (s.portStopped p.val = false) ∧ ((s.tmg.sel.at {} (2 * p.val + b2n (!ex))).copy = 0) ∧ ((s.prunePort p.val).choose p.val ex = some x) ∧ (((s.prunePort p.val).copyChain ((s.prunePort p.val).copy x.copy)).1 = none)) ∧
    (∃ (s : State) (p : AnyPort) (x : TxSel) (y : TxSel) (c : Copy) (upset : Option (Nat × Word)), (65 ≤ p.val) ∧ (s.portStopped p.val = false) ∧ (s.tx p.val = none) ∧ (s.crossingFree p.val = true) ∧ (s.withdrawStale p.val = s) ∧ (s.tmg.sel.at {} (2 * p.val) = x) ∧ (x.copy ≠ 0) ∧ (s.choose p.val true = some y) ∧ (x.rank ≤ y.rank) ∧ (s.copy x.copy = c) ∧ (c.id = x.copy) ∧ (c.queued = true) ∧ (c.queue = some x.queue) ∧ (s.firstFault upset 0 ((s.copyCells c).take 1) = none)) ∧
    (∃ (s : State) (p : Port) (ex : Bool) (x : TxSel) (y : TxSel) (c : Copy) (upset : Option (Nat × Word)), (s.portStopped p.val = false) ∧ ((s.mac p.val).ctlOut = []) ∧ (s.b (macA p.val 0x040) 1 = true) ∧ (s.tx p.val = none) ∧ ((ex = true ∨ s.suspended p.val = none)) ∧ (s.withdrawStale p.val = s) ∧ (s.tmg.sel.at {} (2 * p.val + b2n (!ex)) = x) ∧ (x.copy ≠ 0) ∧ (s.choose p.val ex = some y) ∧ ((x.rank ≤ y.rank ∨ y.queue / 8 % 8 = x.queue / 8 % 8)) ∧ (s.copy x.copy = c) ∧ (c.id = x.copy) ∧ (c.done = true) ∧ (c.queued = true) ∧ (c.queue = some x.queue) ∧ (s.b (mscA (p.val / 4) (0x060 + 4 * (p.val % 4))) 0 = false) ∧ (max 64 (s.copyLen x.copy) ≤ s.f (macA p.val 0x044) 13 0) ∧ (s.firstFault upset 0 ((s.copyCells c).take 1) = none)) ∧
    (∃ (s : State) (p : Port) (z : TxState), (s.portStopped p.val = false) ∧ ((s.mac p.val).ctlOut = []) ∧ (s.tx p.val = none) ∧ (s.suspended p.val = some z) ∧ (s.b (macA p.val 0x048) 1 = false) ∧ (s.b (macA p.val 0x048) (8 + (s.copy z.copy).group) = false) ∧ (s.gateOpen p.val (s.copy z.copy).group = true) ∧ (s.fitsNow p.val (s.copy z.copy).group (s.copyLen z.copy - z.sent) = true)) ∧
    (∃ (s : State) (z : TxState) (c : Copy) (h : Nat) (upset : Option (Nat × Word)), (s.tx 65 = some z) ∧ (s.copy z.copy = c) ∧ (c.id = z.copy) ∧ (c.done = true) ∧ (c.headH = some h) ∧ (c.tailH = none) ∧ (h < 5 * 2 ^ 29) ∧ (s.copyCells c = [h]) ∧ (s.firstFault upset 0 (s.copyCells c) = none)) ∧
    (∃ (s : State) (p : Port) (z : TxState) (c : Copy) (h : Nat), (s.tx p.val = some z) ∧ (z.stomp = false) ∧ (z.cut = false) ∧ (z.prot = none) ∧ (s.copy z.copy = c) ∧ (c.id = z.copy) ∧ (c.done = true) ∧ (c.headH = some h) ∧ (c.tailH = none) ∧ (h < 5 * 2 ^ 29) ∧ (s.copyCells c = [h]) ∧ ((s.frame c.fid).tsReq = none) ∧ (s.f (tsuA 0x280) 5 0 = 0) ∧ (s.portLoop p.val = 0)) ∧
    (∃ (s : State) (p : Port) (z : TxState) (c : Copy), (s.tx p.val = some z) ∧ (z.stomp = false) ∧ (z.cut = true) ∧ (z.prot = none) ∧ (s.copy z.copy = c) ∧ (c.id = z.copy) ∧ (c.done = false) ∧ (s.f (tsuA 0x280) 5 0 = 0) ∧ (s.portLoop p.val = 0)) ∧
    (∃ (s : State) (q : Fin 5120) (cid : Nat), (s.regionDown (53 + tmgOf (q.val / 64)) = false) ∧ ((q.val / 64 ≠ 64 ∧ q.val / 64 < 68)) ∧ ((s.onQueue q.val).head? = some cid) ∧ (s.tooOld q.val (s.copy cid) = false) ∧ (s.noFit (q.val / 64) (q.val / 8 % 8) cid = false) ∧ ((s.tmg.sel.at {} (2 * (q.val / 64))).copy = 0) ∧ ((s.tmg.sel.at {} (2 * (q.val / 64) + 1)).copy = 0)) ∧
    (∃ (s : State) (q : Fin 5120) (c : Copy) (rest : List Nat), (s.regionDown (53 + tmgOf (q.val / 64)) = false) ∧ ((q.val / 64 ≠ 64 ∧ q.val / 64 < 68)) ∧ (s.onQueue q.val = c.id :: rest) ∧ (s.copy c.id = c) ∧ (c.queue = some q.val) ∧ (s.tooOld q.val c = true) ∧ ((∀ i ∈ rest.head?, s.tooOld q.val (s.copy i) = false ∧ s.noFit (q.val / 64) (q.val / 8 % 8) i = false)) ∧ (s.b (tmgA (tmgOf (q.val / 64)) 0x04C) 31 = false) ∧ ((s.tmg.sel.at {} (2 * (q.val / 64))).copy = 0) ∧ ((s.tmg.sel.at {} (2 * (q.val / 64) + 1)).copy = 0)) ∧
    (∃ (s : State) (e : Group), (s.b (tmgA e.val 0x044) 31 = true) ∧ (s.regionDown (53 + e.val) = false)) ∧
    (∃ (s : State) (e : Group) (q : Nat), (s.b (tmgA e.val 0x044) 31 = true) ∧ (s.regionDown (53 + e.val) = false) ∧ ((((s.win.filter (fun x => decide (0x2000000 ≤ x.1 ∧ x.1 < 0x2044000 ∧ x.1 % 64 = 0 ∧ bitsOf x.2.toNat 1 1 = 1))).map (fun x => (x.1 - 0x2000000) / 64)).filter (fun q => decide (tmgOf (q / 64) = e.val))) = [q])) :=
  ⟨⟨{ State.winPut up (qA 4160 + 4) 4 1000 with frames := [(5, { id := 5 })], copies := [(6, { id := 6, fid := 5, port := 65, queue := some 4160, done := true })], tmg := { queues := [(4160, [6])] } }, 65, true, { copy := 6, queue := 4160, ptr := 0, defs := [] }, by decide +kernel⟩,
   ⟨{ up with frames := [(5, { id := 5 })], copies := [(6, { id := 6, fid := 5, port := 65, queue := some 4160, done := true, queued := true })], isl := { run := true }, tmg := { queues := [(4160, [6])], sel := [(130, { copy := 6, queue := 4160 })] } }, 65, { copy := 6, queue := 4160 }, { copy := 6, queue := 4160 }, { id := 6, fid := 5, port := 65, queue := some 4160, done := true, queued := true }, none, by decide +kernel⟩,
   ⟨{ State.wr (State.winPut (put (macA 3 0x040) 2) (qA 192 + 4) 4 1000) (macA 3 0x048) 1 with macs := [(3, { txEn := true })], frames := [(5, { id := 5 })], copies := [(6, { id := 6, fid := 5, port := 3, queue := some 192, done := true, queued := true })], tmg := { queues := [(192, [6])], sel := [(6, { copy := 6, queue := 192 })] } }, 3, true, { copy := 6, queue := 192 }, { copy := 6, queue := 192 }, { id := 6, fid := 5, port := 3, queue := some 192, done := true, queued := true }, none, by decide +kernel⟩,
   ⟨{ State.wr (State.wr (put (macA 3 0x040) 2) (tmgA 0 0x10C) 0) (macA 3 0x048) 1 with macs := [(3, { txEn := true })], tmg := { yielded := [(3, { copy := 6, express := false, sent := 100 })] } }, 3, { copy := 6, express := false, sent := 100 }, by decide +kernel⟩,
   ⟨{ up with sram := writeBytes [] (sramAddr 3) [1, 2, 3, 4, 5, 6, 7, 8], frames := [(5, { id := 5 })], copies := [(6, { id := 6, fid := 5, port := 65, queue := some 4160, done := true, headH := some 3, head := [1, 2, 3, 4, 5, 6, 7, 8] })], bpm := { cells := [(3, { alloc := true, head := true, last := true, len := 8, check := crc32c [1, 2, 3, 4, 5, 6, 7, 8] })] }, tmg := { tx := [(65, { copy := 6 })] } }, { copy := 6 }, { id := 6, fid := 5, port := 65, queue := some 4160, done := true, headH := some 3, head := [1, 2, 3, 4, 5, 6, 7, 8] }, 3, none, by decide +kernel⟩,
   ⟨{ up with sram := writeBytes [] (sramAddr 3) [1, 2, 3, 4, 5, 6, 7, 8], frames := [(5, { id := 5 })], copies := [(6, { id := 6, fid := 5, port := 3, queue := some 192, done := true, headH := some 3, head := [1, 2, 3, 4, 5, 6, 7, 8] })], bpm := { cells := [(3, { alloc := true, head := true, last := true, len := 8, check := crc32c [1, 2, 3, 4, 5, 6, 7, 8] })] }, tmg := { tx := [(3, { copy := 6 })] } }, 3, { copy := 6 }, { id := 6, fid := 5, port := 3, queue := some 192, done := true, headH := some 3, head := [1, 2, 3, 4, 5, 6, 7, 8] }, 3, by decide +kernel⟩,
   ⟨{ up with frames := [(5, { id := 5 })], copies := [(6, { id := 6, fid := 5, port := 3, queue := some 192, head := [1, 2, 3, 4] })], tmg := { tx := [(3, { copy := 6, cut := true })] } }, 3, { copy := 6, cut := true }, { id := 6, fid := 5, port := 3, queue := some 192, head := [1, 2, 3, 4] }, by decide +kernel⟩,
   ⟨{ State.winPut up (qA 448 + 4) 4 1000 with clk := 500, copies := [(6, { id := 6, fid := 5, port := 7, queue := some 448, queued := true })], tmg := { queues := [(448, [6])] } }, 448, 6, by decide +kernel⟩,
   ⟨{ State.winPut up (qA 448 + 4) 4 1 with clk := 500, copies := [(6, { id := 6, fid := 5, port := 7, queue := some 448, queued := true })], tmg := { queues := [(448, [6])] } }, 448, { id := 6, fid := 5, port := 7, queue := some 448, queued := true }, [], by decide +kernel⟩,
   ⟨put (tmgA 0 0x044) 0x80000000, 0, by decide +kernel⟩,
   ⟨State.winPut (put (tmgA 0 0x044) 0x80000000) (qA 448) 1 2, 0, 448, by decide +kernel⟩⟩

/-- States and operands that meet the hypotheses of ShapersRefillAndPauseRepeats, clause by clause. -/
theorem witness_ShapersRefillAndPauseRepeats :
    (∃ (s : State) (e : Group) (q : Nat) (c : List Byte), (s.regionDown (53 + e.val) = false) ∧ (s.tmg.qShp = [(q, c)]) ∧ (c ≠ []) ∧ (s.tmg.gShp = []) ∧ (s.tmg.sel = []) ∧ (tmgOf (q / 64) = e.val) ∧ ((∀ x ∈ s.win, (0x2000000 ≤ x.1 ∧ x.1 < 0x2044000 → x.1 % 64 ≠ 32) ∧ (0x2100000 ≤ x.1 ∧ x.1 < 0x2104400 → x.1 % 32 ≠ 0))) ∧ (q < 5120) ∧ (leAt c 8 4 % 2 ^ 24 < 2 ^ 23) ∧ (leAt c 12 4 % 2 ^ 24 < 2 ^ 23)) ∧
    (∃ (s : State) (p : Port), (s.f (tmgA (p.val / 16) (0x200 + 4 * (p.val % 16))) 1 0 = 1) ∧ (s.f (tmgA (p.val / 16) (0x240 + 4 * (p.val % 16))) 7 0 ≠ 0) ∧ (s.b (macA p.val 0x054) 2 = true)) :=
  ⟨⟨{ State.winPut up (qA 448 + 44) 4 5 with tmg := { qShp := [(448, [10, 0, 0, 0, 20, 0, 0, 0, 1, 0, 0, 0, 2, 0, 0, 0])] } }, 0, 448, [10, 0, 0, 0, 20, 0, 0, 0, 1, 0, 0, 0, 2, 0, 0, 0], by decide +kernel⟩,
   ⟨State.wr (State.wr (put (tmgA 0 0x20C) 0x12340001) (tmgA 0 0x24C) 1) (macA 3 0x054) 4, 3, by decide +kernel⟩⟩

/-- States and operands that meet the hypotheses of TimeBasesAreCommanded, clause by clause. -/
theorem witness_TimeBasesAreCommanded :
    (∃ (s : State) (b : Tb), (s.accepts (tbA b.val 0x18) 1) ∧ (s.tgs.act.filter (fun e => decide (e.2.tb = b.val)) = []) ∧ (s.tgs.pend.filter (fun e => decide (e.2.tb = b.val)) = [])) ∧
    (∃ (s : State) (b : Tb), (s.accepts (tbA b.val 0x18) 2) ∧ (s.tgs.act.filter (fun e => decide (e.2.tb = b.val)) = []) ∧ (s.tgs.pend.filter (fun e => decide (e.2.tb = b.val)) = [])) ∧
    (∃ (s : State) (bases : BitVec 4), (s.accepts (tsuA 0x044) (word bases.toNat))) ∧
    (∃ (s : State) (p : Port), (s.accepts (tsuA (0x400 + 16 * p.val)) (word (2 ^ 31)))) ∧
    (∃ (s : State) (n : Tb), (s.accepts (pinA n.val 0x18) (word (2 ^ 31)))) ∧
    (∃ (s : State) (n : Tb), (s.alive = true) ∧ (s.pinMode n.val = 1) ∧ (s.tsu.pinHigh.at false n.val = false) ∧ (s.pinSince n.val < 5) ∧ (s.tsu.landed.at 0 (s.pinTb n.val) + s.pinSince n.val ≤ (s.tb (s.pinTb n.val)).total)) ∧
    (∃ (s : State) (n : Tb), (s.alive = true) ∧ (s.tsu.pinHigh.at false n.val = true) ∧ ((((s.ff (pinA n.val 0x0C) 29 0 / 8 * 8 : Nat) : Int) ≤ (((s.tb (s.pinTb n.val)).sec : Int) - ((s.tsu.pinRose.at ({} : TimeBase) n.val).sec : Int)) * 1000000000 + ((s.tb (s.pinTb n.val)).ns : Int) - ((s.tsu.pinRose.at ({} : TimeBase) n.val).ns : Int)))) ∧
    (∃ (s : State) (n : Tb) (falling : Bool) (width : Nat), (s.alive = true) ∧ (s.pinMode n.val = 2) ∧ (bit (s.fw (pinA n.val 0)) (if falling = bit (s.fw (pinA n.val 0)) 12 then 8 else 9) = true) ∧ (16 ≤ width) ∧ ((s.tsu.pinEv.at [] n.val).length < 16) ∧ (s.b (mirA 0x058) 4 = false)) ∧
    (∃ (s : State), (s.b (tsuA 0x040) 0 = true)) :=
  ⟨⟨State.wr (State.wr (put (tsuA 0x088) 1) (tsuA 0x08C) 5) (tsuA 0x090) 7, 0, by decide +kernel⟩,
   ⟨{ put (tsuA 0x094) 0xFFFFFFFE with tsu := { tb := [(0, { sec := 3, epoch := 15 })] } }, 0, by decide +kernel⟩,
   ⟨{ up with tsu := { tb := [(0, { sec := 3, ns := 8, epoch := 15 })] } }, 5, by decide +kernel⟩,
   ⟨{ put (tsuA 0x430) 0x80000003 with tsu := { txts := [(3, [{ ring := 3, desc := 0, tb := 0, epoch := 0, ns := 5, sec := 0, ovf := false }])] } }, 3, by decide +kernel⟩,
   ⟨{ put (pinA 1 0x18) 0x80000001 with tsu := { pinEv := [(1, [{ ns := 5, sec := 0, epoch := 0, falling := false, ovf := false }])] } }, 1, by decide +kernel⟩,
   ⟨{ up with inForce := [(pinA 1 0, 0x101)] }, 1, by decide +kernel⟩,
   ⟨{ up with inForce := [(pinA 1 0, 0x101), (pinA 1 0x0C, 16)], tsu := { pinHigh := [(1, true)], tb := [(0, { ns := 17 })] } }, 1, by decide +kernel⟩,
   ⟨{ up with inForce := [(pinA 1 0, 0x102)], tsu := { tb := [(0, { ns := 17 })] } }, 1, false, 20, by decide +kernel⟩,
   ⟨put (tsuA 0x040) 1, by decide +kernel⟩⟩

/-- States and operands that meet the hypotheses of GateListsRun, clause by clause. -/
theorem witness_GateListsRun :
    (∃ (s : State) (p : Port), (s.accepts (tgsPortA p.val 0) (s.rd (tgsPortA p.val 0) ||| word 256)) ∧ (s.listBad p.val (s.readList p.val) = false) ∧ (s.nowNs (s.readList p.val).tb + 2000 ≤ (s.readList p.val).base)) ∧
    (∃ (s : State) (p : Port) (i : Nat) (a : Nat) (d : Nat) (st : Nat) (op : Nat), ((s.gPend p.val).live = true) ∧ ((s.gPend p.val).start ≤ s.nowNs (s.gPend p.val).tb) ∧ (s.regionDown 61 = false) ∧ ((s.gPend p.val).segs.head? = some (i, a, d, st, op)) ∧ (st < 256) ∧ (s.tx p.val = none)) ∧
    (∃ (s : State) (p : Port), (s.accepts (tgsPortA p.val 0) (s.rd (tgsPortA p.val 0) ||| word 512)) ∧ (s.nowNs (s.gPend p.val).tb < (s.gPend p.val).start)) ∧
    (∃ (s : State) (p : Port) (n : Int) (x : Nat) (i : Nat) (a : Nat) (d : Nat) (st : Nat) (op : Nat), (s.regionDown 61 = false) ∧ ((s.gAct p.val).live = true) ∧ ((s.gAct p.val).place (s.nowNs (s.gAct p.val).tb) = (n, x)) ∧ (((s.gAct p.val).segs.take ((s.gAct p.val).begun x)).getLast? = some (i, a, d, st, op)) ∧ (st < 256) ∧ (i < 2048) ∧ (s.tx p.val = none)) ∧
    (∃ (s : State) (p : Port), (s.accepts (tgsPortA p.val 0) (setBit (s.rd (tgsPortA p.val 0)) 0 false)) ∧ (s.tx p.val = none)) :=
  ⟨⟨State.winPut (State.wr (State.wr (State.wr (State.wr (put (tgsPortA 3 0) 0x00010001) (tgsPortA 3 0x08) 1) (tgsPortA 3 0x10) 1000) (tgsPortA 3 0x0C) 0) (tgsPortA 3 0x04) 0) (gateListA 3 0 0) 5 0xFF00000064, 3, by decide +kernel⟩,
   ⟨{ up with tgs := { pend := [(3, { base := 0, start := 0, cycle := 1000, bank := 1, entries := [(100, 15, 0)] })] } }, 3, 0, 0, 1000, 15, 0, by decide +kernel⟩,
   ⟨{ put (tgsPortA 3 0) 0x00010001 with tgs := { pend := [(3, { base := 5000, start := 5000, cycle := 1000, bank := 1, entries := [(100, 15, 0)] })] } }, 3, by decide +kernel⟩,
   ⟨{ up with tgs := { act := [(3, { base := 0, start := 0, cycle := 1000, bank := 1, entries := [(100, 15, 0), (100, 3, 0)] })] }, tsu := { tb := [(0, { ns := 150 })] } }, 3, 0, 150, 1, 100, 900, 3, 0, by decide +kernel⟩,
   ⟨{ State.wr (put (tgsPortA 3 0) 0x00010001) (tgsPortA 3 0x14) 0x5A with tgs := { act := [(3, { base := 0, start := 0, cycle := 1000, bank := 1, entries := [(100, 15, 0)] })] } }, 3, by decide +kernel⟩⟩

/-- States and operands that meet the hypotheses of HostFramesAreTransferred, clause by clause. -/
theorem witness_HostFramesAreTransferred :
    (∃ (s : State) (r : Fin 1024) (d : List Byte) (early : Bool), (s.ringDma (1024 + r.val) = true) ∧ (s.quiesced = false) ∧ (s.ringEmpty (1024 + r.val) = false) ∧ (s.txDescs (1024 + r.val) (s.ringFree (1024 + r.val)) 0 [] = some ([d], early)) ∧ (txBad (s.ringFlag (1024 + r.val) 2) early [d] = 0) ∧ (60 ≤ leAt d 8 2) ∧ (leAt d 8 2 ≤ 15996) ∧ (s.stageFits 4 0 (leAt d 8 2 + 4) = true) ∧ (s.ringLog2 (1024 + r.val) ≤ 16)) ∧
    (∃ (s : State) (r : Fin 1024) (c : Copy) (h : Nat) (upset : Option (Nat × Word)), ((s.onQueue (8192 + r.val)).head? = some c.id) ∧ (s.copy c.id = c) ∧ (c.done = true) ∧ (c.queue = none) ∧ (c.ring = r.val) ∧ (c.queued = true) ∧ (c.headH = some h) ∧ (c.tailH = none) ∧ (h < 5 * 2 ^ 29) ∧ ((s.cell h).twin = none) ∧ (s.copyCells c = [h]) ∧ (s.firstFault upset 0 (s.copyCells c) = none) ∧ (s.ringDma r.val = true) ∧ (0 < s.ringFree r.val) ∧ (s.ringFlag r.val 3 = false) ∧ (0 < (s.copyBytes c).length) ∧ ((s.copyBytes c).length ≤ s.ringBuf r.val) ∧ (s.ringLog2 r.val ≤ 16) ∧ ((leVal (s.hostRd (s.descAddr r.val 0) 8) + (s.copyBytes c).length ≤ s.descAddr r.val 0 ∨ s.descAddr r.val 0 + 32 ≤ leVal (s.hostRd (s.descAddr r.val 0) 8)))) ∧
    (∃ (s : State) (page : Nat) (i : Nat) (base : Nat) (b : Blk) (off : BitVec 11) (mask : Word), (pageOf page = some (b, i)) ∧ (clearBase b off.toNat = some base) ∧ (isPosted b off.toNat = false) ∧ ((b ≠ Blk.sds ∧ b ≠ Blk.glf)) ∧ (s.accepts (page * 0x1000 + off.toNat) mask)) :=
  ⟨⟨{ State.winPut (State.winPut (State.winPut (put (hifA 0x044) 1) (ringA 1024 + 8) 1 6) (ringA 1024 + 14) 2 1) (ringA 1024 + 22) 1 1 with host := writeBytes [] 0 (leBytes 8 0x1000 ++ leBytes 2 64 ++ leBytes 1 6) }, 0, leBytes 8 0x1000 ++ leBytes 2 64 ++ leBytes 1 6 ++ List.replicate 21 0, false, by decide +kernel⟩,
   ⟨{ State.winPut (State.winPut (State.winPut (State.winPut (put (hifA 0x044) 1) (ringA 0 + 8) 1 6) (ringA 0 + 14) 2 1) (ringA 0 + 22) 1 1) (ringA 0 + 10) 2 4 with host := writeBytes [] 0 (leBytes 8 0x1000), sram := writeBytes [] (sramAddr 3) (List.replicate 64 7), frames := [(5, { id := 5 })], copies := [(6, { id := 6, fid := 5, port := 64, done := true, queued := true, headH := some 3, head := List.replicate 64 7 })], bpm := { cells := [(3, { alloc := true, head := true, last := true, len := 64, check := crc32c (List.replicate 64 7) })] }, tmg := { queues := [(8192, [6])] } }, 0, { id := 6, fid := 5, port := 64, done := true, queued := true, headH := some 3, head := List.replicate 64 7 }, 3, none, by decide +kernel⟩,
   ⟨put (tsuA 0x288) 7, 4, 0, 0x284, .tsu, 0x294, 2, by decide +kernel⟩⟩

/-- States and operands that meet the hypotheses of FrontsDivideThePeriods, clause by clause. -/
theorem witness_FrontsDivideThePeriods :
    (∃ (s : State), (s.alive = true) ∧ (s.b (staA 0x044) 31 = true) ∧ (s.b (staA 0x040) 2 = false) ∧ ((match s.sta.after with | some n => decide (s.gridInstant.total ≤ n) | none => false) = false) ∧ (s.b (staA 0x040) 0 = false)) ∧
    (∃ (s : State), (s.alive = true) ∧ (s.b (staA 0x044) 31 = true) ∧ (s.b (staA 0x040) 2 = false) ∧ ((match s.sta.after with | some n => decide (s.gridInstant.total ≤ n) | none => false) = false) ∧ (s.b (staA 0x040) 0 = true)) ∧
    (∃ (s : State), (s.accepts (staA 0x048) 1)) ∧
    (∃ (s : State) (p : Fin 176), (s.alive = true) ∧ (s.b (staA 0x040) 0 = true) ∧ (s.sta.passed.contains p.val = false) ∧ (allPages.contains p.val = true) ∧ (s.frontReady p.val = true)) ∧
    (∃ (s : State), (s.b (staA 0x040) 0 = true) ∧ (allPages.any (fun p => !s.sta.passed.contains p) = false)) ∧
    (∃ (s : State), (s.b (staA 0x040) 0 = true) ∧ (s.sta.lateSaid = false)) ∧
    (∃ (s : State) (en : Bool) (mode : Bool) (src : Bool) (period : BitVec 16), (s.accepts (staA 0x044) (word (b2n en * 2 ^ 31 + b2n mode * 2 ^ 17 + b2n src * 2 ^ 16 + period.toNat)))) ∧
    (∃ (s : State), (s.alive = true)) :=
  ⟨⟨{ put (staA 0x044) 0x80020001 with tsu := { tb := [(0, { sec := 3, ns := 1500000 })] }, inForce := [(staA 0x044, 1)] }, by decide +kernel⟩,
   ⟨{ State.wr (put (staA 0x044) 0x80020001) (staA 0x040) 1 with tsu := { tb := [(0, { sec := 3, ns := 1500000 })] }, inForce := [(staA 0x044, 1)] }, by decide +kernel⟩,
   ⟨{ State.wr (put (staA 0x044) 0x80010001) (staA 0x040) 4 with tsu := { tb := [(0, { sec := 3, ns := 1500000 })] } }, by decide +kernel⟩,
   ⟨put (staA 0x040) 1, 0x23, by decide +kernel⟩,
   ⟨{ put (staA 0x040) 1 with sta := { passed := allPages, cnt := [(0x160, 4)] } }, by decide +kernel⟩,
   ⟨put (staA 0x040) 1, by decide +kernel⟩,
   ⟨up, true, true, false, 5, by decide +kernel⟩,
   ⟨{ up with sta := { bwTx := [(3, 900)], bwPk := [(7, (800, 100))] } }, by decide +kernel⟩⟩

/-- States and operands that meet the hypotheses of LedgerIsAuditedAndCountersStop, clause by clause. -/
theorem witness_LedgerIsAuditedAndCountersStop :
    (∃ (s : State), (s.b (staA 0x404) 1 = true) ∧ (s.regionDown 34 = false) ∧ (s.alive = true) ∧ (s.sta.first = false) ∧ (s.auditFaults = []) ∧ (s.b (staA 0x400) 2 = false)) ∧
    (∃ (s : State) (x : Nat × Nat × Int), (s.b (staA 0x404) 1 = true) ∧ (s.regionDown 34 = false) ∧ (s.alive = true) ∧ (s.sta.first = false) ∧ (s.auditFaults = [x]) ∧ (s.b (staA 0x400) 2 = false) ∧ (s.b (staA 0x414) 31 = false)) ∧
    (∃ (s : State), (s.accepts (staA 0x404) 4)) ∧
    (∃ (s : State), (s.accepts (pmcA 0x044) (s.rd (pmcA 0x044) ||| word 256)) ∧ (s.b (pmcA 0x040) 1 = false) ∧ (s.b (pmcA 0x040) 0 = false) ∧ (s.sta.pmcHeld = [])) ∧
    (∃ (s : State), (s.accepts (pmcA 0x040) 1)) ∧
    (∃ (s : State) (k : Nat) (r : CapRec) (rest : List CapRec), (s.alive = true) ∧ (s.b (mirA 0x044) 0 = true) ∧ (s.b (mirA 0x040) 0 = false) ∧ (s.b (mirA 0x040) 1 = false) ∧ (s.regionDown 33 = false) ∧ (s.capSize ≠ 0) ∧ (s.capNext = some k) ∧ (s.mir.queues.at [] k = r :: rest) ∧ (r.trig = false) ∧ (s.mir.post = none) ∧ ((s.capPlace ((s.rd (mirA 0x050)).toNat % s.capSize)).any (fun x => s.hbmBad x.2) = false)) ∧
    (∃ (s : State), (s.accepts (mirA 0x040) 1)) :=
  ⟨⟨put (staA 0x404) 2, by decide +kernel⟩,
   ⟨{ put (staA 0x404) 2 with sta := { resCut := [(accKey 4 0, 5)] } }, (4, 0, -5), by decide +kernel⟩,
   ⟨put (staA 0x404) 4, by decide +kernel⟩,
   ⟨up, by decide +kernel⟩,
   ⟨put (pmcA 0x040) 1, by decide +kernel⟩,
   ⟨{ State.wr (State.wr (put (mirA 0x044) 1) (mirA 0x04C) 1) (mirA 0x048) 2 with mir := { queues := [(3, [{ bytes := List.replicate 192 7 }])] } }, 3, { bytes := List.replicate 192 7 }, [], by decide +kernel⟩,
   ⟨put (mirA 0x040) 1, by decide +kernel⟩⟩

/-- States and operands that meet the hypotheses of RegionsAreDeclared, clause by clause. -/
theorem witness_RegionsAreDeclared :
    (∃ (s : State) (r : Fin 128), (31 ≤ r.val ∧ r.val ≤ 34) ∧ (s.regionRuns r.val = true) ∧ (s.b (sprA 0x044) 0 = true) ∧ (s.b (sprA 0x058) 31 = false)) ∧
    (∃ (s : State) (r : Fin 128), (s.regionRuns r.val = true) ∧ ((r.val < 5 → s.halted r.val = false)) ∧ (s.b (sprA 0x044) 0 = true)) ∧
    (∃ (s : State), (s.b (clkA (0x220 + 4 * 6)) 13 = true) ∧ (s.regionRuns 60 = true) ∧ (s.b (sprA 0x044) 0 = true) ∧ (s.b (sprA 0x058) 31 = false)) ∧
    (∃ (s : State) (n : Fin 212) (r : Nat) (rest : List Nat), (s.b (clkA (0x220 + 4 * (n.val / 32))) (n.val % 32) = true) ∧ (s.domRegions n.val = r :: rest) ∧ (s.regionRuns r = true) ∧ (s.b (sprA 0x044) 0 = true)) ∧
    (∃ (s : State) (r : Fin 128), (s.accepts (sprA 0x04C) (word (r.val * 256 + 1)))) ∧
    (∃ (s : State) (r : Fin 128), (31 ≤ r.val ∧ r.val ≤ 34) ∧ (s.accepts (sprA 0x04C) (word (r.val * 256 + 1))) ∧ (s.b (sprA 0x058) 31 = false)) :=
  ⟨⟨up, 32, by decide +kernel⟩,
   ⟨up, 7, by decide +kernel⟩,
   ⟨put (clkA 0x238) 0x2000, by decide +kernel⟩,
   ⟨put (clkA 0x220) 0x20, 5, 38, [], by decide +kernel⟩,
   ⟨up, 7, by decide +kernel⟩,
   ⟨up, 32, by decide +kernel⟩⟩

/-- States and operands that meet the hypotheses of RepairsAreQueuedAndRun, clause by clause. -/
theorem witness_RepairsAreQueuedAndRun :
    (∃ (s : State) (r : Fin 128) (k : Nat), (s.accepts (sprA 0x04C) (word (r.val * 256 + 2))) ∧ (k = (if 15 ≤ r.val ∧ r.val < 20 then 1 else 0)) ∧ (s.f (sprA 0x048) (2 * k + 1) (2 * k) ≠ 2) ∧ (s.spr.queue.any (fun x => decide (x.kind = k ∧ x.region = r.val ∧ x.arg = 0)) = false) ∧ (s.spr.queue.length < 16)) ∧
    (∃ (s : State) (u : Fin 64), (s.accepts (sprA 0x04C) (word ((64 + u.val) * 256 + 5))) ∧ (s.f (sprA 0x048) 15 14 ≠ 2) ∧ (s.spr.queue.any (fun x => decide (x.kind = 7 ∧ x.region = 64 + u.val ∧ x.arg = u.val)) = false) ∧ (s.spr.queue.length < 16)) ∧
    (∃ (s : State) (r : RepReq) (rest : List RepReq), (s.accepts (sprA 0x04C) (word 3)) ∧ (s.spr.queue = r :: rest)) ∧
    (∃ (s : State) (r : RepReq) (rest : List RepReq), (s.accepts (sprA 0x04C) (word 4)) ∧ (s.spr.queue = r :: rest)) ∧
    (∃ (s : State) (r : RepReq) (rest : List RepReq), (s.headAsks = true) ∧ (s.spr.queue = r :: rest)) ∧
    (∃ (s : State) (r : RepReq) (rest : List RepReq), (s.spr.queue = r :: rest) ∧ (s.b (sprA 0x040) 8 = false) ∧ ((r.pol = 1 → r.ok = true)) ∧ ((r.pol = 0 → s.b (sprA 0x044) 0 = true)) ∧ (r.kind = 0) ∧ (r.region < 128)) ∧
    (∃ (s : State) (r : RepReq) (rest : List RepReq), (s.spr.queue = r :: rest) ∧ (s.b (sprA 0x040) 8 = false) ∧ ((r.pol = 1 → r.ok = true)) ∧ ((r.pol = 0 → s.b (sprA 0x044) 0 = true)) ∧ (r.kind = 4) ∧ (s.spr.rows.at 0 (r.arg / 4096) < 8)) ∧
    (∃ (s : State) (r : RepReq) (rest : List RepReq), (s.spr.queue = r :: rest) ∧ (s.b (sprA 0x040) 8 = false) ∧ ((r.pol = 1 → r.ok = true)) ∧ ((r.pol = 0 → s.b (sprA 0x044) 0 = true)) ∧ (r.kind = 4) ∧ (s.spr.rows.at 0 (r.arg / 4096) = 8)) ∧
    (∃ (s : State) (r : RepReq) (rest : List RepReq), (s.spr.queue = r :: rest) ∧ (s.b (sprA 0x040) 8 = true) ∧ (r.kind = 0) ∧ (5 ≤ r.region ∧ r.region < 64)) ∧
    (∃ (s : State) (r : RepReq) (rest : List RepReq), (s.spr.queue = r :: rest) ∧ (s.b (sprA 0x040) 8 = true) ∧ (r.kind = 0) ∧ (s.regionExists r.region = true)) ∧
    (∃ (s : State) (r : RepReq) (rest : List RepReq), (s.spr.queue = r :: rest) ∧ (s.b (sprA 0x040) 8 = true) ∧ (r.kind = 4)) ∧
    (∃ (s : State) (r : RepReq) (rest : List RepReq), (s.spr.queue = r :: rest) ∧ (s.b (sprA 0x040) 8 = true) ∧ (r.kind = 4)) :=
  ⟨⟨put (sprA 0x090) 2, 32, 0, by decide +kernel⟩,
   ⟨up, 3, by decide +kernel⟩,
   ⟨{ put (sprA 0x050) 0x90000000 with spr := { queue := [{ kind := 0, region := 32, arg := 0, pol := 1, limit := 9 }] } }, { kind := 0, region := 32, arg := 0, pol := 1, limit := 9 }, [], by decide +kernel⟩,
   ⟨{ put (sprA 0x050) 0x90000000 with spr := { queue := [{ kind := 0, region := 32, arg := 0, pol := 1, limit := 9 }] } }, { kind := 0, region := 32, arg := 0, pol := 1, limit := 9 }, [], by decide +kernel⟩,
   ⟨{ put (sprA 0x050) 0x90000000 with spr := { queue := [{ kind := 0, region := 32, arg := 0, pol := 1, limit := 9 }] } }, { kind := 0, region := 32, arg := 0, pol := 1, limit := 9 }, [], by decide +kernel⟩,
   ⟨{ up with spr := { queue := [{ kind := 0, region := 32, arg := 0, pol := 0, limit := 9 }] } }, { kind := 0, region := 32, arg := 0, pol := 0, limit := 9 }, [], by decide +kernel⟩,
   ⟨{ up with spr := { queue := [{ kind := 4, region := 32, arg := 8192, pol := 0, limit := 9 }] } }, { kind := 4, region := 32, arg := 8192, pol := 0, limit := 9 }, [], by decide +kernel⟩,
   ⟨{ up with spr := { rows := [(2, 8)], queue := [{ kind := 4, region := 32, arg := 8192, pol := 0, limit := 9 }] } }, { kind := 4, region := 32, arg := 8192, pol := 0, limit := 9 }, [], by decide +kernel⟩,
   ⟨{ State.wr (put (sprA 0x040) 0x101) (sprA 0x090) 3 with spr := { queue := [{ kind := 0, region := 32, arg := 0, pol := 0, limit := 9 }] } }, { kind := 0, region := 32, arg := 0, pol := 0, limit := 9 }, [], by decide +kernel⟩,
   ⟨{ State.wr (put (sprA 0x040) 0x101) (sprA 0x090) 3 with spr := { queue := [{ kind := 0, region := 32, arg := 0, pol := 0, limit := 9 }] } }, { kind := 0, region := 32, arg := 0, pol := 0, limit := 9 }, [], by decide +kernel⟩,
   ⟨{ put (sprA 0x040) 0x101 with spr := { queue := [{ kind := 4, region := 32, arg := 8192, pol := 0, limit := 9 }] } }, { kind := 4, region := 32, arg := 8192, pol := 0, limit := 9 }, [], by decide +kernel⟩,
   ⟨{ put (sprA 0x040) 0x101 with spr := { queue := [{ kind := 4, region := 32, arg := 8192, pol := 0, limit := 9 }] } }, { kind := 4, region := 32, arg := 8192, pol := 0, limit := 9 }, [], by decide +kernel⟩⟩

/-- States and operands that meet the hypotheses of EventsAreRecorded, clause by clause. -/
theorem witness_EventsAreRecorded :
    (∃ (s : State) (v : Ev) (rest : List Ev), (s.alive = true) ∧ (s.evNext = some (v, rest)) ∧ ((∀ m : Fin 4, s.b (dbgA (0x1C4 + 8 * m.val)) 0 = false)) ∧ (s.b (mirA 0x058) 6 = false) ∧ (s.b (pmcA 0x044) 1 = false) ∧ (s.regionDown 60 = false) ∧ (s.evr.loss = none) ∧ (s.evr.fixed = true) ∧ (s.b (evrA 0x044) 0 = true) ∧ (s.f (evrA 0x044) 17 16 ≤ evSeverity v.code) ∧ (s.evLevel < 56)) ∧
    (∃ (s : State) (v : Ev) (rest : List Ev), (s.alive = true) ∧ (s.evNext = some (v, rest)) ∧ ((∀ m : Fin 4, s.b (dbgA (0x1C4 + 8 * m.val)) 0 = false)) ∧ (s.b (mirA 0x058) 6 = false) ∧ (s.b (pmcA 0x044) 1 = false) ∧ (s.regionDown 60 = false) ∧ (s.evr.loss = none) ∧ (evSeverity v.code < s.f (evrA 0x044) 17 16)) ∧
    (∃ (s : State) (l : EvLoss), (s.alive = true) ∧ (s.regionDown 60 = false) ∧ (s.evr.loss = some l) ∧ (s.evLevel ≤ 32) ∧ (s.evr.fixed = true) ∧ (s.b (evrA 0x044) 0 = true)) ∧
    (∃ (s : State) (r : EvRec) (rest : List EvRec) (first : Bool) (second : Bool), (s.alive = true) ∧ (s.regionDown 60 = false) ∧ (s.b (evrA 0x040) 8 = true) ∧ (s.evr.fifo = r :: rest) ∧ ((first = true ∨ second = true))) ∧
    (∃ (s : State) (r : EvRec) (rest : List EvRec), (s.alive = true) ∧ (s.regionDown 60 = false) ∧ (s.b (evrA 0x040) 8 = true) ∧ (s.evr.fifo = r :: rest) ∧ (s.evr.werrAt = none)) ∧
    (∃ (s : State), (s.alive = true) ∧ (s.regionDown 60 = false) ∧ (s.b (evrA 0x040) 8 = true) ∧ (seconds 64 ≤ s.clk - s.evr.hdrAt) ∧ (s.evr.hdrA ≤ s.evr.hdrB) ∧ (s.evr.hdrB + 1 < 2 ^ 32)) ∧
    (∃ (s : State), (s.alive = true) ∧ (s.regionDown 60 = false) ∧ (s.b (evrA 0x040) 8 = true) ∧ (seconds 64 ≤ s.clk - s.evr.hdrAt) ∧ (s.evr.hdrB < s.evr.hdrA) ∧ (s.evr.hdrA + 1 < 2 ^ 32)) ∧
    (∃ (s : State), (s.alive = true) ∧ (s.regionDown 60 = false) ∧ (s.b (evrA 0x040) 8 = false) ∧ (s.evr.fixed = false) ∧ (s.evr.early = []) ∧ ((s.evHdr 0).1 = false) ∧ ((s.evHdr 1).1 = false) ∧ (recValid (s.slotRd 0) 0 = false)) ∧
    (∃ (s : State) (q : BitVec 24) (b : List Byte), (s.accepts (evrA 0x05C) (word q.toNat)) ∧ (s.evr.mirror.find? (fun b => decide (leAt b 13 3 = q.toNat)) = some b)) ∧
    (∃ (s : State) (q : BitVec 24), (s.accepts (evrA 0x05C) (word q.toNat)) ∧ (s.evr.mirror.find? (fun b => decide (leAt b 13 3 = q.toNat)) = none)) ∧
    (∃ (s : State) (v : BitVec 16), (s.accepts (evrA 0x0AC) (word v.toNat))) :=
  ⟨⟨{ put (evrA 0x044) 1 with evr := { fixed := true, waiting := [⟨8, 0x2001, 1, 2, 0, 0⟩] } }, ⟨8, 0x2001, 1, 2, 0, 0⟩, [], by decide +kernel⟩,
   ⟨{ put (evrA 0x044) 0x20001 with evr := { fixed := true, waiting := [⟨8, 0x2004, 1, 2, 0, 0⟩] } }, ⟨8, 0x2004, 1, 2, 0, 0⟩, [], by decide +kernel⟩,
   ⟨{ put (evrA 0x044) 1 with evr := { fixed := true, loss := some ⟨3, 0x2001, 0x2004, 7, 0⟩ } }, ⟨3, 0x2001, 0x2004, 7, 0⟩, by decide +kernel⟩,
   ⟨{ State.wr (put (evrA 0x044) 1) (evrA 0x040) 0x101 with evr := { fixed := true, fifo := [{ ev := ⟨8, 0x2001, 1, 2, 0, 0⟩, seq := 5 }] } }, { ev := ⟨8, 0x2001, 1, 2, 0, 0⟩, seq := 5 }, [], false, true, by decide +kernel⟩,
   ⟨{ State.wr (put (evrA 0x044) 1) (evrA 0x040) 0x101 with evr := { fixed := true, fifo := [{ ev := ⟨8, 0x2001, 1, 2, 0, 0⟩, seq := 5 }] } }, { ev := ⟨8, 0x2001, 1, 2, 0, 0⟩, seq := 5 }, [], by decide +kernel⟩,
   ⟨{ put (evrA 0x040) 0x100 with clk := 64 * 250000000, evr := { fixed := true, hdrB := 3 } }, by decide +kernel⟩,
   ⟨{ put (evrA 0x040) 0x100 with clk := 64 * 250000000, evr := { fixed := true, hdrA := 3 } }, by decide +kernel⟩,
   ⟨up, by decide +kernel⟩,
   ⟨{ up with evr := { mirror := [List.replicate 13 0 ++ [5, 0, 0] ++ List.replicate 16 1] } }, 5, List.replicate 13 0 ++ [5, 0, 0] ++ List.replicate 16 1, by decide +kernel⟩,
   ⟨up, 5, by decide +kernel⟩,
   ⟨up, 77, by decide +kernel⟩⟩

/-- States and operands that meet the hypotheses of SuppliesAndResetsAct, clause by clause. -/
theorem witness_SuppliesAndResetsAct :
    (∃ (s : State), (s.pmu.por = false) ∧ (s.pmu.railBad = none)) ∧
    (∃ (s : State), (s.alive = true)) ∧
    (∃ (s : State), (s.alive = true)) ∧
    (∃ (s : State) (r : Fin 3), (s.alive = true) ∧ ((r = 0 ∨ (r = 1 ∧ s.pmu.enSds = true) ∨ (r = 2 ∧ s.pmu.enHbm = true)))) ∧
    (∃ (s : State) (r : Fin 3), (s.alive = true) ∧ ((r = 0 ∨ (r = 1 ∧ s.pmu.enSds = true) ∨ (r = 2 ∧ s.pmu.enHbm = true)))) ∧
    (∃ (s : State), (s.accepts (topA 0x058) 0x52530001)) ∧
    (∃ (s : State), (s.alive = true) ∧ (s.topState = 0) ∧ (s.pmu.exited = none) ∧ (s.bootMode = 0 ∨ s.bootMode = 3)) ∧
    (∃ (s : State), (s.alive = true) ∧ (s.hif.perst = false) ∧ (s.bootMode = 0 ∨ s.bootMode = 2)) :=
  ⟨⟨State.reset, by decide +kernel⟩,
   ⟨up, by decide +kernel⟩,
   ⟨up, by decide +kernel⟩,
   ⟨{up with pmu := {up.pmu with enSds := true}}, 1, by decide +kernel⟩,
   ⟨{up with pmu := {up.pmu with enSds := true}}, 1, by decide +kernel⟩,
   ⟨up, by decide +kernel⟩,
   ⟨{State.reset with pmu := { por := true, enCore := true }}, by decide +kernel⟩,
   ⟨up, by decide +kernel⟩⟩

/-- States and operands that meet the hypotheses of LullIsEnteredAndLeft, clause by clause. -/
theorem witness_LullIsEnteredAndLeft :
    (∃ (s : State), (s.accepts (pmuA 0x044) 1)) ∧
    (∃ (s : State), (s.alive = true) ∧ (s.topState = 2) ∧ (s.pmu.reqN = true) ∧ (s.pmu.wakeN = true) ∧ (s.b (pmuA 0x048) 30 = true)) ∧
    (∃ (s : State), (s.alive = true) ∧ ((s.topState ≠ 2 ∨ s.pmu.wakeN = false ∨ s.b (pmuA 0x048) 30 = false))) ∧
    (∃ (s : State), (s.alive = true) ∧ (s.topState = 4)) ∧
    (∃ (s : State), (s.accepts (pmuA 0x044) 2)) ∧
    (∃ (s : State), (s.alive = true) ∧ (s.topState = 5)) ∧
    (∃ (s : State), (s.alive = true) ∧ (s.topState = 4 ∨ s.topState = 5)) ∧
    (∃ (s : State), (s.accepts (pmuA 0x044) 3)) ∧
    (∃ (s : State), (s.pmu.dying = true) ∧ (s.pmu.wakeN = true)) ∧
    (∃ (s : State) (p : Port), (s.pmu.lull = true) ∧ (s.pmu.wake = some (4, p.val))) ∧
    (∃ (s : State), (s.pmu.lull = true) ∧ (s.pmu.wake.isSome = true)) :=
  ⟨⟨up, by decide +kernel⟩,
   ⟨put (pmuA 0x048) 0x40000000, by decide +kernel⟩,
   ⟨put (topA 0x048) 2, by decide +kernel⟩,
   ⟨put (topA 0x048) 4, by decide +kernel⟩,
   ⟨put (topA 0x048) 5, by decide +kernel⟩,
   ⟨put (topA 0x048) 5, by decide +kernel⟩,
   ⟨put (topA 0x048) 5, by decide +kernel⟩,
   ⟨put (topA 0x048) 5, by decide +kernel⟩,
   ⟨{State.reset with pmu := { por := true, dying := true }}, by decide +kernel⟩,
   ⟨{State.reset with pmu := { por := true, lull := true, wake := some (4, 5) }}, 5, by decide +kernel⟩,
   ⟨{State.reset with pmu := { por := true, lull := true, wake := some (1, 0) }}, by decide +kernel⟩⟩

/-- States and operands that meet the hypotheses of WakeCausesAreLatched, clause by clause. -/
theorem witness_WakeCausesAreLatched :
    (∃ (s : State), (s.asleep = true) ∧ (s.alive = false) ∧ (s.pmu.wake = none) ∧ (bit (s.fw (pmuA 0x048)) 28 = true)) ∧
    (∃ (s : State), (s.asleep = true) ∧ (s.alive = false) ∧ ((s.pmu.wake.isSome = true ∨ bit (s.fw (pmuA 0x048)) 28 = false))) ∧
    (∃ (s : State), (s.asleep = true) ∧ (s.pmu.lull = true) ∧ (s.pmu.wake = none) ∧ (bit (s.fw (pmuA 0x048)) 29 = true)) ∧
    (∃ (s : State) (p : Port) (l : Fin 4), (s.asleep = true) ∧ (s.pmu.wake = none) ∧ ((s.mac p.val).armed % 2 = 1) ∧ ((s.mac p.val).armed / 2 ^ (2 + l.val) % 2 = 1) ∧ ((s.lane (p.val / 4 * 4 + l.val)).hadSignal = false)) ∧
    (∃ (s : State) (p : Port) (l : Fin 4), (s.asleep = true) ∧ (s.pmu.wake.isSome = true) ∧ ((s.mac p.val).armed % 2 = 1) ∧ ((s.mac p.val).armed / 2 ^ (2 + l.val) % 2 = 1) ∧ ((s.lane (p.val / 4 * 4 + l.val)).hadSignal = false)) ∧
    (∃ (s : State) (p : Port) (l : Fin 4), (((s.mac p.val).armed % 2 = 0 ∨ (s.mac p.val).armed / 2 ^ (2 + l.val) % 2 = 0 ∨ (s.lane (p.val / 4 * 4 + l.val)).hadSignal = true))) ∧
    (∃ (s : State) (p : Port) (bs : List Byte), (s.asleep = true) ∧ (s.pmu.wake = none) ∧ ((s.mac p.val).armed / 2 % 2 = 1) ∧ (64 ≤ bs.length) ∧ (leVal (bs.drop (bs.length - 4)) = crc32 (bs.take (bs.length - 4))) ∧ (∀ i : Fin 64, s.b (macA p.val (0x070 + 4 * (i.val / 32))) (i.val % 32) = true → beAt bs i.val 1 = s.f (macA p.val (0x080 + 4 * (i.val / 4))) (8 * (i.val % 4) + 7) (8 * (i.val % 4)))) ∧
    (∃ (s : State) (p : Port) (bs : List Byte), (s.asleep = true) ∧ (s.pmu.wake.isSome = true) ∧ ((s.mac p.val).armed / 2 % 2 = 1) ∧ (s.wakeMatch p.val bs = true)) ∧
    (∃ (s : State) (p : Port) (bs : List Byte), (((s.mac p.val).armed / 2 % 2 = 0 ∨ bs.length < 64 ∨ leVal (bs.drop (bs.length - 4)) ≠ crc32 (bs.take (bs.length - 4))))) :=
  ⟨⟨{State.reset with pmu := { por := true, lull := true }, regs := (put (pmuA 0x048) 0x10000000 {}).regs, inForce := [(pmuA 0x048, 0x10000000)]}, by decide +kernel⟩,
   ⟨{State.reset with pmu := { por := true, lull := true, wake := some (2, 0) }}, by decide +kernel⟩,
   ⟨{State.reset with pmu := { por := true, lull := true }, regs := (put (pmuA 0x048) 0x20000000 {}).regs, inForce := [(pmuA 0x048, 0x20000000)]}, by decide +kernel⟩,
   ⟨({State.reset with pmu := { por := true, lull := true }} : State).setMac 5 { armed := 4 * 15 + 1 }, 5, 2, by decide +kernel⟩,
   ⟨({State.reset with pmu := { por := true, lull := true, wake := some (1, 0) }} : State).setMac 5 { armed := 4 * 15 + 1 }, 5, 2, by decide +kernel⟩,
   ⟨({State.reset with pmu := { por := true, lull := true, wake := some (1, 0) }} : State).setMac 5 { armed := 2 }, 5, 2, by decide +kernel⟩,
   ⟨({State.reset with pmu := { por := true, lull := true }} : State).setMac 5 { armed := 2 }, 5, (List.replicate 60 0 ++ leBytes 4 (crc32 (List.replicate 60 0))), by decide +kernel⟩,
   ⟨({State.reset with pmu := { por := true, lull := true, wake := some (1, 0) }} : State).setMac 5 { armed := 2 }, 5, (List.replicate 60 0 ++ leBytes 4 (crc32 (List.replicate 60 0))), by decide +kernel⟩,
   ⟨({State.reset with pmu := { por := true, lull := true, wake := some (1, 0) }} : State).setMac 5 { armed := 2 }, 5, [0], by decide +kernel⟩⟩

/-- States and operands that meet the hypotheses of WardenAnswersAndEnrols, clause by clause. -/
theorem witness_WardenAnswersAndEnrols :
    (∃ (s : State) (cmd : WCmd) (rest : List WCmd), (s.commands cmd rest 0x0001) ∧ ((s.sec.nonces.at [] cmd.dom).isEmpty = false)) ∧
    (∃ (s : State) (cmd : WCmd) (rest : List WCmd), (s.commands cmd rest 0x0001) ∧ (s.sec.nonces.at [] cmd.dom = [])) ∧
    (∃ (s : State) (cmd : WCmd) (rest : List WCmd), (s.commands cmd rest 0x0010) ∧ (s.authentic cmd.input)) ∧
    (∃ (s : State) (cmd : WCmd) (rest : List WCmd), (s.commands cmd rest 0x0030) ∧ (s.authentic cmd.input) ∧ (s.b (topA 0x300) 24 = false) ∧ (s.b (topA 0x300) 12 = false)) ∧
    (∃ (s : State) (cmd : WCmd) (rest : List WCmd), (s.commands cmd rest 0x0031) ∧ (s.authentic cmd.input) ∧ (s.b (topA 0x300) 24 = false) ∧ (s.setOpenFor cmd.dom = true) ∧ (s.f (topA 0x300) 10 8 < 4)) ∧
    (∃ (s : State) (cmd : WCmd) (rest : List WCmd), (s.commands cmd rest 0x0032) ∧ (s.authentic cmd.input) ∧ (s.b (topA 0x300) 24 = false) ∧ (s.setOpenFor cmd.dom = true) ∧ (topA 0x300 ∉ s.ver.staged)) ∧
    (∃ (s : State) (cmd : WCmd) (rest : List WCmd), (s.commands cmd rest 0x0050) ∧ (s.authCheck cmd.input = 3) ∧ ((s.sec.badSig.at [] cmd.dom).length < 15)) :=
  ⟨⟨wup (wcmd 2 0x0001 [] 0x69ed5d88f316eb6898bb64cab22d574788428f0c9728d16512dd2e2291b5d6265e3929374b2607877607bc63b329e53cd7d940c7b44c38325ec5aa54c28909c7f8fa183c7d272c6a60671214fdde9f779806f0028c90f8d37760646d11798cc8) {} (up), wcmd 2 0x0001 [] 0x69ed5d88f316eb6898bb64cab22d574788428f0c9728d16512dd2e2291b5d6265e3929374b2607877607bc63b329e53cd7d940c7b44c38325ec5aa54c28909c7f8fa183c7d272c6a60671214fdde9f779806f0028c90f8d37760646d11798cc8, [], by decide +kernel⟩,
   ⟨{ wup (wcmd 2 0x0001 [] 0x69ed5d88f316eb6898bb64cab22d574788428f0c9728d16512dd2e2291b5d6265e3929374b2607877607bc63b329e53cd7d940c7b44c38325ec5aa54c28909c7f8fa183c7d272c6a60671214fdde9f779806f0028c90f8d37760646d11798cc8) {} (up) with sec := { (wup (wcmd 2 0x0001 [] 0x69ed5d88f316eb6898bb64cab22d574788428f0c9728d16512dd2e2291b5d6265e3929374b2607877607bc63b329e53cd7d940c7b44c38325ec5aa54c28909c7f8fa183c7d272c6a60671214fdde9f779806f0028c90f8d37760646d11798cc8) {} (up)).sec with nonces := [] } }, wcmd 2 0x0001 [] 0x69ed5d88f316eb6898bb64cab22d574788428f0c9728d16512dd2e2291b5d6265e3929374b2607877607bc63b329e53cd7d940c7b44c38325ec5aa54c28909c7f8fa183c7d272c6a60671214fdde9f779806f0028c90f8d37760646d11798cc8, [], by decide +kernel⟩,
   ⟨{ wup (wcmd 2 0x0010 [4, 0x0E, 0x2A, 0x6D, 0xEC, 0x9D, 0x2B, 0x66, 6, 0x8F, 0x44, 0xD6, 0x62, 0x30, 0x31, 0x64, 0x68, 0xF8, 0x79, 6, 0x2B, 0, 0x62, 0xF6, 0xE6, 0x4C, 0x81, 0x26, 0x3E, 0xEF, 0x27, 0xC8, 9, 0x80, 0xC2, 0xB9, 0xDD, 0xD0, 0x43, 0x4C, 2, 0xBD, 0x5A, 0x37, 0x59, 0xB0, 0x69, 0x92, 0x0F, 0x6B, 0x9F, 0x39, 0x67, 0xB7, 0x8C, 0xD7, 0xE6, 0x45, 0x32, 0xA1, 0x96, 0x13, 0x33, 0xDF, 0x2B, 0x0C, 0x0B, 0xB4, 0x93, 0x5D, 0x97, 0x55, 0x24, 0x97, 0x16, 0x56, 0x18, 0x7D, 0xC2, 0x51, 0x3B, 0xE7, 0x80, 0xA0, 0xA1, 0x1B, 0x85, 0x54, 0x99, 4, 0x39, 0x62, 0xC3, 0x5F, 0x90, 0xB3, 8] 0x68372eb68e54c33897e8990b2af657e1f1ef19f655e62ad179ea52d633b277d91d5005477fee459cdc55d91799b9c273d42b56412f4e263f345ba88c514f3172f8cba5521f80ec1227669244f3f064e6c261e97814aca695b701dd5db7727be) {} (up) with sec := { (wup (wcmd 2 0x0010 [4, 0x0E, 0x2A, 0x6D, 0xEC, 0x9D, 0x2B, 0x66, 6, 0x8F, 0x44, 0xD6, 0x62, 0x30, 0x31, 0x64, 0x68, 0xF8, 0x79, 6, 0x2B, 0, 0x62, 0xF6, 0xE6, 0x4C, 0x81, 0x26, 0x3E, 0xEF, 0x27, 0xC8, 9, 0x80, 0xC2, 0xB9, 0xDD, 0xD0, 0x43, 0x4C, 2, 0xBD, 0x5A, 0x37, 0x59, 0xB0, 0x69, 0x92, 0x0F, 0x6B, 0x9F, 0x39, 0x67, 0xB7, 0x8C, 0xD7, 0xE6, 0x45, 0x32, 0xA1, 0x96, 0x13, 0x33, 0xDF, 0x2B, 0x0C, 0x0B, 0xB4, 0x93, 0x5D, 0x97, 0x55, 0x24, 0x97, 0x16, 0x56, 0x18, 0x7D, 0xC2, 0x51, 0x3B, 0xE7, 0x80, 0xA0, 0xA1, 0x1B, 0x85, 0x54, 0x99, 4, 0x39, 0x62, 0xC3, 0x5F, 0x90, 0xB3, 8] 0x68372eb68e54c33897e8990b2af657e1f1ef19f655e62ad179ea52d633b277d91d5005477fee459cdc55d91799b9c273d42b56412f4e263f345ba88c514f3172f8cba5521f80ec1227669244f3f064e6c261e97814aca695b701dd5db7727be) {} (up)).sec with keys := [], otp := [{ roots := [(2, [0x76, 0xA6, 0xC2, 0x9D, 0xBA, 0xB9, 0x33, 0x49, 0x48, 0xE3, 9, 0x5A, 0xD8, 0x88, 0x59, 0xF0, 0x31, 0x7B, 0xBC, 0x16, 0x94, 0x9B, 0xD4, 0x2B, 0x41, 0xC0, 0x1D, 0xCC, 0xB6, 0x61, 0x15, 0x8B, 3, 0x8D, 0xA0, 0x25, 0x1A, 0x3C, 0xC6, 0x94, 0x76, 0x65, 0x78, 0x83, 6, 0xF1, 0x44, 0x16])], algs := [(2, 1)] }, {}, {}, {}] } }, wcmd 2 0x0010 [4, 0x0E, 0x2A, 0x6D, 0xEC, 0x9D, 0x2B, 0x66, 6, 0x8F, 0x44, 0xD6, 0x62, 0x30, 0x31, 0x64, 0x68, 0xF8, 0x79, 6, 0x2B, 0, 0x62, 0xF6, 0xE6, 0x4C, 0x81, 0x26, 0x3E, 0xEF, 0x27, 0xC8, 9, 0x80, 0xC2, 0xB9, 0xDD, 0xD0, 0x43, 0x4C, 2, 0xBD, 0x5A, 0x37, 0x59, 0xB0, 0x69, 0x92, 0x0F, 0x6B, 0x9F, 0x39, 0x67, 0xB7, 0x8C, 0xD7, 0xE6, 0x45, 0x32, 0xA1, 0x96, 0x13, 0x33, 0xDF, 0x2B, 0x0C, 0x0B, 0xB4, 0x93, 0x5D, 0x97, 0x55, 0x24, 0x97, 0x16, 0x56, 0x18, 0x7D, 0xC2, 0x51, 0x3B, 0xE7, 0x80, 0xA0, 0xA1, 0x1B, 0x85, 0x54, 0x99, 4, 0x39, 0x62, 0xC3, 0x5F, 0x90, 0xB3, 8] 0x68372eb68e54c33897e8990b2af657e1f1ef19f655e62ad179ea52d633b277d91d5005477fee459cdc55d91799b9c273d42b56412f4e263f345ba88c514f3172f8cba5521f80ec1227669244f3f064e6c261e97814aca695b701dd5db7727be, [], by decide +kernel⟩,
   ⟨wup (wcmd 2 0x0030 [] 0xacd31444757a1a2362cd6655af6a55ffc766e6972fdbe5572580fb7b52ea08aab1729e7fc74c66e30a8be2c699afa8ae7f40e49e6cdd816917f33c9c336e81db87394f8eb0a25e86a9e4f730d5f4799396db3ee5f21ca6ee682b235c0d05eb1f) {} (up), wcmd 2 0x0030 [] 0xacd31444757a1a2362cd6655af6a55ffc766e6972fdbe5572580fb7b52ea08aab1729e7fc74c66e30a8be2c699afa8ae7f40e49e6cdd816917f33c9c336e81db87394f8eb0a25e86a9e4f730d5f4799396db3ee5f21ca6ee682b235c0d05eb1f, [], by decide +kernel⟩,
   ⟨wup (wcmd 2 0x0031 [] 0x133371c010f2d9ab465f9c5252677a7803e37ad4730d9ae981df3b3c1db30ee519bdfea32c41281104b8323929544f2382b01e93d3fc44bf2b36e2d74d9e02a24065124c6f8b5bee1094828de0f4b0c98171228130a6838c426a3424e369b8d) {} (put (topA 0x300) 0x21000), wcmd 2 0x0031 [] 0x133371c010f2d9ab465f9c5252677a7803e37ad4730d9ae981df3b3c1db30ee519bdfea32c41281104b8323929544f2382b01e93d3fc44bf2b36e2d74d9e02a24065124c6f8b5bee1094828de0f4b0c98171228130a6838c426a3424e369b8d, [], by decide +kernel⟩,
   ⟨wup (wcmd 2 0x0032 [] 0x2f22d2e6636287d867fa2100083db270a7328f95af9cad9bb050b95bc3260ba3643c6390940420adf9b67ab2bdb904f781a0dbd789fd7e8995c849f38e33085f7af6cf514a582a4483c0d9a4e428be6ed07cc2e9c34bf2e0c246559429db6f43) {} (put (topA 0x300) 0x21000), wcmd 2 0x0032 [] 0x2f22d2e6636287d867fa2100083db270a7328f95af9cad9bb050b95bc3260ba3643c6390940420adf9b67ab2bdb904f781a0dbd789fd7e8995c849f38e33085f7af6cf514a582a4483c0d9a4e428be6ed07cc2e9c34bf2e0c246559429db6f43, [], by decide +kernel⟩,
   ⟨wup (wcmd 2 0x0050 [1] 0x4961728ad2eb670f5583d81436322337f9d1608412017d7289b8f2cf8306d7b1e41da84e8eab9719029346f86ca4c5bb50b0874a9b5f22b87dde45238594199313404576df92c1d6ad28c5bb095e65d0a13138c01f67aa521d960b4508ce1aed), wcmd 2 0x0050 [1] 0x4961728ad2eb670f5583d81436322337f9d1608412017d7289b8f2cf8306d7b1e41da84e8eab9719029346f86ca4c5bb50b0874a9b5f22b87dde45238594199313404576df92c1d6ad28c5bb095e65d0a13138c01f67aa521d960b4508ce1aed, [], by decide +kernel⟩⟩

/-- States and operands that meet the hypotheses of WardenServesTenants, clause by clause. -/
theorem witness_WardenServesTenants :
    (∃ (s : State) (cmd : WCmd) (rest : List WCmd) (x : WItem) (k : Fin 5) (j : Fin 4096), (s.commands cmd rest 0x0020) ∧ (s.authentic cmd.input) ∧ (cmd.input.items = some [x]) ∧ (x.space = 2) ∧ (winItems x.addr x.len = some [.seqGen k.val j.val]) ∧ (s.b (secA 0x040) 8 = true) ∧ (s.itemOwner (.seqGen k.val j.val) = cmd.dom) ∧ (s.winKind (.warden cmd.dom) true x.addr x.data = 0)) ∧
    (∃ (s : State) (cmd : WCmd) (rest : List WCmd) (x : WItem) (k : Fin 5) (j : Fin 4096), (s.commands cmd rest 0x0021) ∧ (s.authentic cmd.input) ∧ (cmd.input.items = some [x]) ∧ (x.space = 2) ∧ (winItems x.addr x.len = some [.seqGen k.val j.val]) ∧ (s.b (secA 0x040) 8 = true) ∧ (s.itemOwner (.seqGen k.val j.val) = cmd.dom) ∧ (x.addr % 4 = 0) ∧ (x.len % 4 = 0) ∧ (4 ≤ x.len ∧ x.len ≤ 128)) ∧
    (∃ (s : State) (cmd : WCmd) (rest : List WCmd), (s.commands cmd rest 0x0040) ∧ (s.authentic cmd.input) ∧ (s.sec.gen < s.sec.otp.length)) ∧
    (∃ (s : State) (cmd : WCmd) (rest : List WCmd) (q : Nat) (i : Nat) (key : List Byte) (long : Bool), (s.commands cmd rest 0x0041) ∧ (s.authentic cmd.input) ∧ (q = beAt cmd.input.body 0 1 ∧ i = beAt cmd.input.body 1 1) ∧ (q < 16) ∧ (beAt cmd.input.body 2 1 < 8 ∧ beAt cmd.input.body 3 1 = 0) ∧ (long = decide (bitsOf (beAt cmd.input.body 2 1) 1 1 = 1)) ∧ ((long = false → beAt cmd.input.body 56 16 = 0)) ∧ (s.mscOwner q 2 i = cmd.dom) ∧ ((s.otpNow.keks.at [] cmd.dom).isEmpty = false) ∧ (Crypto.keyUnwrap (s.otpNow.keks.at [] cmd.dom) (slice cmd.input.body 32 (if long then 40 else 24)) = some key)) ∧
    (∃ (s : State) (cmd : WCmd) (rest : List WCmd) (q : Nat) (i : Nat), (s.commands cmd rest 0x0042) ∧ (s.authentic cmd.input) ∧ (q = beAt cmd.input.body 0 1 ∧ i = beAt cmd.input.body 1 1) ∧ (q < 16) ∧ (s.mscOwner q 2 i = cmd.dom)) ∧
    (∃ (s : State) (cmd : WCmd) (rest : List WCmd) (on : Bool), (s.commands cmd rest 0x0050) ∧ (s.authentic cmd.input) ∧ (on = decide (beAt cmd.input.body 0 1 % 2 = 1))) ∧
    (∃ (s : State) (cmd : WCmd) (rest : List WCmd) (on : Bool), (s.commands cmd rest 0x0051) ∧ (s.authentic cmd.input) ∧ (on = decide (beAt cmd.input.body 0 1 % 2 = 1))) ∧
    (∃ (s : State) (cmd : WCmd) (rest : List WCmd) (p : Port) (on : Bool), (s.commands cmd rest 0x0052) ∧ (s.authentic cmd.input) ∧ (p.val = beAt cmd.input.body 0 1) ∧ (on = decide (beAt cmd.input.body 1 1 % 2 = 1)) ∧ (s.b (mscA (p.val / 4) 4) 31 = false)) ∧
    (∃ (s : State) (cmd : WCmd) (rest : List WCmd), (s.commands cmd rest 0x0060) ∧ (s.authentic cmd.input)) ∧
    (∃ (s : State) (cmd : WCmd) (rest : List WCmd), (s.commands cmd rest 0x0070) ∧ (s.authentic cmd.input) ∧ (s.sec.gen + 1 < s.sec.otp.length)) :=
  ⟨⟨wup (wcmd 2 0x0020 [2, 0, 0, 0, 3, 7, 0, 0, 0, 4, 1, 0, 0, 2] 0x7cbd37b14d57a520fb49aebbad7b3e5a4e908d994ca6f3d17fb3df1ff84833d9f52b81a0400ce7c891d142e43886083ae4383507ac9b027a00662c21533981e96656ac5fd8337fab321d4948cfb68e746ae25ebb8386bc9c374a20c7c6031fbe) {} (State.winWr (put (secA 0x040) 0x100) 0x3070000 [0, 0, 0, 2]), wcmd 2 0x0020 [2, 0, 0, 0, 3, 7, 0, 0, 0, 4, 1, 0, 0, 2] 0x7cbd37b14d57a520fb49aebbad7b3e5a4e908d994ca6f3d17fb3df1ff84833d9f52b81a0400ce7c891d142e43886083ae4383507ac9b027a00662c21533981e96656ac5fd8337fab321d4948cfb68e746ae25ebb8386bc9c374a20c7c6031fbe, [], ⟨2, 0, 0x3070000, 4, [1, 0, 0, 2]⟩, 0, 0, by decide +kernel⟩,
   ⟨wup (wcmd 2 0x0021 [2, 0, 0, 0, 3, 7, 0, 0, 0, 4] 0xa30390ad3888166e0eb8f11d612fc844708be4f9180222c8416240269c153bb81a239d5594c09d314377466f369a1fd05c75f0520ee9fbfd857f71098f814292cbed462dad54193747f2d968399924e21520ad71fb7f615c2e68ddd3d1b08e18) {} (State.winWr (put (secA 0x040) 0x100) 0x3070000 [0, 0, 0, 2]), wcmd 2 0x0021 [2, 0, 0, 0, 3, 7, 0, 0, 0, 4] 0xa30390ad3888166e0eb8f11d612fc844708be4f9180222c8416240269c153bb81a239d5594c09d314377466f369a1fd05c75f0520ee9fbfd857f71098f814292cbed462dad54193747f2d968399924e21520ad71fb7f615c2e68ddd3d1b08e18, [], ⟨2, 0, 0x3070000, 4, []⟩, 0, 0, by decide +kernel⟩,
   ⟨wup (wcmd 2 0x0040 [0, 1, 2, 3, 4, 5, 6, 7, 8, 9, 0x0A, 0x0B, 0x0C, 0x0D, 0x0E, 0x0F, 0x10, 0x11, 0x12, 0x13, 0x14, 0x15, 0x16, 0x17, 0x18, 0x19, 0x1A, 0x1B, 0x1C, 0x1D, 0x1E, 0x1F] 0x347fa76cb0dae0e1ddfb0165c9fda7ae84b411332fb89b34985015de1b7bd188b43a220e4e9756307d0ddd804975bfdb42add292e6f37b72766d2f75a037b6d6951fea5841617e55aee5cc4ca4dc5016d9ce900c4e777a5620a37cd6f06c6202) { fuses := 1 } (put (secA 0x040) 1), wcmd 2 0x0040 [0, 1, 2, 3, 4, 5, 6, 7, 8, 9, 0x0A, 0x0B, 0x0C, 0x0D, 0x0E, 0x0F, 0x10, 0x11, 0x12, 0x13, 0x14, 0x15, 0x16, 0x17, 0x18, 0x19, 0x1A, 0x1B, 0x1C, 0x1D, 0x1E, 0x1F] 0x347fa76cb0dae0e1ddfb0165c9fda7ae84b411332fb89b34985015de1b7bd188b43a220e4e9756307d0ddd804975bfdb42add292e6f37b72766d2f75a037b6d6951fea5841617e55aee5cc4ca4dc5016d9ce900c4e777a5620a37cd6f06c6202, [], by decide +kernel⟩,
   ⟨wup (wcmd 2 0x0041 [3, 5, 2, 0, 0, 0, 0, 7, 0, 0, 0, 0, 0, 0, 0, 1, 0, 1, 2, 3, 4, 5, 6, 7, 8, 9, 0x0A, 0x0B, 0, 0, 0, 9, 0x28, 0xC9, 0xF4, 4, 0xC4, 0xB8, 0x10, 0xF4, 0xCB, 0xCC, 0xB3, 0x5C, 0xFB, 0x87, 0xF8, 0x26, 0x3F, 0x57, 0x86, 0xE2, 0xD8, 0x0E, 0xD3, 0x26, 0xCB, 0xC7, 0xF0, 0xE7, 0x1A, 0x99, 0xF4, 0x3B, 0xFB, 0x98, 0x8B, 0x9B, 0x7A, 2, 0xDD, 0x21] 0x3e2543dc7a0d13a10656602ef602202fe5e68aba4d24aa671867ff4682e0bf0ccb34dc7a10ddc99c8ccc61a958dc86ea0ebe3f6cc0eb92fa0071b9a80c41adbe7fd9694000fb513abec06d18a65eae4d24272796ac82178e33cb5f1383f0401a) { keks := [(2, [0, 1, 2, 3, 4, 5, 6, 7, 8, 9, 0x0A, 0x0B, 0x0C, 0x0D, 0x0E, 0x0F, 0x10, 0x11, 0x12, 0x13, 0x14, 0x15, 0x16, 0x17, 0x18, 0x19, 0x1A, 0x1B, 0x1C, 0x1D, 0x1E, 0x1F])] } (State.mscPut up 3 2 5 [0, 2]), wcmd 2 0x0041 [3, 5, 2, 0, 0, 0, 0, 7, 0, 0, 0, 0, 0, 0, 0, 1, 0, 1, 2, 3, 4, 5, 6, 7, 8, 9, 0x0A, 0x0B, 0, 0, 0, 9, 0x28, 0xC9, 0xF4, 4, 0xC4, 0xB8, 0x10, 0xF4, 0xCB, 0xCC, 0xB3, 0x5C, 0xFB, 0x87, 0xF8, 0x26, 0x3F, 0x57, 0x86, 0xE2, 0xD8, 0x0E, 0xD3, 0x26, 0xCB, 0xC7, 0xF0, 0xE7, 0x1A, 0x99, 0xF4, 0x3B, 0xFB, 0x98, 0x8B, 0x9B, 0x7A, 2, 0xDD, 0x21] 0x3e2543dc7a0d13a10656602ef602202fe5e68aba4d24aa671867ff4682e0bf0ccb34dc7a10ddc99c8ccc61a958dc86ea0ebe3f6cc0eb92fa0071b9a80c41adbe7fd9694000fb513abec06d18a65eae4d24272796ac82178e33cb5f1383f0401a, [], 3, 5, [0, 0x11, 0x22, 0x33, 0x44, 0x55, 0x66, 0x77, 0x88, 0x99, 0xAA, 0xBB, 0xCC, 0xDD, 0xEE, 0xFF, 0, 1, 2, 3, 4, 5, 6, 7, 8, 9, 0x0A, 0x0B, 0x0C, 0x0D, 0x0E, 0x0F], true, by decide +kernel⟩,
   ⟨wup (wcmd 2 0x0042 [3, 5] 0xcccc62113fee8d7294c8ad1ab006a5bebb5f0ef40b6cce2ec9989bc6e0af2857e2964e2875b52512a7a16eeed7e4ed8423dc0ccbfcab247b5d5e721fbcb78384fc18dc9c66417c763571bd66e5173bf324956cb38870de426848c2e32880ed84) {} (State.mscPut up 3 2 5 ([1, 2] ++ List.replicate 62 7)), wcmd 2 0x0042 [3, 5] 0xcccc62113fee8d7294c8ad1ab006a5bebb5f0ef40b6cce2ec9989bc6e0af2857e2964e2875b52512a7a16eeed7e4ed8423dc0ccbfcab247b5d5e721fbcb78384fc18dc9c66417c763571bd66e5173bf324956cb38870de426848c2e32880ed84, [], 3, 5, by decide +kernel⟩,
   ⟨wup (wcmd 2 0x0050 [1] 0x4961728ad2eb670f5583d81436322337f9d1608412017d7289b8f2cf8306d7b1e41da84e8eab9719029346f86ca4c5bb50b0874a9b5f22b87dde45238594199313404576df92c1d6ad28c5bb095e65d0a13138c01f67aa521d960b4508ce1aec) {} (up), wcmd 2 0x0050 [1] 0x4961728ad2eb670f5583d81436322337f9d1608412017d7289b8f2cf8306d7b1e41da84e8eab9719029346f86ca4c5bb50b0874a9b5f22b87dde45238594199313404576df92c1d6ad28c5bb095e65d0a13138c01f67aa521d960b4508ce1aec, [], true, by decide +kernel⟩,
   ⟨wup (wcmd 2 0x0051 [1] 0x17febf59974c2752d67d6f0e127a51c01a93077d511eeae3ed6d9abb6c5d97ee4679fc4029e5e6389c765ac7a18b032bd841ce84bb193b0f47dbe11cdd55d0bba763e764245e08864960142f968dca4621e12b8581c4977762ec29f383211b03) {} (up), wcmd 2 0x0051 [1] 0x17febf59974c2752d67d6f0e127a51c01a93077d511eeae3ed6d9abb6c5d97ee4679fc4029e5e6389c765ac7a18b032bd841ce84bb193b0f47dbe11cdd55d0bba763e764245e08864960142f968dca4621e12b8581c4977762ec29f383211b03, [], true, by decide +kernel⟩,
   ⟨wup (wcmd 2 0x0052 [9, 1] 0x42091967350777162d4ad8b19f458e9a7e33077065245c89df04551cf91431634eda59242f6e1cc3edf9a53ec73bc2dff86c7ab7c31cd9bcbb9c980c626a3a044f5ed98540ca67d3bc89430b2f0ec7bf99bd4dff6b2b98d3d4c90ff37ce3738) {} (up), wcmd 2 0x0052 [9, 1] 0x42091967350777162d4ad8b19f458e9a7e33077065245c89df04551cf91431634eda59242f6e1cc3edf9a53ec73bc2dff86c7ab7c31cd9bcbb9c980c626a3a044f5ed98540ca67d3bc89430b2f0ec7bf99bd4dff6b2b98d3d4c90ff37ce3738, [], 9, true, by decide +kernel⟩,
   ⟨wup (wcmd 2 0x0060 [] 0xb14c2b4ea576805cd2ce5618bccbd8f66a549d3925c9caded24f5fdd92cd2066b7bef49673684b440552fee9f1c06dc547e5de9fedad3d0f6ead8ea9f7f0bc729b317a267d7bf86d0a68f1c744bcf4009eeae8534673af16a0f419a48e50a88c) {} (up), wcmd 2 0x0060 [] 0xb14c2b4ea576805cd2ce5618bccbd8f66a549d3925c9caded24f5fdd92cd2066b7bef49673684b440552fee9f1c06dc547e5de9fedad3d0f6ead8ea9f7f0bc729b317a267d7bf86d0a68f1c744bcf4009eeae8534673af16a0f419a48e50a88c, [], by decide +kernel⟩,
   ⟨wup (wcmd 0 0x0070 [] 0xee8bb8dcb20ad5860460b04c2c58e0301a91972883d6eb5f4d2d76303787a5e5bb20cc5c9eabc6f1902dd876721cb72ee905b4b1e7a2709740a8c0695b87e05604be333639b3cde7d6b9369d4767ca48e377de60492048a9a8b5a22507b00293) {} (put (secA 0x040) 1), wcmd 0 0x0070 [] 0xee8bb8dcb20ad5860460b04c2c58e0301a91972883d6eb5f4d2d76303787a5e5bb20cc5c9eabc6f1902dd876721cb72ee905b4b1e7a2709740a8c0695b87e05604be333639b3cde7d6b9369d4767ca48e377de60492048a9a8b5a22507b00293, [], by decide +kernel⟩⟩

/-- States and operands that meet the hypotheses of AllocationsAndSealsAct, clause by clause. -/
theorem witness_AllocationsAndSealsAct :
    (∃ (s : State) (ok : Bool) (a : Alloc), (s.accepts (secA 0x044) 1) ∧ (s.allocList.length = 16) ∧ (a = allocOf s.allocList) ∧ (a.kind = 0x0B ∧ a.count = 1) ∧ (s.allocCheck s.allocList ok = 1)) ∧
    (∃ (s : State) (ok : Bool), (s.accepts (secA 0x044) 1) ∧ (s.allocCheck s.allocList ok = 1)) ∧
    (∃ (s : State), (s.accepts (secA 0x044) 1) ∧ (s.sealState = 0) ∧ (s.sec.gen < s.sec.otp.length) ∧ (s.allocCheck s.allocList true = 1)) ∧
    (∃ (s : State) (ok : Bool), (s.accepts (secA 0x044) 1) ∧ (s.allocCheck s.allocList ok ≠ 1)) ∧
    (∃ (s : State) (slot : Dom) (alg : BitVec 2), (s.accepts (secA 0x044) (word (2 + slot.val * 256 + alg.toNat * 4096))) ∧ (s.sealState ≠ 2) ∧ (s.sec.gen < s.sec.otp.length) ∧ (s.otpNow.roots.at [] slot.val = [])) ∧
    (∃ (s : State) (slot : Dom) (alg : BitVec 2), (s.accepts (secA 0x044) (word (2 + slot.val * 256 + alg.toNat * 4096))) ∧ (s.sealState = 2)) ∧
    (∃ (s : State) (slot : Dom) (alg : BitVec 2) (ok : Bool), (s.accepts (secA 0x044) (word (2 + slot.val * 256 + alg.toNat * 4096))) ∧ (s.sealState ≠ 2) ∧ ((s.otpNow.roots.at [] slot.val ≠ [] ∨ ok = false))) ∧
    (∃ (s : State) (op : Nat) (slot : Nat) (r : Nat), (s.b (secA 0x048) 31 = true) ∧ (s.sec.bell = (op, slot, r))) ∧
    (∃ (s : State), (s.accepts (topA 0x340) 1)) ∧
    (∃ (s : State), (s.b (topA 0x344) 31 = true) ∧ (s.sec.gen < s.sec.otp.length)) ∧
    (∃ (s : State), (s.b (topA 0x344) 31 = true)) ∧
    (∃ (s : State), (s.accepts (hifA 0x048) (word (2 ^ 31)))) :=
  ⟨⟨{ put (secA 0x054) 1 (put (secA 0x0C8) 1) with host := writeBytes [] 0 [0x0B, 2, 1, 0, 7, 0, 0, 0, 1, 0, 0, 0] }, true, ⟨0x0B, 2, 1, 7, 1⟩, by decide +kernel⟩,
   ⟨{ put (secA 0x054) 1 (put (secA 0x0C8) 1) with host := writeBytes [] 0 [0x0B, 2, 1, 0, 7, 0, 0, 0, 1, 0, 0, 0] }, true, by decide +kernel⟩,
   ⟨put (secA 0x054) 0, by decide +kernel⟩,
   ⟨put (secA 0x040) 0x100, true, by decide +kernel⟩,
   ⟨put (secA 0x140) 0x01020304, 3, 1, by decide +kernel⟩,
   ⟨put (secA 0x040) 2, 3, 1, by decide +kernel⟩,
   ⟨{ up with sec := { otp := [{ roots := [(3, [7])] }, {}, {}, {}] } }, 3, 1, true, by decide +kernel⟩,
   ⟨{ put (secA 0x048) 0x80000000 with sec := { up.sec with bell := (2, 3, 1) } }, 2, 3, 1, by decide +kernel⟩,
   ⟨put (secA 0x040) 0x101, by decide +kernel⟩,
   ⟨put (topA 0x344) 0x80000000, by decide +kernel⟩,
   ⟨put (topA 0x344) 0x80000000, by decide +kernel⟩,
   ⟨put (hifA 0x048) 0x81000000 (put (hifA 0x054) 3), by decide +kernel⟩⟩

/-- States and operands that meet the hypotheses of MacsecTablesAreReached, clause by clause. -/
theorem witness_MacsecTablesAreReached :
    (∃ (s : State) (q : Quad) (g : Fin 4) (i : BitVec 9), (s.accepts (mscA q.val 0x048) (word (2 ^ 24 + g.val * 65536 + i.toNat)))) ∧
    (∃ (s : State) (q : Quad) (g : Fin 4) (i : BitVec 9), (s.accepts (mscA q.val 0x048) (word (2 ^ 24 + 2 ^ 20 + g.val * 65536 + i.toNat)))) ∧
    (∃ (s : State) (q : Quad) (i : Nat), (s.b (mscA q.val 0x048) 31 = true) ∧ (s.b (mscA q.val 0x048) 20 = false) ∧ (s.f (mscA q.val 0x048) 17 16 = 2) ∧ (i = s.f (mscA q.val 0x048) 8 0) ∧ (i < 256) ∧ (s.sec.views = [])) ∧
    (∃ (s : State) (q : Quad) (i : Nat), (s.b (mscA q.val 0x048) 31 = true) ∧ (s.b (mscA q.val 0x048) 20 = true) ∧ (s.f (mscA q.val 0x048) 17 16 = 0) ∧ (i = s.f (mscA q.val 0x048) 8 0) ∧ (i < 256) ∧ (mscBad 0 (s.mscData q.val) = false) ∧ (s.mscOwner q.val 0 i = 0) ∧ (scOwner (s.mscData q.val) = 0)) ∧
    (∃ (s : State) (q : Quad) (i : Nat), (s.b (mscA q.val 0x048) 31 = true) ∧ (s.b (mscA q.val 0x048) 20 = true) ∧ (s.f (mscA q.val 0x048) 17 16 = 0) ∧ (i = s.f (mscA q.val 0x048) 8 0) ∧ (i < 256) ∧ (mscBad 0 (s.mscData q.val) = false) ∧ (s.mscOwner q.val 0 i ≠ 0)) :=
  ⟨⟨up, 3, 2, 17, by decide +kernel⟩,
   ⟨up, 3, 2, 17, by decide +kernel⟩,
   ⟨State.mscPut (put (mscA 3 0x048) 0x80020011) 3 2 17 (List.replicate 64 5), 3, 17, by decide +kernel⟩,
   ⟨put (mscA 3 0x0C0) 0x55 (put (mscA 3 0x048) 0x80100011), 3, 17, by decide +kernel⟩,
   ⟨State.mscPut (put (mscA 3 0x048) 0x80100011) 3 0 17 [0, 0, 0, 0, 0, 0, 0, 0, 0, 4], 3, 17, by decide +kernel⟩⟩

/-- States and operands that meet the hypotheses of IslandMeasuresAndRecords, clause by clause. -/
theorem witness_IslandMeasuresAndRecords :
    (∃ (s : State) (c : Fin 4) (vb : List Bool) (ib : List Bool) (w : Nat), (s.islOn = true) ∧ (s.isl.circs.length = 4) ∧ (s.isl.bitsOk c.val vb ib = true) ∧ (s.isl.windowOf c.val ((s.isl.bitsIn c.val vb ib).streams.at {} c.val).win.length = true) ∧ (windowNum ((s.isl.bitsIn c.val vb ib).streams.at {} c.val).win = ((w * windowDen : Nat) : Int))) ∧
    (∃ (s : State) (c : Fin 4) (vb : List Bool) (ib : List Bool) (w : Nat), (s.islOn = true) ∧ (s.isl.circs.length = 4) ∧ (s.isl.bitsOk c.val vb ib = true) ∧ (s.isl.windowOf c.val ((s.isl.bitsIn c.val vb ib).streams.at {} c.val).win.length = true) ∧ (windowNum ((s.isl.bitsIn c.val vb ib).streams.at {} c.val).win = -(((w + 1) * windowDen : Nat) : Int))) ∧
    (∃ (s : State) (c : Fin 4) (vb : List Bool) (ib : List Bool), (s.islOn = true) ∧ (s.isl.circs.length = 4) ∧ (s.isl.bitsOk c.val vb ib = true) ∧ (s.isl.inFault c.val = true) ∧ ((s.isl.streams.at {} c.val).win = []) ∧ ((s.isl.circ c.val).cons < 2 ^ 64) ∧ ((s.isl.circ c.val).regen < 2 ^ 64)) ∧
    (∃ (s : State) (c : Fin 4) (vb : List Bool) (ib : List Bool), (s.islOn = true) ∧ (s.isl.bitsOk c.val vb ib = false ∨ s.isl.windowOf c.val ((s.isl.bitsIn c.val vb ib).streams.at {} c.val).win.length = false)) ∧
    (∃ (s : State) (i : Fin 8) (c : Fin 4), (s.islOn = true) ∧ (s.isl.circs.length = 4) ∧ (c.val = i.val / 2)) ∧
    (∃ (s : State), (s.islOn = true)) ∧
    (∃ (s : State) (c : Fin 4) (bits : List (List Bool × List Bool)) (k : Nat), (s.islOn = true) ∧ (s.isl.circs.length = 4) ∧ ((s.isl.streams.at {} c.val).whole = true) ∧ ((s.isl.streams.at {} c.val).bad = false) ∧ (s.isl.inFault c.val = false) ∧ ((((if s.isl.bitsOk c.val (bits.getD c.val ([], [])).1 (bits.getD c.val ([], [])).2 then s.isl.bitsIn c.val (bits.getD c.val ([], [])).1 (bits.getD c.val ([], [])).2 else s.isl).streams.at {} c.val).sec.map (fun p => p.1)) ≠ []) ∧ (k = classOf (((if s.isl.bitsOk c.val (bits.getD c.val ([], [])).1 (bits.getD c.val ([], [])).2 then s.isl.bitsIn c.val (bits.getD c.val ([], [])).1 (bits.getD c.val ([], [])).2 else s.isl).streams.at {} c.val).sec.map (fun p => p.1))) ∧ (k ≠ (s.isl.circ c.val).cls) ∧ ((s.isl.circ c.val).cand = k ∧ (s.isl.circ c.val).candN = 2)) ∧
    (∃ (s : State) (c : Fin 4) (bits : List (List Bool × List Bool)) (k : Nat), (s.islOn = true) ∧ (s.isl.circs.length = 4) ∧ ((s.isl.streams.at {} c.val).whole = true) ∧ ((s.isl.streams.at {} c.val).bad = false) ∧ (s.isl.inFault c.val = false) ∧ ((((if s.isl.bitsOk c.val (bits.getD c.val ([], [])).1 (bits.getD c.val ([], [])).2 then s.isl.bitsIn c.val (bits.getD c.val ([], [])).1 (bits.getD c.val ([], [])).2 else s.isl).streams.at {} c.val).sec.map (fun p => p.1)) ≠ []) ∧ (k = classOf (((if s.isl.bitsOk c.val (bits.getD c.val ([], [])).1 (bits.getD c.val ([], [])).2 then s.isl.bitsIn c.val (bits.getD c.val ([], [])).1 (bits.getD c.val ([], [])).2 else s.isl).streams.at {} c.val).sec.map (fun p => p.1))) ∧ (k ≠ (s.isl.circ c.val).cls) ∧ ((s.isl.circ c.val).cand ≠ k ∨ (s.isl.circ c.val).candN < 2)) ∧
    (∃ (s : State) (c : Fin 4) (bits : List (List Bool × List Bool)) (k : Nat), (s.islOn = true) ∧ (s.isl.circs.length = 4) ∧ ((s.isl.streams.at {} c.val).whole = true) ∧ ((s.isl.streams.at {} c.val).bad = false) ∧ (s.isl.inFault c.val = false) ∧ ((((if s.isl.bitsOk c.val (bits.getD c.val ([], [])).1 (bits.getD c.val ([], [])).2 then s.isl.bitsIn c.val (bits.getD c.val ([], [])).1 (bits.getD c.val ([], [])).2 else s.isl).streams.at {} c.val).sec.map (fun p => p.1)) ≠ []) ∧ (k = classOf (((if s.isl.bitsOk c.val (bits.getD c.val ([], [])).1 (bits.getD c.val ([], [])).2 then s.isl.bitsIn c.val (bits.getD c.val ([], [])).1 (bits.getD c.val ([], [])).2 else s.isl).streams.at {} c.val).sec.map (fun p => p.1))) ∧ (k = (s.isl.circ c.val).cls)) ∧
    (∃ (s : State) (c : Fin 4), (s.islOn = true) ∧ (s.isl.circs.length = 4) ∧ ((s.isl.streams.at {} c.val).whole = false ∨ (s.isl.streams.at {} c.val).bad = true ∨ s.isl.inFault c.val = true)) ∧
    (∃ (s : State), (s.islOn = true)) ∧
    (∃ (s : State), (s.islOn = true) ∧ (s.isl.circs.length = 4) ∧ (s.isl.period < periodAt s.islNow) ∧ (s.isl.lost = false) ∧ (s.isl.step = none) ∧ (s.isl.full = false) ∧ (s.isl.made - s.isl.coll < 16000) ∧ (s.isl.enabled 0 = true) ∧ (s.isl.enabled 1 = false ∧ s.isl.enabled 2 = false ∧ s.isl.enabled 3 = false)) ∧
    (∃ (s : State) (rec_ : List Byte), (s.islOn = true) ∧ (s.alive = true) ∧ (s.topState = 2) ∧ (s.isl.sent < s.isl.made) ∧ (s.isl.recordOf s.isl.sent = some rec_) ∧ (rec_.length = 128) ∧ (s.stageHeld 4 = 0)) ∧
    (∃ (s : State), (s.islOn = true) ∧ (s.alive = true)) ∧
    (∃ (s : State), (s.alive = true) ∧ (s.b (islA 0x040) 31 = true)) :=
  ⟨⟨{ up with isl := { islUp with streams := [(0, { win := List.replicate 80 (36000 * 2 ^ 45, 2 ^ 25) })] } }, 0, [], [], 1, by decide +kernel⟩,
   ⟨{ up with isl := { islUp with streams := [(0, { win := List.replicate 80 (-(36000 * 2 ^ 45), 2 ^ 25) })] } }, 0, [], [], 0, by decide +kernel⟩,
   ⟨{ up with isl := { islUp with faulty := [1], streams := [(0, { clocks := 40960 })] } }, 0, List.replicate 512 true, List.replicate 512 false, by decide +kernel⟩,
   ⟨{ up with isl := islUp }, 0, [true], [false], by decide +kernel⟩,
   ⟨{ up with isl := islUp }, 3, 1, by decide +kernel⟩,
   ⟨{ up with isl := { islUp with faulty := [3, 2] } }, by decide +kernel⟩,
   ⟨{ up with isl := { islUp with circs := [{}, { cand := 3, candN := 2 }, {}, {}], streams := [(1, { whole := true, sec := List.replicate 4 (3000 * 2 ^ 45, 2 ^ 45) })] } }, 1, [], 3, by decide +kernel⟩,
   ⟨{ up with isl := { islUp with streams := [(1, { whole := true, sec := List.replicate 4 (3000 * 2 ^ 45, 2 ^ 45) })] } }, 1, [], 3, by decide +kernel⟩,
   ⟨{ up with isl := { islUp with circs := [{}, { cls := 3, cand := 4, candN := 2 }, {}, {}], streams := [(1, { whole := true, sec := List.replicate 4 (3000 * 2 ^ 45, 2 ^ 45) })] } }, 1, [], 3, by decide +kernel⟩,
   ⟨{ up with isl := { islUp with faulty := [2], streams := [(1, { whole := true, sec := List.replicate 4 (3000 * 2 ^ 45, 2 ^ 45) })] } }, 1, by decide +kernel⟩,
   ⟨{ up with isl := islUp }, by decide +kernel⟩,
   ⟨{ up with isl := { islUp with base := 300 * 10 ^ 9 * 6, period := 5, circs := [{ cons := 5 * 2 ^ 20 + 3 }, {}, {}, {}] } }, by decide +kernel⟩,
   ⟨{ up with isl := { islUp with mram := writeBytes [] 0 (0x4E :: List.replicate 127 7), made := 1 } }, (0x4E :: List.replicate 127 7), by decide +kernel⟩,
   ⟨{ up with isl := { islUp with made := 3, sent := 2, coll := 1 } }, by decide +kernel⟩,
   ⟨put (islA 0x040) 0x80000000 ({ up with isl := islUp }), by decide +kernel⟩⟩

/-- States and operands that meet the hypotheses of IslandTakesTimeAndSeals, clause by clause. -/
theorem witness_IslandTakesTimeAndSeals :
    (∃ (s : State) (bs : List Byte) (rest : List (List Byte)) (b : List Byte) (cal : Bool) (d : Int), (s.islOn = true) ∧ (s.isl.inbox = bs :: rest) ∧ (mailPayload bs = some b) ∧ (s.mailCheck cal (some b) = 0) ∧ (beAt b 0 1 = 2) ∧ (beAt b 1 1 = 1) ∧ (s.isl.sealed_ = true ∨ cal = false) ∧ (s.isl.lost = false) ∧ (d = ((beAt b 2 6 * secNs + beAt b 8 4 : Nat) : Int) - (s.islNow : Int)) ∧ (2 * secNs ≤ d.natAbs ∧ d.natAbs ≤ 60 * secNs) ∧ (s.isl.lastStep = none)) ∧
    (∃ (s : State) (bs : List Byte) (rest : List (List Byte)) (b : List Byte) (cal : Bool) (d : Int), (s.islOn = true) ∧ (s.isl.inbox = bs :: rest) ∧ (mailPayload bs = some b) ∧ (s.mailCheck cal (some b) = 0) ∧ (beAt b 0 1 = 2) ∧ (beAt b 1 1 = 1) ∧ (s.isl.sealed_ = true ∨ cal = false) ∧ (s.isl.lost = false) ∧ (d = ((beAt b 2 6 * secNs + beAt b 8 4 : Nat) : Int) - (s.islNow : Int)) ∧ (d.natAbs < 2 * secNs)) ∧
    (∃ (s : State) (bs : List Byte) (rest : List (List Byte)) (b : List Byte) (cal : Bool) (n : Nat), (s.islOn = true) ∧ (s.isl.inbox = bs :: rest) ∧ (mailPayload bs = some b) ∧ (s.mailCheck cal (some b) = 0) ∧ (beAt b 0 1 = 2) ∧ (beAt b 1 1 = 1) ∧ (s.isl.sealed_ = true ∨ cal = false) ∧ (s.isl.lost = true) ∧ (n = beAt b 2 6 * secNs + beAt b 8 4) ∧ (s.isl.full = false) ∧ (s.isl.made - s.isl.coll < 16000) ∧ (s.isl.enabled 0 = false ∧ s.isl.enabled 1 = false ∧ s.isl.enabled 2 = false ∧ s.isl.enabled 3 = false)) ∧
    (∃ (s : State) (bs : List Byte) (rest : List (List Byte)) (b : List Byte) (cal : Bool), (s.islOn = true) ∧ (s.isl.inbox = bs :: rest) ∧ (mailPayload bs = some b) ∧ (s.mailCheck cal (some b) = 0) ∧ (beAt b 0 1 = 2) ∧ (beAt b 1 1 = 2)) ∧
    (∃ (s : State) (bs : List Byte) (rest : List (List Byte)) (b : List Byte) (cal : Bool), (s.islOn = true) ∧ (s.isl.inbox = bs :: rest) ∧ (mailPayload bs = some b) ∧ (s.mailCheck cal (some b) = 0) ∧ (beAt b 0 1 = 2) ∧ (beAt b 1 1 = 8) ∧ (s.isl.full = false)) ∧
    (∃ (s : State) (bs : List Byte) (rest : List (List Byte)) (b : List Byte) (cal : Bool), (s.islOn = true) ∧ (s.isl.inbox = bs :: rest) ∧ (mailPayload bs = some b) ∧ (s.mailCheck cal (some b) ≠ 0)) ∧
    (∃ (s : State) (bs : List Byte) (rest : List (List Byte)) (b : List Byte) (cal : Bool), (s.islOn = true) ∧ (s.isl.inbox = bs :: rest) ∧ (mailPayload bs = some b) ∧ (s.mailCheck cal (some b) = 0) ∧ (beAt b 0 1 = 3) ∧ (s.isl.full = false) ∧ (s.isl.made - s.isl.coll < 16000)) ∧
    (∃ (s : State) (bs : List Byte) (rest : List (List Byte)) (b : List Byte) (cal : Bool), (s.islOn = true) ∧ (s.isl.inbox = bs :: rest) ∧ (mailPayload bs = some b) ∧ (s.mailCheck cal (some b) = 0) ∧ (beAt b 0 1 = 4) ∧ (slice b 1 48 = Crypto.sha384 s.isl.cfg) ∧ (s.isl.gens < 4)) ∧
    (∃ (s : State) (bs : List Byte) (rest : List (List Byte)) (b : List Byte) (cal : Bool), (s.islOn = true) ∧ (s.isl.inbox = bs :: rest) ∧ (mailPayload bs = some b) ∧ (s.mailCheck cal (some b) = 0) ∧ (beAt b 0 1 = 4) ∧ (slice b 1 48 ≠ Crypto.sha384 s.isl.cfg)) ∧
    (∃ (s : State) (a : Nat), (s.islOn = true) ∧ (s.isl.armedAt = some a) ∧ (s.isl.sealed_ = false) ∧ (s.isl.gens < 4) ∧ (s.clk ≤ a + seconds 60) ∧ (s.isl.full = false) ∧ (s.isl.made - s.isl.coll < 16000)) ∧
    (∃ (s : State), (s.islOn = true) ∧ (s.isl.sealed_ = true) ∧ (s.isl.full = false) ∧ (s.isl.made - s.isl.coll < 16000)) ∧
    (∃ (s : State), (s.islOn = true)) ∧
    (∃ (s : State), (s.isl.run = true) ∧ (s.isl.hold = true) ∧ (periodAt s.islNow ≤ s.isl.period)) ∧
    (∃ (s : State), (s.isl.run = true) ∧ (s.isl.hold = true) ∧ (s.isl.circs.length = 4) ∧ (periodAt s.islNow = s.isl.period + 1) ∧ (s.isl.lost = false) ∧ (s.isl.step = none) ∧ (s.isl.full = false) ∧ (s.isl.made - s.isl.coll < 16000) ∧ (s.isl.enabled 0 = true) ∧ (s.isl.enabled 1 = false ∧ s.isl.enabled 2 = false ∧ s.isl.enabled 3 = false)) ∧
    (∃ (s : State), (s.isl.full = false) ∧ (s.isl.made - s.isl.coll < 16000)) ∧
    (∃ (s : State), (s.islOn = true) ∧ (s.isl.full = false) ∧ (s.isl.made - s.isl.coll < 16000)) :=
  ⟨⟨{ up with isl := { islUp with inbox := [[0, 0, 0, 0, 0, 0, 0, 0, 0, 0, 0, 0, 0x88, 0xB6, 2, 1, 0, 0, 0, 0, 0, 0x1E, 0, 0, 0, 0, 0, 0, 0, 0, 0, 0, 0, 0, 0, 0, 0, 0, 0, 0]], sealed_ := true } }, [0, 0, 0, 0, 0, 0, 0, 0, 0, 0, 0, 0, 0x88, 0xB6, 2, 1, 0, 0, 0, 0, 0, 0x1E, 0, 0, 0, 0, 0, 0, 0, 0, 0, 0, 0, 0, 0, 0, 0, 0, 0, 0], [], [2, 1, 0, 0, 0, 0, 0, 0x1E, 0, 0, 0, 0, 0, 0, 0, 0, 0, 0, 0, 0, 0, 0, 0, 0, 0, 0], false, 30 * 1000000000, by decide +kernel⟩,
   ⟨{ up with isl := { islUp with inbox := [[0, 0, 0, 0, 0, 0, 0, 0, 0, 0, 0, 0, 0x88, 0xB6, 2, 1, 0, 0, 0, 0, 0, 1, 0, 0, 0, 0, 0, 0, 0, 0, 0, 0, 0, 0, 0, 0, 0, 0, 0, 0]], sealed_ := true } }, [0, 0, 0, 0, 0, 0, 0, 0, 0, 0, 0, 0, 0x88, 0xB6, 2, 1, 0, 0, 0, 0, 0, 1, 0, 0, 0, 0, 0, 0, 0, 0, 0, 0, 0, 0, 0, 0, 0, 0, 0, 0], [], [2, 1, 0, 0, 0, 0, 0, 1, 0, 0, 0, 0, 0, 0, 0, 0, 0, 0, 0, 0, 0, 0, 0, 0, 0, 0], false, 1000000000, by decide +kernel⟩,
   ⟨{ up with isl := { up.isl with run := true, inbox := [[0, 0, 0, 0, 0, 0, 0, 0, 0, 0, 0, 0, 0x88, 0xB6, 2, 1, 0, 0, 0, 0, 3, 0xE8, 0, 0, 0, 0, 0, 0, 0, 0, 0, 0, 0, 0, 0, 0, 0, 0, 0, 0]], sealed_ := true, lost := true, cfg := [1, 0, 2, 2, 2, 2, 2, 2, 3, 3, 3, 3, 3, 3, 0, 5, 0, 0, 0, 1, 0, 0, 0, 0, 0, 0, 0, 0, 0, 0, 0, 0, 0, 0x8C, 0xA0, 0, 0, 1, 0, 0, 0, 0, 0, 0, 0, 0, 0, 0, 0, 0, 0, 0, 0, 0, 0, 0, 0, 0x8C, 0xA0, 0, 0, 1, 0, 0, 0, 0, 0, 0, 0, 0, 0, 0, 0, 0, 0, 0, 0, 0, 0, 0, 0, 0x8C, 0xA0, 0, 0, 1, 0, 0, 0, 0, 0, 0, 0, 0, 0, 0, 0, 0, 0, 0, 0, 0, 0, 0, 0, 0x8C, 0xA0, 0, 0, 1, 0, 0, 0, 0, 0, 0, 0, 0, 0, 0, 0, 0, 0, 0, 0, 0, 0, 0] } }, [0, 0, 0, 0, 0, 0, 0, 0, 0, 0, 0, 0, 0x88, 0xB6, 2, 1, 0, 0, 0, 0, 3, 0xE8, 0, 0, 0, 0, 0, 0, 0, 0, 0, 0, 0, 0, 0, 0, 0, 0, 0, 0], [], [2, 1, 0, 0, 0, 0, 3, 0xE8, 0, 0, 0, 0, 0, 0, 0, 0, 0, 0, 0, 0, 0, 0, 0, 0, 0, 0], false, 1000 * 1000000000, by decide +kernel⟩,
   ⟨{ up with isl := { islUp with inbox := [[0, 0, 0, 0, 0, 0, 0, 0, 0, 0, 0, 0, 0x88, 0xB6, 2, 2, 0, 0, 0, 0, 0, 0, 0, 0, 0, 0, 0, 0, 5, 0, 0, 6, 0, 0, 0, 0, 0, 0, 0, 0]], sealed_ := true } }, [0, 0, 0, 0, 0, 0, 0, 0, 0, 0, 0, 0, 0x88, 0xB6, 2, 2, 0, 0, 0, 0, 0, 0, 0, 0, 0, 0, 0, 0, 5, 0, 0, 6, 0, 0, 0, 0, 0, 0, 0, 0], [], [2, 2, 0, 0, 0, 0, 0, 0, 0, 0, 0, 0, 0, 0, 5, 0, 0, 6, 0, 0, 0, 0, 0, 0, 0, 0], false, by decide +kernel⟩,
   ⟨{ up with isl := { islUp with inbox := [[0, 0, 0, 0, 0, 0, 0, 0, 0, 0, 0, 0, 0x88, 0xB6, 2, 8, 0, 0, 0, 0, 0, 0, 0, 0, 0, 0, 0, 0, 0, 0, 0, 0, 0, 0, 0, 0, 0, 0, 0, 4]], sealed_ := true, made := 9, sent := 7 } }, [0, 0, 0, 0, 0, 0, 0, 0, 0, 0, 0, 0, 0x88, 0xB6, 2, 8, 0, 0, 0, 0, 0, 0, 0, 0, 0, 0, 0, 0, 0, 0, 0, 0, 0, 0, 0, 0, 0, 0, 0, 4], [], [2, 8, 0, 0, 0, 0, 0, 0, 0, 0, 0, 0, 0, 0, 0, 0, 0, 0, 0, 0, 0, 0, 0, 0, 0, 4], false, by decide +kernel⟩,
   ⟨{ up with isl := { islUp with inbox := [[0, 0, 0, 0, 0, 0, 0, 0, 0, 0, 0, 0, 0x88, 0xB6, 2, 1, 0, 0, 0, 0, 0, 0x1E, 0, 0, 0, 0, 0, 0, 0, 0, 0, 0, 0, 0]], sealed_ := true } }, [0, 0, 0, 0, 0, 0, 0, 0, 0, 0, 0, 0, 0x88, 0xB6, 2, 1, 0, 0, 0, 0, 0, 0x1E, 0, 0, 0, 0, 0, 0, 0, 0, 0, 0, 0, 0], [], [2, 1, 0, 0, 0, 0, 0, 0x1E, 0, 0, 0, 0, 0, 0, 0, 0, 0, 0, 0, 0], false, by decide +kernel⟩,
   ⟨{ up with isl := { islUp with inbox := [[0, 0, 0, 0, 0, 0, 0, 0, 0, 0, 0, 0, 0x88, 0xB6, 3, 1, 0x30, 2, 2, 2, 2, 2, 2, 3, 3, 3, 3, 3, 3, 0, 5, 0, 0, 0, 1, 0, 0, 0, 0, 0, 0, 0, 0, 0, 0, 0, 0, 0, 0x8C, 0xA0, 0, 0, 1, 0, 0, 0, 0, 0, 0, 0, 0, 0, 0, 0, 0, 0, 0, 0, 0, 0, 0, 0, 0x8C, 0xA0, 0, 0, 1, 0, 0, 0, 0, 0, 0, 0, 0, 0, 0, 0, 0, 0, 0, 0, 0, 0, 0, 0, 0x8C, 0xA0, 0, 0, 1, 0, 0, 0, 0, 0, 0, 0, 0, 0, 0, 0, 0, 0, 0, 0, 0, 0, 0, 0, 0x8C, 0xA0, 0, 0, 1, 0, 0, 0, 0, 0, 0, 0, 0, 0, 0, 0, 0, 0, 0, 0, 0, 0, 0]] } }, [0, 0, 0, 0, 0, 0, 0, 0, 0, 0, 0, 0, 0x88, 0xB6, 3, 1, 0x30, 2, 2, 2, 2, 2, 2, 3, 3, 3, 3, 3, 3, 0, 5, 0, 0, 0, 1, 0, 0, 0, 0, 0, 0, 0, 0, 0, 0, 0, 0, 0, 0x8C, 0xA0, 0, 0, 1, 0, 0, 0, 0, 0, 0, 0, 0, 0, 0, 0, 0, 0, 0, 0, 0, 0, 0, 0, 0x8C, 0xA0, 0, 0, 1, 0, 0, 0, 0, 0, 0, 0, 0, 0, 0, 0, 0, 0, 0, 0, 0, 0, 0, 0, 0x8C, 0xA0, 0, 0, 1, 0, 0, 0, 0, 0, 0, 0, 0, 0, 0, 0, 0, 0, 0, 0, 0, 0, 0, 0, 0x8C, 0xA0, 0, 0, 1, 0, 0, 0, 0, 0, 0, 0, 0, 0, 0, 0, 0, 0, 0, 0, 0, 0, 0], [], [3, 1, 0x30, 2, 2, 2, 2, 2, 2, 3, 3, 3, 3, 3, 3, 0, 5, 0, 0, 0, 1, 0, 0, 0, 0, 0, 0, 0, 0, 0, 0, 0, 0, 0, 0x8C, 0xA0, 0, 0, 1, 0, 0, 0, 0, 0, 0, 0, 0, 0, 0, 0, 0, 0, 0, 0, 0, 0, 0, 0, 0x8C, 0xA0, 0, 0, 1, 0, 0, 0, 0, 0, 0, 0, 0, 0, 0, 0, 0, 0, 0, 0, 0, 0, 0, 0, 0x8C, 0xA0, 0, 0, 1, 0, 0, 0, 0, 0, 0, 0, 0, 0, 0, 0, 0, 0, 0, 0, 0, 0, 0, 0, 0x8C, 0xA0, 0, 0, 1, 0, 0, 0, 0, 0, 0, 0, 0, 0, 0, 0, 0, 0, 0, 0, 0, 0, 0], true, by decide +kernel⟩,
   ⟨{ up with isl := { islUp with inbox := [[0, 0, 0, 0, 0, 0, 0, 0, 0, 0, 0, 0, 0x88, 0xB6, 4, 9, 0x16, 0xFA, 0xFC, 0xBC, 0x21, 0xFC, 0x0C, 0, 0x30, 0xED, 0x8F, 0xD3, 0x7F, 0x11, 0xA7, 0x22, 0xC6, 0x6D, 0xE1, 0xA9, 0x95, 0x4A, 0x8A, 0x7D, 0x7D, 0xA4, 0xCB, 0x0A, 0xD1, 0x98, 0xDA, 0xA8, 0x9D, 0x3A, 0xF3, 0xC6, 0x70, 0x6F, 0x13, 0x72, 0x12, 0xE5, 0x6C, 0x56, 0x54, 0x95, 0x30]] } }, [0, 0, 0, 0, 0, 0, 0, 0, 0, 0, 0, 0, 0x88, 0xB6, 4, 9, 0x16, 0xFA, 0xFC, 0xBC, 0x21, 0xFC, 0x0C, 0, 0x30, 0xED, 0x8F, 0xD3, 0x7F, 0x11, 0xA7, 0x22, 0xC6, 0x6D, 0xE1, 0xA9, 0x95, 0x4A, 0x8A, 0x7D, 0x7D, 0xA4, 0xCB, 0x0A, 0xD1, 0x98, 0xDA, 0xA8, 0x9D, 0x3A, 0xF3, 0xC6, 0x70, 0x6F, 0x13, 0x72, 0x12, 0xE5, 0x6C, 0x56, 0x54, 0x95, 0x30], [], [4, 9, 0x16, 0xFA, 0xFC, 0xBC, 0x21, 0xFC, 0x0C, 0, 0x30, 0xED, 0x8F, 0xD3, 0x7F, 0x11, 0xA7, 0x22, 0xC6, 0x6D, 0xE1, 0xA9, 0x95, 0x4A, 0x8A, 0x7D, 0x7D, 0xA4, 0xCB, 0x0A, 0xD1, 0x98, 0xDA, 0xA8, 0x9D, 0x3A, 0xF3, 0xC6, 0x70, 0x6F, 0x13, 0x72, 0x12, 0xE5, 0x6C, 0x56, 0x54, 0x95, 0x30], true, by decide +kernel⟩,
   ⟨{ up with isl := { islUp with inbox := [[0, 0, 0, 0, 0, 0, 0, 0, 0, 0, 0, 0, 0x88, 0xB6, 4, 0, 0, 0, 0, 0, 0, 0, 0, 0, 0, 0, 0, 0, 0, 0, 0, 0, 0, 0, 0, 0, 0, 0, 0, 0, 0, 0, 0, 0, 0, 0, 0, 0, 0, 0, 0, 0, 0, 0, 0, 0, 0, 0, 0, 0, 0, 0, 0]] } }, [0, 0, 0, 0, 0, 0, 0, 0, 0, 0, 0, 0, 0x88, 0xB6, 4, 0, 0, 0, 0, 0, 0, 0, 0, 0, 0, 0, 0, 0, 0, 0, 0, 0, 0, 0, 0, 0, 0, 0, 0, 0, 0, 0, 0, 0, 0, 0, 0, 0, 0, 0, 0, 0, 0, 0, 0, 0, 0, 0, 0, 0, 0, 0, 0], [], [4, 0, 0, 0, 0, 0, 0, 0, 0, 0, 0, 0, 0, 0, 0, 0, 0, 0, 0, 0, 0, 0, 0, 0, 0, 0, 0, 0, 0, 0, 0, 0, 0, 0, 0, 0, 0, 0, 0, 0, 0, 0, 0, 0, 0, 0, 0, 0, 0], true, by decide +kernel⟩,
   ⟨{ up with isl := { islUp with armedAt := some 0 } }, 0, by decide +kernel⟩,
   ⟨{ up with isl := { islUp with sealed_ := true, gens := 2 } }, by decide +kernel⟩,
   ⟨{ up with isl := islUp }, by decide +kernel⟩,
   ⟨{ up with isl := { islUp with hold := true } }, by decide +kernel⟩,
   ⟨{ up with isl := { islUp with hold := true, base := 300 * 10 ^ 9 * 6, period := 5 } }, by decide +kernel⟩,
   ⟨{ up with isl := { islUp with ckA := { seq := 3, time := 77 } } }, by decide +kernel⟩,
   ⟨{ up with isl := { islUp with ckA := { seq := 3, time := 77 } } }, by decide +kernel⟩⟩

/-- States and operands that meet the hypotheses of ProbeOpensHaltsAndSteps, clause by clause. -/
theorem witness_ProbeOpensHaltsAndSteps :
    (∃ (s : State), (s.wireAccepts 0x044 1) ∧ (s.tenantSas = [])) ∧
    (∃ (s : State), (s.wireAccepts 0x044 2) ∧ (s.dbgOpen = true) ∧ (s.b (dbgA 0x068) 31 = false)) ∧
    (∃ (s : State), (s.alive = true) ∧ (s.dbgOpen = true) ∧ (s.b (dbgA 0x068) 31 = false)) ∧
    (∃ (s : State) (w : Word), (s.wireAccepts 0x04C w) ∧ (s.f (dbgA 0x050) 9 0 < 1023)) ∧
    (∃ (s : State), (s.wireAccepts 0x044 3) ∧ (s.sec.gen < s.sec.otp.length)) ∧
    (∃ (s : State) (h : BitVec 5), (s.wireAccepts 0x054 (word h.toNat)) ∧ (∀ j : Fin 4, s.b (dbgA (0x180 + 16 * j.val)) 0 = false)) ∧
    (∃ (s : State) (k : Group) (n : Fin 11) (f : Frame), (s.wireAccepts 0x05C (word (k.val + n.val * 256))) ∧ (s.regionDown k.val = false) ∧ (s.stageToken k.val n.val = some f) ∧ ((s.stageToken k.val (n.val + 1)).isNone = true) ∧ (s.frame f.id = f) ∧ (f.held = false) ∧ (s.stageProgs k.val n.val f.version = [])) ∧
    (∃ (s : State) (k : Group) (n : Fin 12), (s.wireAccepts 0x05C (word (k.val + n.val * 256))) ∧ ((s.stageToken k.val n.val).isNone = true)) ∧
    (∃ (s : State) (k : Group) (n : Fin 12) (f : Frame), (s.wireAccepts 0x078 (word (k.val + n.val * 256))) ∧ (s.stageToken k.val n.val = some f)) ∧
    (∃ (s : State), (s.alive = true)) :=
  ⟨⟨up, by decide +kernel⟩,
   ⟨put (dbgA 0x040) 2 (put (dbgA 0x058) 5 (put (dbgA 0x054) 5)), by decide +kernel⟩,
   ⟨put (dbgA 0x040) 2 (put (dbgA 0x058) 5 (put (dbgA 0x054) 5)), by decide +kernel⟩,
   ⟨put (dbgA 0x040) 3, 0x01020304, by decide +kernel⟩,
   ⟨put (dbgA 0x040) 3, by decide +kernel⟩,
   ⟨put (dbgA 0x040) 2, 9, by decide +kernel⟩,
   ⟨{ put (dbgA 0x040) 2 (put (dbgA 0x058) 4) with frames := [(5, { id := 5, pipe := 2, place := .stage 4 })], nextId := 6 }, 2, 4, { id := 5, pipe := 2, place := .stage 4 }, by decide +kernel⟩,
   ⟨put (dbgA 0x040) 2 (put (dbgA 0x058) 4), 2, 4, by decide +kernel⟩,
   ⟨{ put (dbgA 0x040) 2 (put (dbgA 0x058) 4) with frames := [(5, { id := 5, pipe := 2, place := .stage 4 })], nextId := 6 }, 2, 4, { id := 5, pipe := 2, place := .stage 4 }, by decide +kernel⟩,
   ⟨put (secA 0x040) 1, by decide +kernel⟩⟩

/-- States and operands that meet the hypotheses of ProbeReachesMemory, clause by clause. -/
theorem witness_ProbeReachesMemory :
    (∃ (s : State) (sp : BitVec 3) (inc : Bool) (w : Bool), (s.wireAccepts 0x068 (word (1 + 2 * b2n w + 16 * b2n inc + 256 * sp.toNat))) ∧ (s.b (dbgA 0x068) 31 = false)) ∧
    (∃ (s : State) (a : Nat), (s.alive = true) ∧ (s.b (dbgA 0x068) 31 = true) ∧ (s.f (dbgA 0x068) 10 8 = 3) ∧ (s.b (dbgA 0x068) 1 = false) ∧ (s.b (dbgA 0x068) 4 = true) ∧ (a = (s.rd (dbgA 0x070)).toNat * 2 ^ 32 + (s.rd (dbgA 0x06C)).toNat) ∧ (a < 2 ^ 35 ∧ a % 4 = 0) ∧ (s.hbmBad a = false)) ∧
    (∃ (s : State) (a : Nat), (s.alive = true) ∧ (s.b (dbgA 0x068) 31 = true) ∧ (s.f (dbgA 0x068) 10 8 = 3) ∧ (s.b (dbgA 0x068) 1 = true) ∧ (s.b (dbgA 0x068) 4 = false) ∧ (a = (s.rd (dbgA 0x070)).toNat * 2 ^ 32 + (s.rd (dbgA 0x06C)).toNat) ∧ (a < 2 ^ 35 ∧ a % 4 = 0) ∧ (s.hbmBad a = false)) ∧
    (∃ (s : State) (w : Nat), (s.alive = true) ∧ (s.b (dbgA 0x068) 31 = true) ∧ (s.f (dbgA 0x068) 10 8 = 4) ∧ (s.b (dbgA 0x068) 1 = false) ∧ (s.f (dbgA 0x070) 6 0 = 30) ∧ (w = (s.rd (dbgA 0x06C)).toNat) ∧ (w < 5 * 16384 * 64)) ∧
    (∃ (s : State) (a : Nat), (s.alive = true) ∧ (s.b (dbgA 0x068) 31 = true) ∧ (s.f (dbgA 0x068) 10 8 = 3) ∧ (s.b (dbgA 0x068) 4 = false) ∧ (a = (s.rd (dbgA 0x070)).toNat * 2 ^ 32 + (s.rd (dbgA 0x06C)).toNat) ∧ (2 ^ 35 ≤ a)) :=
  ⟨⟨put (dbgA 0x040) 2, 3, true, false, by decide +kernel⟩,
   ⟨{ put (dbgA 0x068) 0x80000310 (put (dbgA 0x06C) 0x100) with hbm := writeBytes [] 0x100 [1, 2, 3, 4] }, 0x100, by decide +kernel⟩,
   ⟨put (dbgA 0x068) 0x80000302 (put (dbgA 0x06C) 0x100 (put (dbgA 0x074) 0x04030201)), 0x100, by decide +kernel⟩,
   ⟨{ put (dbgA 0x068) 0x80000400 (put (dbgA 0x06C) 0x11 (put (dbgA 0x070) 30)) with sram := writeBytes [] 0x44 [1, 2, 3, 4] }, 0x11, by decide +kernel⟩,
   ⟨put (dbgA 0x068) 0x80000302 (put (dbgA 0x070) 8), 0x800000000, by decide +kernel⟩⟩

/-- States and operands that meet the hypotheses of ImagesBoot, clause by clause. -/
theorem witness_ImagesBoot :
    (∃ (s : State), (s.alive = true) ∧ (s.topState ≤ 1) ∧ (s.pmu.loading = false) ∧ (s.bootMode = 1 ∨ s.bootMode = 2) ∧ (s.imgCheck = 0)) ∧
    (∃ (s : State) (k : Nat), (s.alive = true) ∧ (s.topState ≤ 1) ∧ (s.pmu.loading = false) ∧ (s.bootMode = 1 ∨ s.bootMode = 2) ∧ (s.imgCheck = k) ∧ (k ≠ 0) ∧ (s.pmu.alt = false) ∧ (s.pmu.acted = false)) ∧
    (∃ (s : State) (body : List Byte) (w : Word), (s.loads 1 body) ∧ (body.length = 8) ∧ (leAt body 0 4 = hifA 0x058) ∧ (w = word (leAt body 4 4)) ∧ (s.regCheck .boot true (resolve (hifA 0x058) w) = 0)) ∧
    (∃ (s : State) (body : List Byte) (a : Nat) (d : List Byte) (k : Fin 5) (j : Fin 4096), (s.loads 2 body) ∧ (winWrites body.length body = some [(a, d)]) ∧ (winItems a d.length = some [.seqGen k.val j.val]) ∧ (s.winKind .boot true a d = 0)) ∧
    (∃ (s : State) (body : List Byte) (c : List Byte) (e : List Byte) (tg : Nat) (index : Nat), (s.loads 3 body) ∧ (tableCmds body = [c]) ∧ (leAt c 0 2 = 1 + tg * 256) ∧ (leAt c 4 4 = index) ∧ (leAt c 8 2 = 1) ∧ (e = slice body (leAt c 16 8) (entSize tg)) ∧ (cmdRsv c = false) ∧ (s.cmdHead 1 tg (leAt c 2 1 % 8) index 1 = 0) ∧ (entRsv tg e = false) ∧ (entEnc tg e = false) ∧ (s.entGuard tg index 0 (s.ent 0 tg index) e = 0) ∧ (s.clash tg index e = false)) ∧
    (∃ (s : State) (body : List Byte) (c : WIn) (d : Dom), (s.loads 4 body) ∧ (sectDom (s.sect s.pmu.sect) = d.val) ∧ (sectCmds d.val body.length body = some [c]) ∧ (s.sectCheck d.val [c] = 0)) ∧
    (∃ (s : State) (body : List Byte) (d : Dom), (s.loads 4 body) ∧ (sectDom (s.sect s.pmu.sect) = d.val) ∧ ((match sectCmds d.val body.length body with | none => true | some cs => decide (s.sectCheck d.val cs ≠ 0)) = true)) ∧
    (∃ (s : State) (body : List Byte) (c : WIn) (d : Dom), (s.loads 4 body) ∧ (sectDom (s.sect s.pmu.sect) = d.val) ∧ (sectCmds d.val body.length body = some [c]) ∧ (s.sectCheck d.val [c] = 0)) ∧
    (∃ (s : State) (body : List Byte) (d : Dom), (s.loads 4 body) ∧ (sectDom (s.sect s.pmu.sect) = d.val) ∧ ((match sectCmds d.val body.length body with | none => true | some cs => decide (s.sectCheck d.val cs ≠ 0)) = true)) ∧
    (∃ (s : State) (body : List Byte) (ok : Bool) (a : Alloc), (s.loads 5 body) ∧ (body.length = 16) ∧ (a = allocOf body) ∧ (a.kind = 0x0B ∧ a.count = 1) ∧ (s.allocCheck body ok = 1)) ∧
    (∃ (s : State) (body : List Byte) (m : Word) (v : Word), (s.loads 6 body) ∧ (body.length = 16) ∧ (leAt body 0 4 = topA 0x044) ∧ (m = word (leAt body 4 4)) ∧ (v = word (leAt body 8 4)) ∧ (s.pmu.part < 2) ∧ (s.rd (topA 0x044) &&& m = v)) ∧
    (∃ (s : State) (body : List Byte) (m : Word) (v : Word), (s.loads 6 body) ∧ (body.length = 16) ∧ (leAt body 0 4 = topA 0x044) ∧ (m = word (leAt body 4 4)) ∧ (v = word (leAt body 8 4)) ∧ (s.pmu.part = 0) ∧ (s.rd (topA 0x044) &&& m ≠ v)) ∧
    (∃ (s : State) (body : List Byte), (s.loads 7 body) ∧ (body.length = 4) ∧ (leAt body 0 4 = 1) ∧ (s.regCheck .boot true (resolve (topA 0x304) 1) = 0) ∧ (s.b (topA 0x300) 24 = false ∧ s.b (topA 0x300) 12 = false) ∧ (s.ver.pendingCommit = none)) ∧
    (∃ (s : State) (n : Nat), (s.alive = true) ∧ (s.topState = 1) ∧ (s.pmu.loading = true) ∧ (s.pmu.sect = n) ∧ (sectType (s.sect n) = 2) ∧ (Crypto.sha384 (s.sectBody (s.sect n)) ≠ slice (s.sect n) 16 48) ∧ (s.pmu.alt = false) ∧ (s.pmu.acted = false)) :=
  ⟨⟨{ put (topA 0x04C) 1 (put (topA 0x048) 0) with pmu := { up.pmu with loading := false }, flash := [(0, 77), (1, 73), (2, 75), (3, 90), (4, 1), (6, 1), (9, 16), (12, 7), (17, 100), (18, 75), (19, 90), (20, 161), (21, 1), (22, 52), (23, 18), (24, 120), (25, 86), (26, 97), (29, 4), (32, 176), (33, 4), (128, 1), (133, 2), (144, 56), (145, 176), (146, 96), (147, 167), (148, 81), (149, 172), (150, 150), (151, 56), (152, 76), (153, 217), (154, 50), (155, 126), (156, 177), (157, 177), (158, 227), (159, 106), (160, 33), (161, 253), (162, 183), (163, 17), (164, 20), (165, 190), (166, 7), (167, 67), (168, 76), (169, 12), (170, 199), (171, 191), (172, 99), (173, 246), (174, 225), (175, 218), (176, 39), (177, 78), (178, 222), (179, 191), (180, 231), (181, 111), (182, 101), (183, 251), (184, 213), (185, 26), (186, 210), (187, 241), (188, 72), (189, 152), (190, 185), (191, 91)] }, by decide +kernel⟩,
   ⟨put (topA 0x04C) 1 (put (topA 0x048) 0), 1, by decide +kernel⟩,
   ⟨{ put (topA 0x048) 1 (put (topA 0x04C) 1) with pmu := { up.pmu with loading := true }, flash := [(6, 2), (128, 1), (133, 2), (136, 8), (144, 227), (145, 152), (146, 160), (147, 204), (148, 12), (149, 1), (150, 175), (151, 152), (152, 194), (153, 109), (154, 172), (155, 213), (156, 144), (157, 149), (158, 61), (159, 150), (160, 108), (162, 116), (163, 121), (164, 211), (165, 235), (166, 58), (167, 159), (168, 189), (169, 218), (170, 166), (171, 85), (172, 73), (173, 188), (174, 57), (175, 130), (176, 217), (177, 124), (178, 85), (179, 139), (180, 110), (181, 17), (182, 200), (183, 161), (184, 93), (185, 74), (186, 31), (187, 149), (188, 32), (189, 176), (190, 66), (191, 135), (192, 1), (196, 8), (197, 2), (208, 56), (209, 176), (210, 96), (211, 167), (212, 81), (213, 172), (214, 150), (215, 56), (216, 76), (217, 217), (218, 50), (219, 126), (220, 177), (221, 177), (222, 227), (223, 106), (224, 33), (225, 253), (226, 183), (227, 17), (228, 20), (229, 190), (230, 7), (231, 67), (232, 76), (233, 12), (234, 199), (235, 191), (236, 99), (237, 246), (238, 225), (239, 218), (240, 39), (241, 78), (242, 222), (243, 191), (244, 231), (245, 111), (246, 101), (247, 251), (248, 213), (249, 26), (250, 210), (251, 241), (252, 72), (253, 152), (254, 185), (255, 91), (512, 88), (513, 16), (516, 9)] }, [0x58, 0x10, 0, 0, 9, 0, 0, 0], 9, by decide +kernel⟩,
   ⟨{ put (topA 0x048) 1 (put (topA 0x04C) 1) with pmu := { up.pmu with loading := true }, flash := [(6, 2), (128, 2), (133, 2), (136, 12), (144, 107), (145, 51), (146, 38), (147, 240), (149, 105), (150, 58), (151, 28), (152, 43), (153, 218), (154, 47), (155, 99), (156, 93), (157, 47), (158, 60), (159, 198), (160, 38), (161, 216), (162, 217), (163, 243), (164, 32), (165, 5), (166, 134), (167, 52), (168, 183), (169, 48), (170, 237), (171, 225), (172, 173), (173, 3), (174, 253), (175, 140), (176, 43), (177, 223), (178, 157), (179, 9), (180, 57), (181, 108), (182, 64), (183, 221), (184, 34), (185, 84), (186, 247), (187, 66), (188, 176), (189, 171), (190, 210), (191, 12), (192, 1), (196, 12), (197, 2), (208, 56), (209, 176), (210, 96), (211, 167), (212, 81), (213, 172), (214, 150), (215, 56), (216, 76), (217, 217), (218, 50), (219, 126), (220, 177), (221, 177), (222, 227), (223, 106), (224, 33), (225, 253), (226, 183), (227, 17), (228, 20), (229, 190), (230, 7), (231, 67), (232, 76), (233, 12), (234, 199), (235, 191), (236, 99), (237, 246), (238, 225), (239, 218), (240, 39), (241, 78), (242, 222), (243, 191), (244, 231), (245, 111), (246, 101), (247, 251), (248, 213), (249, 26), (250, 210), (251, 241), (252, 72), (253, 152), (254, 185), (255, 91), (514, 7), (515, 3), (516, 4), (520, 1)] }, [0, 0, 7, 3, 4, 0, 0, 0, 1, 0, 0, 0], 0x3070000, [1, 0, 0, 0], 0, 0, by decide +kernel⟩,
   ⟨{ put (topA 0x048) 1 (put (topA 0x04C) 1) with pmu := { up.pmu with loading := true }, flash := [(6, 2), (128, 3), (133, 2), (136, 48), (144, 149), (145, 78), (146, 150), (147, 28), (148, 145), (149, 65), (150, 228), (151, 193), (152, 171), (153, 57), (154, 4), (155, 47), (156, 158), (157, 232), (158, 157), (159, 162), (160, 244), (161, 9), (162, 179), (163, 139), (164, 112), (165, 173), (166, 223), (167, 33), (168, 29), (169, 128), (170, 8), (171, 129), (172, 198), (173, 245), (174, 202), (175, 234), (176, 68), (177, 116), (178, 63), (179, 162), (180, 239), (181, 122), (182, 129), (183, 198), (184, 166), (185, 237), (186, 60), (187, 111), (188, 37), (189, 215), (190, 192), (191, 249), (192, 1), (196, 48), (197, 2), (208, 56), (209, 176), (210, 96), (211, 167), (212, 81), (213, 172), (214, 150), (215, 56), (216, 76), (217, 217), (218, 50), (219, 126), (220, 177), (221, 177), (222, 227), (223, 106), (224, 33), (225, 253), (226, 183), (227, 17), (228, 20), (229, 190), (230, 7), (231, 67), (232, 76), (233, 12), (234, 199), (235, 191), (236, 99), (237, 246), (238, 225), (239, 218), (240, 39), (241, 78), (242, 222), (243, 191), (244, 231), (245, 111), (246, 101), (247, 251), (248, 213), (249, 26), (250, 210), (251, 241), (252, 72), (253, 152), (254, 185), (255, 91), (512, 1), (513, 4), (516, 9), (520, 1), (528, 32), (544, 5), (552, 64), (556, 1), (557, 2), (558, 3), (559, 4)] }, [1, 4, 0, 0, 9, 0, 0, 0, 1, 0, 0, 0, 0, 0, 0, 0, 0x20, 0, 0, 0, 0, 0, 0, 0, 0, 0, 0, 0, 0, 0, 0, 0, 5, 0, 0, 0, 0, 0, 0, 0, 0x40, 0, 0, 0, 1, 2, 3, 4], [1, 4, 0, 0, 9, 0, 0, 0, 1, 0, 0, 0, 0, 0, 0, 0, 0x20, 0, 0, 0, 0, 0, 0, 0, 0, 0, 0, 0, 0, 0, 0, 0], [5, 0, 0, 0, 0, 0, 0, 0, 0x40, 0, 0, 0, 1, 2, 3, 4], 4, 9, by decide +kernel⟩,
   ⟨{ put (topA 0x048) 1 (put (topA 0x04C) 1) with pmu := { up.pmu with loading := true }, flash := [(6, 2), (128, 4), (129, 2), (133, 2), (136, 221), (144, 203), (145, 252), (146, 243), (147, 14), (148, 198), (149, 178), (150, 142), (151, 76), (152, 130), (153, 114), (154, 20), (155, 83), (156, 129), (157, 241), (158, 9), (159, 28), (160, 31), (161, 15), (162, 166), (163, 71), (164, 107), (165, 179), (166, 68), (167, 95), (168, 18), (169, 86), (170, 198), (171, 21), (172, 83), (173, 175), (174, 104), (175, 185), (176, 219), (177, 185), (178, 199), (179, 156), (180, 161), (181, 104), (182, 91), (183, 142), (184, 113), (185, 122), (186, 171), (187, 211), (188, 166), (189, 141), (190, 126), (191, 45), (192, 1), (196, 224), (197, 2), (208, 56), (209, 176), (210, 96), (211, 167), (212, 81), (213, 172), (214, 150), (215, 56), (216, 76), (217, 217), (218, 50), (219, 126), (220, 177), (221, 177), (222, 227), (223, 106), (224, 33), (225, 253), (226, 183), (227, 17), (228, 20), (229, 190), (230, 7), (231, 67), (232, 76), (233, 12), (234, 199), (235, 191), (236, 99), (237, 246), (238, 225), (239, 218), (240, 39), (241, 78), (242, 222), (243, 191), (244, 231), (245, 111), (246, 101), (247, 251), (248, 213), (249, 26), (250, 210), (251, 241), (252, 72), (253, 152), (254, 185), (255, 91), (512, 1), (513, 2), (515, 16), (519, 7), (537, 97), (538, 1), (540, 4), (541, 14), (542, 42), (543, 109), (544, 236), (545, 157), (546, 43), (547, 102), (548, 6), (549, 143), (550, 68), (551, 214), (552, 98), (553, 48), (554, 49), (555, 100), (556, 104), (557, 248), (558, 121), (559, 6), (560, 43), (562, 98), (563, 246), (564, 230), (565, 76), (566, 129), (567, 38), (568, 62), (569, 239), (570, 39), (571, 200), (572, 9), (573, 128), (574, 194), (575, 185), (576, 221), (577, 208), (578, 67), (579, 76), (580, 2), (581, 189), (582, 90), (583, 55), (584, 89), (585, 176), (586, 105), (587, 146), (588, 15), (589, 107), (590, 159), (591, 57), (592, 103), (593, 183), (594, 140), (595, 215), (596, 230), (597, 69), (598, 50), (599, 161), (600, 150), (601, 19), (602, 51), (603, 223), (604, 43), (605, 12), (606, 11), (607, 180), (608, 147), (609, 93), (610, 151), (611, 85), (612, 36), (613, 151), (614, 22), (615, 86), (616, 24), (617, 125), (618, 194), (619, 81), (620, 59), (621, 231), (622, 128), (623, 160), (624, 161), (625, 27), (626, 133), (627, 84), (628, 153), (629, 4), (630, 57), (631, 98), (632, 195), (633, 95), (634, 144), (635, 179), (636, 8), (637, 72), (638, 198), (639, 54), (640, 219), (641, 132), (642, 201), (643, 65), (644, 77), (645, 129), (646, 112), (647, 143), (648, 224), (649, 66), (650, 162), (651, 174), (652, 33), (653, 6), (654, 12), (655, 106), (656, 7), (657, 172), (658, 152), (659, 141), (660, 167), (661, 155), (662, 148), (663, 164), (664, 251), (665, 94), (666, 126), (667, 111), (668, 70), (669, 88), (670, 34), (671, 215), (672, 122), (673, 195), (674, 73), (675, 47), (676, 80), (677, 179), (678, 188), (679, 214), (680, 80), (681, 116), (682, 54), (683, 217), (684, 212), (685, 197), (686, 223), (687, 8), (688, 231), (689, 101), (690, 142), (691, 254), (692, 89), (693, 222), (694, 228), (695, 210), (696, 138), (697, 234), (698, 51), (699, 85), (700, 218), (701, 22), (702, 108), (703, 208), (704, 131), (705, 243), (706, 43), (707, 225), (708, 31), (709, 63), (710, 149), (711, 197), (712, 252), (713, 144), (714, 220), (715, 234), (716, 218), (717, 110), (718, 94), (719, 145), (720, 217), (721, 63), (722, 145), (723, 140), (724, 216), (725, 159), (726, 245), (727, 200), (728, 205), (729, 157), (730, 53), (731, 17), (732, 132)], sec := { up.sec with otp := [{ roots := [(2, [0x76, 0xA6, 0xC2, 0x9D, 0xBA, 0xB9, 0x33, 0x49, 0x48, 0xE3, 9, 0x5A, 0xD8, 0x88, 0x59, 0xF0, 0x31, 0x7B, 0xBC, 0x16, 0x94, 0x9B, 0xD4, 0x2B, 0x41, 0xC0, 0x1D, 0xCC, 0xB6, 0x61, 0x15, 0x8B, 3, 0x8D, 0xA0, 0x25, 0x1A, 0x3C, 0xC6, 0x94, 0x76, 0x65, 0x78, 0x83, 6, 0xF1, 0x44, 0x16])], algs := [(2, 1)] }, {}, {}, {}] } }, [1, 2, 0, 0x10, 0, 0, 0, 7, 0, 0, 0, 0, 0, 0, 0, 0, 0, 0, 0, 0, 0, 0, 0, 0, 0, 0x61, 1, 0, 4, 0x0E, 0x2A, 0x6D, 0xEC, 0x9D, 0x2B, 0x66, 6, 0x8F, 0x44, 0xD6, 0x62, 0x30, 0x31, 0x64, 0x68, 0xF8, 0x79, 6, 0x2B, 0, 0x62, 0xF6, 0xE6, 0x4C, 0x81, 0x26, 0x3E, 0xEF, 0x27, 0xC8, 9, 0x80, 0xC2, 0xB9, 0xDD, 0xD0, 0x43, 0x4C, 2, 0xBD, 0x5A, 0x37, 0x59, 0xB0, 0x69, 0x92, 0x0F, 0x6B, 0x9F, 0x39, 0x67, 0xB7, 0x8C, 0xD7, 0xE6, 0x45, 0x32, 0xA1, 0x96, 0x13, 0x33, 0xDF, 0x2B, 0x0C, 0x0B, 0xB4, 0x93, 0x5D, 0x97, 0x55, 0x24, 0x97, 0x16, 0x56, 0x18, 0x7D, 0xC2, 0x51, 0x3B, 0xE7, 0x80, 0xA0, 0xA1, 0x1B, 0x85, 0x54, 0x99, 4, 0x39, 0x62, 0xC3, 0x5F, 0x90, 0xB3, 8, 0x48, 0xC6, 0x36, 0xDB, 0x84, 0xC9, 0x41, 0x4D, 0x81, 0x70, 0x8F, 0xE0, 0x42, 0xA2, 0xAE, 0x21, 6, 0x0C, 0x6A, 7, 0xAC, 0x98, 0x8D, 0xA7, 0x9B, 0x94, 0xA4, 0xFB, 0x5E, 0x7E, 0x6F, 0x46, 0x58, 0x22, 0xD7, 0x7A, 0xC3, 0x49, 0x2F, 0x50, 0xB3, 0xBC, 0xD6, 0x50, 0x74, 0x36, 0xD9, 0xD4, 0xC5, 0xDF, 8, 0xE7, 0x65, 0x8E, 0xFE, 0x59, 0xDE, 0xE4, 0xD2, 0x8A, 0xEA, 0x33, 0x55, 0xDA, 0x16, 0x6C, 0xD0, 0x83, 0xF3, 0x2B, 0xE1, 0x1F, 0x3F, 0x95, 0xC5, 0xFC, 0x90, 0xDC, 0xEA, 0xDA, 0x6E, 0x5E, 0x91, 0xD9, 0x3F, 0x91, 0x8C, 0xD8, 0x9F, 0xF5, 0xC8, 0xCD, 0x9D, 0x35, 0x11, 0x84], ⟨2, false, [1, 2, 0, 0x10, 0, 0, 0, 7, 0, 0, 0, 0, 0, 0, 0, 0, 0, 0, 0, 0, 0, 0, 0, 0, 0, 0x61, 1, 0, 4, 0x0E, 0x2A, 0x6D, 0xEC, 0x9D, 0x2B, 0x66, 6, 0x8F, 0x44, 0xD6, 0x62, 0x30, 0x31, 0x64, 0x68, 0xF8, 0x79, 6, 0x2B, 0, 0x62, 0xF6, 0xE6, 0x4C, 0x81, 0x26, 0x3E, 0xEF, 0x27, 0xC8, 9, 0x80, 0xC2, 0xB9, 0xDD, 0xD0, 0x43, 0x4C, 2, 0xBD, 0x5A, 0x37, 0x59, 0xB0, 0x69, 0x92, 0x0F, 0x6B, 0x9F, 0x39, 0x67, 0xB7, 0x8C, 0xD7, 0xE6, 0x45, 0x32, 0xA1, 0x96, 0x13, 0x33, 0xDF, 0x2B, 0x0C, 0x0B, 0xB4, 0x93, 0x5D, 0x97, 0x55, 0x24, 0x97, 0x16, 0x56, 0x18, 0x7D, 0xC2, 0x51, 0x3B, 0xE7, 0x80, 0xA0, 0xA1, 0x1B, 0x85, 0x54, 0x99, 4, 0x39, 0x62, 0xC3, 0x5F, 0x90, 0xB3, 8, 0x48, 0xC6, 0x36, 0xDB, 0x84, 0xC9, 0x41, 0x4D, 0x81, 0x70, 0x8F, 0xE0, 0x42, 0xA2, 0xAE, 0x21, 6, 0x0C, 0x6A, 7, 0xAC, 0x98, 0x8D, 0xA7, 0x9B, 0x94, 0xA4, 0xFB, 0x5E, 0x7E, 0x6F, 0x46, 0x58, 0x22, 0xD7, 0x7A, 0xC3, 0x49, 0x2F, 0x50, 0xB3, 0xBC, 0xD6, 0x50, 0x74, 0x36, 0xD9, 0xD4, 0xC5, 0xDF, 8, 0xE7, 0x65, 0x8E, 0xFE, 0x59, 0xDE, 0xE4, 0xD2, 0x8A, 0xEA, 0x33, 0x55, 0xDA, 0x16, 0x6C, 0xD0, 0x83, 0xF3, 0x2B, 0xE1, 0x1F, 0x3F, 0x95, 0xC5, 0xFC, 0x90, 0xDC, 0xEA, 0xDA, 0x6E, 0x5E, 0x91, 0xD9, 0x3F, 0x91, 0x8C, 0xD8, 0x9F, 0xF5, 0xC8, 0xCD, 0x9D, 0x35, 0x11, 0x84]⟩, 2, by decide +kernel⟩,
   ⟨{ put (topA 0x048) 1 (put (topA 0x04C) 1) with pmu := { up.pmu with loading := true }, flash := [(6, 2), (128, 4), (129, 2), (133, 2), (136, 221), (144, 178), (145, 246), (146, 2), (147, 207), (148, 141), (149, 236), (150, 91), (151, 198), (152, 82), (153, 218), (154, 172), (155, 136), (156, 59), (157, 226), (158, 108), (159, 200), (160, 44), (161, 227), (162, 131), (163, 188), (164, 206), (165, 129), (166, 111), (167, 97), (168, 104), (169, 38), (170, 136), (171, 71), (172, 129), (173, 222), (174, 117), (175, 126), (176, 128), (177, 171), (178, 254), (179, 217), (180, 63), (181, 239), (182, 23), (183, 55), (184, 130), (185, 104), (186, 88), (187, 130), (189, 64), (190, 152), (191, 124), (192, 1), (196, 224), (197, 2), (208, 56), (209, 176), (210, 96), (211, 167), (212, 81), (213, 172), (214, 150), (215, 56), (216, 76), (217, 217), (218, 50), (219, 126), (220, 177), (221, 177), (222, 227), (223, 106), (224, 33), (225, 253), (226, 183), (227, 17), (228, 20), (229, 190), (230, 7), (231, 67), (232, 76), (233, 12), (234, 199), (235, 191), (236, 99), (237, 246), (238, 225), (239, 218), (240, 39), (241, 78), (242, 222), (243, 191), (244, 231), (245, 111), (246, 101), (247, 251), (248, 213), (249, 26), (250, 210), (251, 241), (252, 72), (253, 152), (254, 185), (255, 91), (512, 1), (513, 2), (515, 16), (519, 7), (537, 97), (538, 1), (540, 4), (541, 14), (542, 42), (543, 109), (544, 236), (545, 157), (546, 43), (547, 102), (548, 6), (549, 143), (550, 68), (551, 214), (552, 98), (553, 48), (554, 49), (555, 100), (556, 104), (557, 248), (558, 121), (559, 6), (560, 43), (562, 98), (563, 246), (564, 230), (565, 76), (566, 129), (567, 38), (568, 62), (569, 239), (570, 39), (571, 200), (572, 9), (573, 128), (574, 194), (575, 185), (576, 221), (577, 208), (578, 67), (579, 76), (580, 2), (581, 189), (582, 90), (583, 55), (584, 89), (585, 176), (586, 105), (587, 146), (588, 15), (589, 107), (590, 159), (591, 57), (592, 103), (593, 183), (594, 140), (595, 215), (596, 230), (597, 69), (598, 50), (599, 161), (600, 150), (601, 19), (602, 51), (603, 223), (604, 43), (605, 12), (606, 11), (607, 180), (608, 147), (609, 93), (610, 151), (611, 85), (612, 36), (613, 151), (614, 22), (615, 86), (616, 24), (617, 125), (618, 194), (619, 81), (620, 59), (621, 231), (622, 128), (623, 160), (624, 161), (625, 27), (626, 133), (627, 84), (628, 153), (629, 4), (630, 57), (631, 98), (632, 195), (633, 95), (634, 144), (635, 179), (636, 8), (637, 72), (638, 198), (639, 54), (640, 219), (641, 132), (642, 201), (643, 65), (644, 77), (645, 129), (646, 112), (647, 143), (648, 224), (649, 66), (650, 162), (651, 174), (652, 33), (653, 6), (654, 12), (655, 106), (656, 7), (657, 172), (658, 152), (659, 141), (660, 167), (661, 155), (662, 148), (663, 164), (664, 251), (665, 94), (666, 126), (667, 111), (668, 70), (669, 88), (670, 34), (671, 215), (672, 122), (673, 195), (674, 73), (675, 47), (676, 80), (677, 179), (678, 188), (679, 214), (680, 80), (681, 116), (682, 54), (683, 217), (684, 212), (685, 197), (686, 223), (687, 8), (688, 231), (689, 101), (690, 142), (691, 254), (692, 89), (693, 222), (694, 228), (695, 210), (696, 138), (697, 234), (698, 51), (699, 85), (700, 218), (701, 22), (702, 108), (703, 208), (704, 131), (705, 243), (706, 43), (707, 225), (708, 31), (709, 63), (710, 149), (711, 197), (712, 252), (713, 144), (714, 220), (715, 234), (716, 218), (717, 110), (718, 94), (719, 145), (720, 217), (721, 63), (722, 145), (723, 140), (724, 216), (725, 159), (726, 245), (727, 200), (728, 205), (729, 157), (730, 53), (731, 17), (732, 133)], sec := { up.sec with otp := [{ roots := [(2, [0x76, 0xA6, 0xC2, 0x9D, 0xBA, 0xB9, 0x33, 0x49, 0x48, 0xE3, 9, 0x5A, 0xD8, 0x88, 0x59, 0xF0, 0x31, 0x7B, 0xBC, 0x16, 0x94, 0x9B, 0xD4, 0x2B, 0x41, 0xC0, 0x1D, 0xCC, 0xB6, 0x61, 0x15, 0x8B, 3, 0x8D, 0xA0, 0x25, 0x1A, 0x3C, 0xC6, 0x94, 0x76, 0x65, 0x78, 0x83, 6, 0xF1, 0x44, 0x16])], algs := [(2, 1)] }, {}, {}, {}] } }, [1, 2, 0, 0x10, 0, 0, 0, 7, 0, 0, 0, 0, 0, 0, 0, 0, 0, 0, 0, 0, 0, 0, 0, 0, 0, 0x61, 1, 0, 4, 0x0E, 0x2A, 0x6D, 0xEC, 0x9D, 0x2B, 0x66, 6, 0x8F, 0x44, 0xD6, 0x62, 0x30, 0x31, 0x64, 0x68, 0xF8, 0x79, 6, 0x2B, 0, 0x62, 0xF6, 0xE6, 0x4C, 0x81, 0x26, 0x3E, 0xEF, 0x27, 0xC8, 9, 0x80, 0xC2, 0xB9, 0xDD, 0xD0, 0x43, 0x4C, 2, 0xBD, 0x5A, 0x37, 0x59, 0xB0, 0x69, 0x92, 0x0F, 0x6B, 0x9F, 0x39, 0x67, 0xB7, 0x8C, 0xD7, 0xE6, 0x45, 0x32, 0xA1, 0x96, 0x13, 0x33, 0xDF, 0x2B, 0x0C, 0x0B, 0xB4, 0x93, 0x5D, 0x97, 0x55, 0x24, 0x97, 0x16, 0x56, 0x18, 0x7D, 0xC2, 0x51, 0x3B, 0xE7, 0x80, 0xA0, 0xA1, 0x1B, 0x85, 0x54, 0x99, 4, 0x39, 0x62, 0xC3, 0x5F, 0x90, 0xB3, 8, 0x48, 0xC6, 0x36, 0xDB, 0x84, 0xC9, 0x41, 0x4D, 0x81, 0x70, 0x8F, 0xE0, 0x42, 0xA2, 0xAE, 0x21, 6, 0x0C, 0x6A, 7, 0xAC, 0x98, 0x8D, 0xA7, 0x9B, 0x94, 0xA4, 0xFB, 0x5E, 0x7E, 0x6F, 0x46, 0x58, 0x22, 0xD7, 0x7A, 0xC3, 0x49, 0x2F, 0x50, 0xB3, 0xBC, 0xD6, 0x50, 0x74, 0x36, 0xD9, 0xD4, 0xC5, 0xDF, 8, 0xE7, 0x65, 0x8E, 0xFE, 0x59, 0xDE, 0xE4, 0xD2, 0x8A, 0xEA, 0x33, 0x55, 0xDA, 0x16, 0x6C, 0xD0, 0x83, 0xF3, 0x2B, 0xE1, 0x1F, 0x3F, 0x95, 0xC5, 0xFC, 0x90, 0xDC, 0xEA, 0xDA, 0x6E, 0x5E, 0x91, 0xD9, 0x3F, 0x91, 0x8C, 0xD8, 0x9F, 0xF5, 0xC8, 0xCD, 0x9D, 0x35, 0x11, 0x85], 2, by decide +kernel⟩,
   ⟨{ put (topA 0x048) 1 (put (topA 0x04C) 1) with pmu := { up.pmu with loading := true }, flash := [(6, 2), (128, 4), (129, 2), (133, 2), (136, 221), (144, 203), (145, 252), (146, 243), (147, 14), (148, 198), (149, 178), (150, 142), (151, 76), (152, 130), (153, 114), (154, 20), (155, 83), (156, 129), (157, 241), (158, 9), (159, 28), (160, 31), (161, 15), (162, 166), (163, 71), (164, 107), (165, 179), (166, 68), (167, 95), (168, 18), (169, 86), (170, 198), (171, 21), (172, 83), (173, 175), (174, 104), (175, 185), (176, 219), (177, 185), (178, 199), (179, 156), (180, 161), (181, 104), (182, 91), (183, 142), (184, 113), (185, 122), (186, 171), (187, 211), (188, 166), (189, 141), (190, 126), (191, 45), (192, 1), (196, 224), (197, 2), (208, 56), (209, 176), (210, 96), (211, 167), (212, 81), (213, 172), (214, 150), (215, 56), (216, 76), (217, 217), (218, 50), (219, 126), (220, 177), (221, 177), (222, 227), (223, 106), (224, 33), (225, 253), (226, 183), (227, 17), (228, 20), (229, 190), (230, 7), (231, 67), (232, 76), (233, 12), (234, 199), (235, 191), (236, 99), (237, 246), (238, 225), (239, 218), (240, 39), (241, 78), (242, 222), (243, 191), (244, 231), (245, 111), (246, 101), (247, 251), (248, 213), (249, 26), (250, 210), (251, 241), (252, 72), (253, 152), (254, 185), (255, 91), (512, 1), (513, 2), (515, 16), (519, 7), (537, 97), (538, 1), (540, 4), (541, 14), (542, 42), (543, 109), (544, 236), (545, 157), (546, 43), (547, 102), (548, 6), (549, 143), (550, 68), (551, 214), (552, 98), (553, 48), (554, 49), (555, 100), (556, 104), (557, 248), (558, 121), (559, 6), (560, 43), (562, 98), (563, 246), (564, 230), (565, 76), (566, 129), (567, 38), (568, 62), (569, 239), (570, 39), (571, 200), (572, 9), (573, 128), (574, 194), (575, 185), (576, 221), (577, 208), (578, 67), (579, 76), (580, 2), (581, 189), (582, 90), (583, 55), (584, 89), (585, 176), (586, 105), (587, 146), (588, 15), (589, 107), (590, 159), (591, 57), (592, 103), (593, 183), (594, 140), (595, 215), (596, 230), (597, 69), (598, 50), (599, 161), (600, 150), (601, 19), (602, 51), (603, 223), (604, 43), (605, 12), (606, 11), (607, 180), (608, 147), (609, 93), (610, 151), (611, 85), (612, 36), (613, 151), (614, 22), (615, 86), (616, 24), (617, 125), (618, 194), (619, 81), (620, 59), (621, 231), (622, 128), (623, 160), (624, 161), (625, 27), (626, 133), (627, 84), (628, 153), (629, 4), (630, 57), (631, 98), (632, 195), (633, 95), (634, 144), (635, 179), (636, 8), (637, 72), (638, 198), (639, 54), (640, 219), (641, 132), (642, 201), (643, 65), (644, 77), (645, 129), (646, 112), (647, 143), (648, 224), (649, 66), (650, 162), (651, 174), (652, 33), (653, 6), (654, 12), (655, 106), (656, 7), (657, 172), (658, 152), (659, 141), (660, 167), (661, 155), (662, 148), (663, 164), (664, 251), (665, 94), (666, 126), (667, 111), (668, 70), (669, 88), (670, 34), (671, 215), (672, 122), (673, 195), (674, 73), (675, 47), (676, 80), (677, 179), (678, 188), (679, 214), (680, 80), (681, 116), (682, 54), (683, 217), (684, 212), (685, 197), (686, 223), (687, 8), (688, 231), (689, 101), (690, 142), (691, 254), (692, 89), (693, 222), (694, 228), (695, 210), (696, 138), (697, 234), (698, 51), (699, 85), (700, 218), (701, 22), (702, 108), (703, 208), (704, 131), (705, 243), (706, 43), (707, 225), (708, 31), (709, 63), (710, 149), (711, 197), (712, 252), (713, 144), (714, 220), (715, 234), (716, 218), (717, 110), (718, 94), (719, 145), (720, 217), (721, 63), (722, 145), (723, 140), (724, 216), (725, 159), (726, 245), (727, 200), (728, 205), (729, 157), (730, 53), (731, 17), (732, 132)], sec := { up.sec with otp := [{ roots := [(2, [0x76, 0xA6, 0xC2, 0x9D, 0xBA, 0xB9, 0x33, 0x49, 0x48, 0xE3, 9, 0x5A, 0xD8, 0x88, 0x59, 0xF0, 0x31, 0x7B, 0xBC, 0x16, 0x94, 0x9B, 0xD4, 0x2B, 0x41, 0xC0, 0x1D, 0xCC, 0xB6, 0x61, 0x15, 0x8B, 3, 0x8D, 0xA0, 0x25, 0x1A, 0x3C, 0xC6, 0x94, 0x76, 0x65, 0x78, 0x83, 6, 0xF1, 0x44, 0x16])], algs := [(2, 1)] }, {}, {}, {}] } }, [1, 2, 0, 0x10, 0, 0, 0, 7, 0, 0, 0, 0, 0, 0, 0, 0, 0, 0, 0, 0, 0, 0, 0, 0, 0, 0x61, 1, 0, 4, 0x0E, 0x2A, 0x6D, 0xEC, 0x9D, 0x2B, 0x66, 6, 0x8F, 0x44, 0xD6, 0x62, 0x30, 0x31, 0x64, 0x68, 0xF8, 0x79, 6, 0x2B, 0, 0x62, 0xF6, 0xE6, 0x4C, 0x81, 0x26, 0x3E, 0xEF, 0x27, 0xC8, 9, 0x80, 0xC2, 0xB9, 0xDD, 0xD0, 0x43, 0x4C, 2, 0xBD, 0x5A, 0x37, 0x59, 0xB0, 0x69, 0x92, 0x0F, 0x6B, 0x9F, 0x39, 0x67, 0xB7, 0x8C, 0xD7, 0xE6, 0x45, 0x32, 0xA1, 0x96, 0x13, 0x33, 0xDF, 0x2B, 0x0C, 0x0B, 0xB4, 0x93, 0x5D, 0x97, 0x55, 0x24, 0x97, 0x16, 0x56, 0x18, 0x7D, 0xC2, 0x51, 0x3B, 0xE7, 0x80, 0xA0, 0xA1, 0x1B, 0x85, 0x54, 0x99, 4, 0x39, 0x62, 0xC3, 0x5F, 0x90, 0xB3, 8, 0x48, 0xC6, 0x36, 0xDB, 0x84, 0xC9, 0x41, 0x4D, 0x81, 0x70, 0x8F, 0xE0, 0x42, 0xA2, 0xAE, 0x21, 6, 0x0C, 0x6A, 7, 0xAC, 0x98, 0x8D, 0xA7, 0x9B, 0x94, 0xA4, 0xFB, 0x5E, 0x7E, 0x6F, 0x46, 0x58, 0x22, 0xD7, 0x7A, 0xC3, 0x49, 0x2F, 0x50, 0xB3, 0xBC, 0xD6, 0x50, 0x74, 0x36, 0xD9, 0xD4, 0xC5, 0xDF, 8, 0xE7, 0x65, 0x8E, 0xFE, 0x59, 0xDE, 0xE4, 0xD2, 0x8A, 0xEA, 0x33, 0x55, 0xDA, 0x16, 0x6C, 0xD0, 0x83, 0xF3, 0x2B, 0xE1, 0x1F, 0x3F, 0x95, 0xC5, 0xFC, 0x90, 0xDC, 0xEA, 0xDA, 0x6E, 0x5E, 0x91, 0xD9, 0x3F, 0x91, 0x8C, 0xD8, 0x9F, 0xF5, 0xC8, 0xCD, 0x9D, 0x35, 0x11, 0x84], ⟨2, false, [1, 2, 0, 0x10, 0, 0, 0, 7, 0, 0, 0, 0, 0, 0, 0, 0, 0, 0, 0, 0, 0, 0, 0, 0, 0, 0x61, 1, 0, 4, 0x0E, 0x2A, 0x6D, 0xEC, 0x9D, 0x2B, 0x66, 6, 0x8F, 0x44, 0xD6, 0x62, 0x30, 0x31, 0x64, 0x68, 0xF8, 0x79, 6, 0x2B, 0, 0x62, 0xF6, 0xE6, 0x4C, 0x81, 0x26, 0x3E, 0xEF, 0x27, 0xC8, 9, 0x80, 0xC2, 0xB9, 0xDD, 0xD0, 0x43, 0x4C, 2, 0xBD, 0x5A, 0x37, 0x59, 0xB0, 0x69, 0x92, 0x0F, 0x6B, 0x9F, 0x39, 0x67, 0xB7, 0x8C, 0xD7, 0xE6, 0x45, 0x32, 0xA1, 0x96, 0x13, 0x33, 0xDF, 0x2B, 0x0C, 0x0B, 0xB4, 0x93, 0x5D, 0x97, 0x55, 0x24, 0x97, 0x16, 0x56, 0x18, 0x7D, 0xC2, 0x51, 0x3B, 0xE7, 0x80, 0xA0, 0xA1, 0x1B, 0x85, 0x54, 0x99, 4, 0x39, 0x62, 0xC3, 0x5F, 0x90, 0xB3, 8, 0x48, 0xC6, 0x36, 0xDB, 0x84, 0xC9, 0x41, 0x4D, 0x81, 0x70, 0x8F, 0xE0, 0x42, 0xA2, 0xAE, 0x21, 6, 0x0C, 0x6A, 7, 0xAC, 0x98, 0x8D, 0xA7, 0x9B, 0x94, 0xA4, 0xFB, 0x5E, 0x7E, 0x6F, 0x46, 0x58, 0x22, 0xD7, 0x7A, 0xC3, 0x49, 0x2F, 0x50, 0xB3, 0xBC, 0xD6, 0x50, 0x74, 0x36, 0xD9, 0xD4, 0xC5, 0xDF, 8, 0xE7, 0x65, 0x8E, 0xFE, 0x59, 0xDE, 0xE4, 0xD2, 0x8A, 0xEA, 0x33, 0x55, 0xDA, 0x16, 0x6C, 0xD0, 0x83, 0xF3, 0x2B, 0xE1, 0x1F, 0x3F, 0x95, 0xC5, 0xFC, 0x90, 0xDC, 0xEA, 0xDA, 0x6E, 0x5E, 0x91, 0xD9, 0x3F, 0x91, 0x8C, 0xD8, 0x9F, 0xF5, 0xC8, 0xCD, 0x9D, 0x35, 0x11, 0x84]⟩, 2, by decide +kernel⟩,
   ⟨{ put (topA 0x048) 1 (put (topA 0x04C) 1) with pmu := { up.pmu with loading := true }, flash := [(6, 2), (128, 4), (129, 2), (133, 2), (136, 2), (144, 147), (145, 208), (146, 121), (147, 96), (148, 40), (149, 69), (150, 98), (151, 124), (152, 137), (153, 97), (154, 187), (155, 84), (156, 52), (157, 32), (158, 54), (159, 85), (160, 54), (161, 104), (162, 10), (163, 178), (164, 128), (165, 147), (166, 165), (167, 224), (168, 70), (169, 169), (170, 147), (171, 66), (172, 57), (173, 242), (174, 233), (175, 204), (176, 70), (177, 182), (178, 123), (179, 13), (180, 53), (181, 89), (182, 205), (183, 74), (184, 163), (185, 99), (186, 242), (187, 221), (188, 90), (189, 241), (190, 233), (191, 208), (192, 1), (196, 4), (197, 2), (208, 56), (209, 176), (210, 96), (211, 167), (212, 81), (213, 172), (214, 150), (215, 56), (216, 76), (217, 217), (218, 50), (219, 126), (220, 177), (221, 177), (222, 227), (223, 106), (224, 33), (225, 253), (226, 183), (227, 17), (228, 20), (229, 190), (230, 7), (231, 67), (232, 76), (233, 12), (234, 199), (235, 191), (236, 99), (237, 246), (238, 225), (239, 218), (240, 39), (241, 78), (242, 222), (243, 191), (244, 231), (245, 111), (246, 101), (247, 251), (248, 213), (249, 26), (250, 210), (251, 241), (252, 72), (253, 152), (254, 185), (255, 91), (512, 120), (513, 121)], sec := { up.sec with otp := [{ roots := [(2, [0x76, 0xA6, 0xC2, 0x9D, 0xBA, 0xB9, 0x33, 0x49, 0x48, 0xE3, 9, 0x5A, 0xD8, 0x88, 0x59, 0xF0, 0x31, 0x7B, 0xBC, 0x16, 0x94, 0x9B, 0xD4, 0x2B, 0x41, 0xC0, 0x1D, 0xCC, 0xB6, 0x61, 0x15, 0x8B, 3, 0x8D, 0xA0, 0x25, 0x1A, 0x3C, 0xC6, 0x94, 0x76, 0x65, 0x78, 0x83, 6, 0xF1, 0x44, 0x16])], algs := [(2, 1)] }, {}, {}, {}] } }, [0x78, 0x79], 2, by decide +kernel⟩,
   ⟨{ put (secA 0x0C8) 1 (put (topA 0x048) 1 (put (topA 0x04C) 1)) with pmu := { up.pmu with loading := true }, flash := [(6, 2), (128, 5), (133, 2), (136, 16), (144, 140), (145, 90), (146, 177), (147, 14), (148, 141), (149, 154), (150, 138), (151, 168), (152, 79), (153, 198), (154, 92), (155, 55), (156, 55), (157, 75), (158, 252), (159, 40), (160, 186), (161, 128), (162, 169), (163, 33), (164, 121), (165, 107), (166, 106), (167, 76), (168, 149), (169, 118), (170, 15), (171, 34), (172, 158), (173, 189), (174, 34), (175, 101), (176, 199), (177, 66), (178, 135), (179, 105), (180, 195), (181, 2), (182, 46), (183, 247), (184, 36), (185, 177), (186, 150), (187, 9), (188, 57), (189, 178), (190, 14), (191, 248), (192, 1), (196, 16), (197, 2), (208, 56), (209, 176), (210, 96), (211, 167), (212, 81), (213, 172), (214, 150), (215, 56), (216, 76), (217, 217), (218, 50), (219, 126), (220, 177), (221, 177), (222, 227), (223, 106), (224, 33), (225, 253), (226, 183), (227, 17), (228, 20), (229, 190), (230, 7), (231, 67), (232, 76), (233, 12), (234, 199), (235, 191), (236, 99), (237, 246), (238, 225), (239, 218), (240, 39), (241, 78), (242, 222), (243, 191), (244, 231), (245, 111), (246, 101), (247, 251), (248, 213), (249, 26), (250, 210), (251, 241), (252, 72), (253, 152), (254, 185), (255, 91), (512, 11), (513, 2), (514, 1), (516, 7), (520, 1)] }, [0x0B, 2, 1, 0, 7, 0, 0, 0, 1, 0, 0, 0, 0, 0, 0, 0], true, ⟨0x0B, 2, 1, 7, 1⟩, by decide +kernel⟩,
   ⟨{ put (topA 0x048) 1 (put (topA 0x04C) 1) with pmu := { up.pmu with loading := true }, flash := [(6, 2), (128, 6), (133, 2), (136, 16), (144, 105), (145, 190), (146, 21), (147, 27), (148, 154), (149, 10), (150, 77), (151, 192), (152, 86), (153, 21), (154, 49), (155, 39), (156, 113), (157, 100), (158, 214), (159, 20), (160, 93), (161, 88), (162, 147), (163, 174), (164, 187), (165, 103), (166, 134), (167, 208), (168, 229), (169, 103), (170, 191), (171, 229), (172, 103), (173, 110), (174, 146), (175, 61), (176, 216), (177, 195), (178, 46), (179, 253), (180, 110), (181, 208), (182, 215), (183, 52), (184, 66), (185, 172), (186, 99), (187, 155), (188, 2), (189, 17), (190, 64), (191, 252), (192, 1), (196, 16), (197, 2), (208, 56), (209, 176), (210, 96), (211, 167), (212, 81), (213, 172), (214, 150), (215, 56), (216, 76), (217, 217), (218, 50), (219, 126), (220, 177), (221, 177), (222, 227), (223, 106), (224, 33), (225, 253), (226, 183), (227, 17), (228, 20), (229, 190), (230, 7), (231, 67), (232, 76), (233, 12), (234, 199), (235, 191), (236, 99), (237, 246), (238, 225), (239, 218), (240, 39), (241, 78), (242, 222), (243, 191), (244, 231), (245, 111), (246, 101), (247, 251), (248, 213), (249, 26), (250, 210), (251, 241), (252, 72), (253, 152), (254, 185), (255, 91), (512, 68), (524, 100)] }, [0x44, 0, 0, 0, 0, 0, 0, 0, 0, 0, 0, 0, 0x64, 0, 0, 0], 0, 0, by decide +kernel⟩,
   ⟨{ put (topA 0x048) 1 (put (topA 0x04C) 1) with pmu := { up.pmu with loading := true }, flash := [(6, 2), (128, 6), (133, 2), (136, 16), (144, 213), (145, 13), (146, 245), (147, 22), (148, 88), (149, 165), (150, 170), (151, 252), (152, 188), (153, 87), (154, 153), (155, 166), (156, 240), (157, 56), (158, 75), (159, 108), (160, 101), (161, 130), (162, 13), (163, 168), (164, 85), (165, 62), (166, 170), (167, 216), (168, 188), (169, 68), (170, 254), (171, 193), (172, 185), (173, 81), (174, 206), (175, 251), (176, 225), (177, 41), (178, 235), (179, 144), (180, 152), (181, 219), (182, 26), (183, 53), (184, 147), (185, 47), (186, 4), (187, 235), (188, 39), (189, 141), (190, 165), (191, 94), (192, 1), (196, 16), (197, 2), (208, 56), (209, 176), (210, 96), (211, 167), (212, 81), (213, 172), (214, 150), (215, 56), (216, 76), (217, 217), (218, 50), (219, 126), (220, 177), (221, 177), (222, 227), (223, 106), (224, 33), (225, 253), (226, 183), (227, 17), (228, 20), (229, 190), (230, 7), (231, 67), (232, 76), (233, 12), (234, 199), (235, 191), (236, 99), (237, 246), (238, 225), (239, 218), (240, 39), (241, 78), (242, 222), (243, 191), (244, 231), (245, 111), (246, 101), (247, 251), (248, 213), (249, 26), (250, 210), (251, 241), (252, 72), (253, 152), (254, 185), (255, 91), (512, 68), (516, 255), (517, 255), (518, 255), (519, 255), (520, 153), (524, 100)] }, [0x44, 0, 0, 0, 0xFF, 0xFF, 0xFF, 0xFF, 0x99, 0, 0, 0, 0x64, 0, 0, 0], 0xFFFFFFFF, 0x99, by decide +kernel⟩,
   ⟨{ put (topA 0x048) 1 (put (topA 0x04C) 1) with pmu := { up.pmu with loading := true }, flash := [(6, 2), (128, 7), (133, 2), (136, 4), (144, 114), (145, 16), (146, 175), (147, 25), (148, 20), (149, 94), (150, 194), (151, 168), (152, 226), (153, 80), (154, 167), (155, 254), (156, 142), (157, 158), (158, 238), (159, 172), (160, 19), (161, 1), (162, 229), (163, 36), (164, 218), (165, 171), (166, 130), (167, 54), (168, 108), (169, 54), (170, 190), (171, 97), (172, 77), (173, 195), (174, 84), (175, 2), (176, 162), (177, 137), (178, 16), (179, 30), (180, 72), (181, 202), (182, 214), (183, 28), (184, 69), (185, 51), (186, 127), (187, 47), (188, 50), (189, 193), (190, 79), (191, 220), (192, 1), (196, 4), (197, 2), (208, 56), (209, 176), (210, 96), (211, 167), (212, 81), (213, 172), (214, 150), (215, 56), (216, 76), (217, 217), (218, 50), (219, 126), (220, 177), (221, 177), (222, 227), (223, 106), (224, 33), (225, 253), (226, 183), (227, 17), (228, 20), (229, 190), (230, 7), (231, 67), (232, 76), (233, 12), (234, 199), (235, 191), (236, 99), (237, 246), (238, 225), (239, 218), (240, 39), (241, 78), (242, 222), (243, 191), (244, 231), (245, 111), (246, 101), (247, 251), (248, 213), (249, 26), (250, 210), (251, 241), (252, 72), (253, 152), (254, 185), (255, 91), (512, 1)] }, [1, 0, 0, 0], by decide +kernel⟩,
   ⟨{ put (topA 0x048) 1 (put (topA 0x04C) 1) with pmu := { up.pmu with loading := true }, flash := [(6, 2), (128, 2), (133, 2), (136, 4), (144, 17), (145, 101), (146, 179), (147, 64), (148, 111), (149, 240), (150, 181), (151, 42), (152, 61), (153, 36), (154, 114), (155, 31), (156, 120), (157, 84), (158, 98), (159, 202), (160, 34), (161, 118), (162, 201), (163, 244), (164, 84), (165, 161), (166, 22), (167, 194), (168, 178), (169, 186), (170, 32), (171, 23), (172, 26), (173, 121), (174, 5), (175, 234), (176, 90), (177, 2), (178, 102), (179, 130), (180, 235), (181, 101), (182, 156), (183, 77), (184, 95), (185, 17), (186, 92), (187, 54), (188, 58), (189, 163), (190, 199), (191, 155), (192, 1), (196, 4), (197, 2), (208, 56), (209, 176), (210, 96), (211, 167), (212, 81), (213, 172), (214, 150), (215, 56), (216, 76), (217, 217), (218, 50), (219, 126), (220, 177), (221, 177), (222, 227), (223, 106), (224, 33), (225, 253), (226, 183), (227, 17), (228, 20), (229, 190), (230, 7), (231, 67), (232, 76), (233, 12), (234, 199), (235, 191), (236, 99), (237, 246), (238, 225), (239, 218), (240, 39), (241, 78), (242, 222), (243, 191), (244, 231), (245, 111), (246, 101), (247, 251), (248, 213), (249, 26), (250, 210), (251, 241), (252, 72), (253, 152), (254, 185), (255, 91), (512, 98), (513, 98), (514, 99), (515, 100)] }, 0, by decide +kernel⟩⟩

end Sys2Proof.Tests
end

/-! ## Steps of the self-timed core

What the commands of the self-timed core leave behind: the frame of their effects, what an answer keeps of an effect, and one
equation for each case of an AVSBus transaction's end. -/

namespace Sys2Proof.Machine

/-! ### The frame of an effect on the clock page -/

/-- From `s` to `t` only registers, the governor, what the MACs know, waiting events and the outbox have changed, and of the
registers only those listed. -/
def ClkStep (xs : List Nat) (s t : State) : Prop :=
  (∃ regs gov macs evr out, t = { s with regs := regs, gov := gov, macs := macs, evr := evr, out := out }) ∧
    ∀ a, a ∉ xs → t.rd a = s.rd a

namespace ClkStep

variable {xs ys : List Nat} {s t u : State}

theorem refl (s : State) : ClkStep xs s s := ⟨⟨_, _, _, _, _, rfl⟩, fun _ _ => rfl⟩

theorem trans (h1 : ClkStep xs s t) (h2 : ClkStep xs t u) : ClkStep xs s u := by
  obtain ⟨⟨_, _, _, _, _, rfl⟩, r1⟩ := h1
  obtain ⟨⟨_, _, _, _, _, rfl⟩, r2⟩ := h2
  exact ⟨⟨_, _, _, _, _, rfl⟩, fun a ha => (r2 a ha).trans (r1 a ha)⟩

theorem pending (h : ClkStep xs s t) : t.pending = s.pending := by obtain ⟨⟨_, _, _, _, _, rfl⟩, _⟩ := h; rfl

theorem memKept (h : ClkStep xs s t) : MemKept s t := by
  obtain ⟨⟨_, _, _, _, _, rfl⟩, _⟩ := h
  exact fun _ => ⟨rfl, rfl, rfl, rfl, rfl⟩

theorem wr (h : ClkStep xs s t) (w : Word) {a : Nat} (ha : a ∈ xs) : ClkStep xs s (t.wr a w) :=
  h.trans ⟨⟨_, _, _, _, _, rfl⟩, fun _ hx => rd_wr_ne t w (fun e => hx (e ▸ ha))⟩

theorem setF (h : ClkStep xs s t) (hi lo v : Nat) {a : Nat} (ha : a ∈ xs) : ClkStep xs s (t.setF a hi lo v) := h.wr _ ha

theorem setB (h : ClkStep xs s t) (i : Nat) (v : Bool) {a : Nat} (ha : a ∈ xs) : ClkStep xs s (t.setB a i v) := h.wr _ ha

theorem gov (h : ClkStep xs s t) (g : Clk) : ClkStep xs s { t with gov := g } :=
  h.trans ⟨⟨_, _, _, _, _, rfl⟩, fun _ _ => rfl⟩

theorem macs (h : ClkStep xs s t) (m : SMap MacX) : ClkStep xs s { t with macs := m } :=
  h.trans ⟨⟨_, _, _, _, _, rfl⟩, fun _ _ => rfl⟩

theorem emit (h : ClkStep xs s t) (o : Out) : ClkStep xs s (t.emit o) := h.trans ⟨⟨_, _, _, _, _, rfl⟩, fun _ _ => rfl⟩

theorem report (h : ClkStep xs s t) (n code : Nat) (ha : clkA 0x008 ∈ xs) : ClkStep xs s (t.report 2 n code) :=
  (h.setB n true ha).trans ⟨⟨_, _, _, _, _, rfl⟩, fun _ _ => rfl⟩

/-- Quiet changes after such an effect touch only registers that any command may change. -/
theorem regsBut (h : ClkStep xs s t) (hq : Quiet t u) : RegsBut xs s u := fun a ha hw hn => (hq.rd hw hn).trans (h.2 a ha)

theorem memKept_of_quiet (h : ClkStep xs s t) (hq : Quiet t u) : MemKept s u := fun a => by
  obtain ⟨t1, t2, t3, t4, t5⟩ := h.memKept a
  obtain ⟨u1, u2, u3, u4, u5⟩ := hq.memKept a
  exact ⟨u1.trans t1, u2.trans t2, u3.trans t3, u4.trans t4, u5.trans t5⟩

end ClkStep

/-! ### What an answer keeps of an effect -/

theorem putCnt_out (s : State) (page k x : Nat) : (s.putCnt page k x).out = s.out := by
  unfold State.putCnt
  split <;> rfl

theorem capture_out (s : State) (a w : Nat) : (s.capture a w).out = s.out := by
  unfold State.capture
  split
  · rfl
  · simp only [forEach, List.foldl_nil]
    exact wr_out _ _ _

theorem cntAdd_out (s : State) (page k n : Nat) : (s.cntAdd page k n).out = s.out := by
  obtain ⟨x, w, h | h⟩ := cntAdd_cases s page k n
  · rw [h, putCnt_out]
  · rw [h, report_out, capture_out, putCnt_out]

theorem pmc_out (s : State) (page ev n : Nat) : (s.pmc page ev n).out = s.out := by
  unfold State.pmc
  split
  · exact forEach_keeps (fun t => t.out = s.out) _ _ _ rfl (fun t c _ h => (cntAdd_out t _ _ _).trans h)
  · rfl

theorem pendRose_out (s t : State) : (s.pendRose t).out = t.out :=
  forEach_keeps (fun u => u.out = t.out) _ _ _ rfl (fun u p _ h => (pmc_out u p 6 1).trans h)

/-- `u` is what the command answers whose effect on `s` left `t`. -/
structure AnswerOf (s t u : State) : Prop where
  next : answer s t = .next u
  quiet : Quiet t u
  out : ∀ o ∈ t.out, o ∈ u.out
  raised : ∀ page code, t.raised page code → u.raised page code

/-- An effect that leaves the queue alone is answered by a state with the same outputs and events, and quiet changes beside. -/
theorem exists_answerOf {s t : State} (h : t.pending = s.pending) : ∃ u, AnswerOf s t u := by
  refine ⟨{ (s.pendRose t).settle with pending := s.pending }, rfl, ?_, ?_, ?_⟩
  · have hq : Quiet t (s.pendRose t).settle := (pendRose_quiet s t).trans (settle_quiet _)
    rw [← h, ← hq.pending]
    exact hq
  · intro o ho
    exact List.mem_append_left _ (by rw [pendRose_out]; exact ho)
  · intro page code hr
    obtain ⟨u, hu, hraised⟩ := answer_raised (s := s) hr
    cases hu
    exact hraised

/-- No register of the clock page is one that any command may change. -/
theorem clkA_not_mem_quietRegs {o : Nat} (ho : o < 0x1000) : clkA o ∉ watchRegs ∧ clkA o ∉ countRegs := by
  simp only [watchRegs, countRegs, dbgA, staA, clkA, List.mem_cons, List.not_mem_nil, or_false]
  omega

/-- A register of the clock page reads after quiet changes as before. -/
theorem Quiet.clk_rd {s t : State} (h : Quiet s t) {o : Nat} (ho : o < 0x1000) : t.rd (clkA o) = s.rd (clkA o) :=
  h.rd (clkA_not_mem_quietRegs ho).1 (clkA_not_mem_quietRegs ho).2

theorem Quiet.clk_f {s t : State} (h : Quiet s t) {o : Nat} (ho : o < 0x1000) (hi lo : Nat) :
    t.f (clkA o) hi lo = s.f (clkA o) hi lo := by unfold State.f; rw [h.clk_rd ho]

theorem Quiet.clk_b {s t : State} (h : Quiet s t) {o : Nat} (ho : o < 0x1000) (i : Nat) :
    t.b (clkA o) i = s.b (clkA o) i := by unfold State.b; rw [h.clk_rd ho]

/-! ### Fields and bits after the shared register operations -/

theorem b_report_cause (s : State) (page n code : Nat) (hn : n < 32) :
    (s.report page n code).b (page * 0x1000 + 8) n = true := by
  show bit ((s.setB (page * 0x1000 + 8) n true).rd (page * 0x1000 + 8)) n = true
  rw [rd_setB_same, bit_setBit_same _ _ _ hn]

theorem report_raised (s : State) (page n code : Nat) : (s.report page n code).raised page code := by
  obtain ⟨e, hp, hc, hw⟩ := report_waiting s page n code 0 0 0 0
  exact ⟨e, by rw [hw]; exact List.mem_append_right _ List.mem_cons_self, hp, hc⟩

theorem f_bumpF_same (s : State) (a hi lo : Nat) (h : hi < 32) (hl : lo ≤ hi) :
    (s.bumpF a hi lo).f a hi lo = satAdd (hi + 1 - lo) (s.f a hi lo) 1 := by
  have hlt : satAdd (hi + 1 - lo) (s.f a hi lo) 1 < 2 ^ (hi + 1 - lo) := by
    have := Nat.two_pow_pos (hi + 1 - lo)
    unfold satAdd
    omega
  show fld ((s.setF a hi lo _).rd a) hi lo = _
  rw [rd_setF_same, fld_setFld_same _ _ _ _ h hl, Nat.mod_eq_of_lt hlt]

/-! ### The AVSBus master -/

theorem avsIssue_out (s : State) (v : Nat) : Out.avsWrite v ∈ (s.avsIssue v).out :=
  List.mem_append_right _ List.mem_cons_self

theorem ClkStep.avsIssue {xs : List Nat} {s t : State} (h : ClkStep xs s t) (v : Nat) (ha : clkA 0x070 ∈ xs) :
    ClkStep xs s (t.avsIssue v) := ((h.gov _).setF 9 0 v ha).emit _

theorem requestV_idle {s : State} (v : Nat) (hw : s.avsWrites = true) (hn : s.gov.writing = none) (hr : s.gov.reading = false) :
    s.requestV v = s.avsIssue v := by
  unfold State.requestV
  simp [hw, hn, hr]

/-- The governor with no transaction in progress and no voltage that waits. -/
def State.avsEnded (s : State) : State :=
  { s with gov := { s.gov with writing := none, reading := false, tries := 0, next := none } }

theorem ClkStep.avsEnded {xs : List Nat} {s t : State} (h : ClkStep xs s t) : ClkStep xs s t.avsEnded := h.gov _

theorem avsGood_of_next_none {s : State} (h : s.gov.next = none) : s.avsGood = s.avsEnded := by
  unfold State.avsGood State.avsEnded
  simp only [h]

theorem avsGood_of_next_some {s : State} {v : Nat} (h : s.gov.next = some v) : s.avsGood = s.avsEnded.requestV v := by
  unfold State.avsGood State.avsEnded
  simp only [h]

theorem avsDone_write_good {s : State} (h : s.gov.writing.isSome = true) : s.avsDone true .write = s.avsGood := by
  unfold State.avsDone
  simp [h]

theorem avsDone_voltage_good {s : State} (r : BitVec 10) (h : s.gov.writing = none) :
    s.avsDone true (.voltage r) = (s.setF (clkA 0x070) 25 16 r.toNat).avsGood := by
  unfold State.avsDone
  simp [h]

/-- A transaction of `op` that failed is made again: a retry more, counted in CLK_AVS_STATUS. -/
def State.avsRetry (s : State) (op : AvsOp) : State :=
  { s with gov := { s.gov with tries := s.gov.tries + 1, reading := !decide (op = AvsOp.write) } }.bumpF (clkA 0x074) 15 0

theorem avsDone_write_failed {s : State} {v : Nat} (h : s.gov.writing = some v) (ht : s.gov.tries < 3) :
    s.avsDone false .write = (s.avsRetry .write).emit (.avsWrite v) := by
  unfold State.avsDone State.avsRetry
  simp [h, ht]

theorem avsDone_read_failed {s : State} {op : AvsOp} (h : s.gov.writing = none) (ho : op ≠ .write) (ht : s.gov.tries < 3) :
    s.avsDone false op = s.avsRetry op := by
  unfold State.avsDone State.avsRetry
  simp [h, ht, ho]

theorem avsDone_write_given_up {s : State} (h : s.gov.writing.isSome = true) (ht : s.gov.tries = 3) :
    s.avsDone false .write = s.avsFault := by
  unfold State.avsDone
  simp [h, ht]

theorem ClkStep.avsRetry {xs : List Nat} (s : State) (op : AvsOp) (ha : clkA 0x074 ∈ xs) : ClkStep xs s (s.avsRetry op) :=
  ((refl s).gov _).setF 15 0 _ ha

theorem avsRetry_count (s : State) (op : AvsOp) :
    (s.avsRetry op).f (clkA 0x074) 15 0 = min (s.f (clkA 0x074) 15 0 + 1) 0xFFFF :=
  f_bumpF_same _ (clkA 0x074) 15 0 (by decide) (by decide)

/-- A fault that is not set yet: CLK_AVS_STATUS.fault, cause 2 and its event. -/
theorem avsFault_of_clear {s : State} (h : s.b (clkA 0x074) 31 = false) :
    s.avsFault = (s.avsEnded.setB (clkA 0x074) 31 true).report 2 2 0x0803 :=
  if_neg (by show ¬ s.b (clkA 0x074) 31 = true; rw [h]; decide)

theorem ClkStep.avsFault {s : State} (h : s.b (clkA 0x074) 31 = false) : ClkStep [clkA 0x074, clkA 0x008] s s.avsFault := by
  rw [avsFault_of_clear h]
  exact ((refl s).avsEnded.setB 31 true (by decide)).report 2 0x0803 (by decide)

/-- What a fault that is newly set shows. -/
theorem avsFault_shows {s : State} (h : s.b (clkA 0x074) 31 = false) :
    s.avsFault.b (clkA 0x074) 31 = true ∧ s.avsFault.gov.writing = none ∧ s.avsFault.b (clkA 0x008) 2 = true ∧
      s.avsFault.raised 2 0x0803 := by
  rw [avsFault_of_clear h]
  refine ⟨?_, rfl, b_report_cause _ 2 2 _ (by decide), report_raised _ 2 2 _⟩
  unfold State.b
  rw [rd_report_ne _ _ _ _ _ _ _ (by decide), rd_setB_same, bit_setBit_same _ _ _ (by decide)]

/-! ### CLK_AVS_STATUS under a host write that clears the fault -/

/-- The request that a write of 1 to CLK_AVS_STATUS.fault makes. -/
abbrev faultClearReq : RegReq := resolve (clkA 0x074) (word (2 ^ 31))

theorem faultClearReq_writeWord (w : Word) : writeWord faultClearReq.desc w faultClearReq = w &&& word (2 ^ 31 - 1) := by
  have hdesc : faultClearReq.desc = reg "CLK_AVS_STATUS" 0x074 0 [fW1C 31 31, fRH 15 0] := by decide +kernel
  have hmask : ~~~(maskOf 31 31 &&& faultClearReq.mask &&& faultClearReq.val) = word (2 ^ 31 - 1) := by decide
  rw [hdesc]
  show w &&& ~~~(maskOf 31 31 &&& faultClearReq.mask &&& faultClearReq.val) = _
  rw [hmask]

/-- The write clears bit 31 and leaves the count as it was. -/
theorem faultClear_word (w : Word) :
    bit (w &&& word (2 ^ 31 - 1)) 31 = false ∧ fld (w &&& word (2 ^ 31 - 1)) 15 0 = fld w 15 0 := by
  have hbits : ∀ i, (word (2 ^ 31 - 1)).getLsbD i = decide (i < 31) := fun i => by
    rw [word, BitVec.getLsbD_ofNat, Nat.testBit_two_pow_sub_one]
    by_cases hi : i < 31
    · simp [hi, show i < 32 by omega]
    · simp [hi]
  refine ⟨?_, Nat.eq_of_testBit_eq fun i => ?_⟩
  · rw [bit, BitVec.getLsbD_and, hbits]
    simp
  · rw [fld_testBit, fld_testBit, BitVec.getLsbD_and, hbits]
    by_cases hi : i < 16
    · simp [hi, show i < 31 by omega]
    · simp [hi]

/-- The state once a write of 1 to CLK_AVS_STATUS.fault has stored its fields. -/
def State.avsCleared (s : State) : State := s.wr (clkA 0x074) (s.rd (clkA 0x074) &&& word (2 ^ 31 - 1))

/-- An accepted write of 1 to CLK_AVS_STATUS.fault stores its fields; then watchpoints see it. -/
theorem hostWriteWith_faultClear {s : State} (h : s.accepts (clkA 0x074) (word (2 ^ 31))) :
    s.hostWriteWith (clkA 0x074) (word (2 ^ 31)) true (fun _ s => s) =
      s.avsCleared.watch 0 0 (clkA 0x074) := by
  have haddr : faultClearReq.addr = clkA 0x074 := by decide
  rw [hostWriteWith_accepted s _ _ _ .clk 0 h (by decide) (by decide), haddr, State.storeReg, haddr, faultClearReq_writeWord,
    State.avsCleared]

end Sys2Proof.Machine

/-! ## Voltage transactions

AVSBus transactions, the fault and its clearing, and the loss of a clock (R44, R48, R49). -/

namespace Sys2Proof.Machine

theorem exec_avsTransactionComplete {s : State} (h : s.alive = true) (ok : Bool) (op : AvsOp) :
    exec (.avsTransactionComplete ok op) s = answer s (s.avsDone ok op) := by
  show answer s (if s.alive then s.avsDone ok op else s) = _
  rw [if_pos h]

theorem exec_avsReadbackTimeout {s : State} (hv : s.gov.vset.isSome = true)
    (hd : s.f (clkA 0x070) 25 16 + 10 < s.f (clkA 0x070) 9 0 ∨ s.f (clkA 0x070) 9 0 + 10 < s.f (clkA 0x070) 25 16) :
    exec .avsReadbackTimeout s = answer s s.avsFault := by
  show answer s (if s.gov.vset.isSome ∧ (s.f (clkA 0x070) 9 0 + 10 < s.f (clkA 0x070) 25 16 ∨
    s.f (clkA 0x070) 25 16 + 10 < s.f (clkA 0x070) 9 0) then s.avsFault else s) = _
  rw [if_pos ⟨hv, hd.symm⟩]

/-- The loss of the clock of domain `n`, seen for the first time. -/
theorem clockLoss_of_clear {s : State} {n : Nat} (hn : n < 208) (h : s.b (clkA (0x220 + 4 * (n / 32))) (n % 32) = false) :
    s.clockLoss n =
      (State.setB { s with gov := { s.gov with lost := n :: s.gov.lost.filter (fun m => decide (m ≠ n)) } }
        (clkA (0x220 + 4 * (n / 32))) (n % 32) true).report 2 3 0x0804 := by
  unfold State.clockLoss
  rw [if_neg (by omega)]
  exact if_neg (by show ¬ s.b _ _ = true; rw [h]; decide)

/-- The answer of a transaction that ends in a fault, or of a readback that does. -/
theorem answer_avsFault {s : State} (h : s.b (clkA 0x074) 31 = false) :
    ∃ u, answer s s.avsFault = .next u ∧ u.b (clkA 0x074) 31 = true ∧ u.gov.writing = none ∧ u.b (clkA 0x008) 2 = true ∧
      u.raised 2 0x0803 ∧ RegsBut [clkA 0x074, clkA 0x008] s u ∧ MemKept s u := by
  have hc := ClkStep.avsFault h
  obtain ⟨hbit, hwriting, hcause, hraised⟩ := avsFault_shows h
  obtain ⟨u, hu⟩ := exists_answerOf hc.pending
  exact ⟨u, hu.next, (hu.quiet.clk_b (by decide) 31).trans hbit, (congrArg Clk.writing hu.quiet.gov).trans hwriting,
    (hu.quiet.clk_b (by decide) 2).trans hcause, hu.raised _ _ hraised, hc.regsBut hu.quiet, hc.memKept_of_quiet hu.quiet⟩

end Sys2Proof.Machine

namespace Sys2Proof

open Sys2Proof.Machine

/-- Settles O18, case by case of how a transaction ends. -/
theorem voltageTransactions : Obligations.VoltageTransactions := by
  unfold Obligations.VoltageTransactions
  refine ⟨?goodWrite, ?goodRead, ?failedWrite, ?lastWrite, ?failedRead, ?waiting, ?readback, ?clear, ?clock⟩
  case goodWrite =>
    intro s v ha hw hn
    have hc : ClkStep [] s s.avsEnded := (ClkStep.refl s).avsEnded
    obtain ⟨u, hu⟩ := exists_answerOf hc.pending
    refine ⟨u, ?_, ?_, ?_, hc.regsBut hu.quiet, hc.memKept_of_quiet hu.quiet⟩
    · rw [exec_avsTransactionComplete ha, avsDone_write_good (by rw [hw]; rfl), avsGood_of_next_none hn, hu.next]
    · rw [hu.quiet.gov]; rfl
    · rw [hu.quiet.gov]; rfl
  case goodRead =>
    intro s r ha hw hn
    have hc : ClkStep [clkA 0x070] s (s.setF (clkA 0x070) 25 16 r.toNat).avsEnded :=
      ((ClkStep.refl s).setF 25 16 _ List.mem_cons_self).avsEnded
    obtain ⟨u, hu⟩ := exists_answerOf hc.pending
    have hrd : u.rd (clkA 0x070) = setFld (s.rd (clkA 0x070)) 25 16 r.toNat :=
      (hu.quiet.clk_rd (by decide)).trans (rd_setF_same s (clkA 0x070) 25 16 _)
    refine ⟨u, ?_, ?_, ?_, ?_, hc.regsBut hu.quiet, hc.memKept_of_quiet hu.quiet⟩
    · have hn' : (s.setF (clkA 0x070) 25 16 r.toNat).gov.next = none := hn
      rw [exec_avsTransactionComplete ha, avsDone_voltage_good r hw, avsGood_of_next_none hn', hu.next]
    · rw [hu.quiet.gov]; rfl
    · rw [State.f, hrd, fld_setFld_same _ _ _ _ (by decide) (by decide), Nat.mod_eq_of_lt r.isLt]
    · rw [State.f, hrd, fld_setFld_ne _ _ _ _ _ _ (by decide) (by decide) (by decide), State.f]
  case failedWrite =>
    intro s v ha hw ht
    have hc : ClkStep [clkA 0x074] s ((s.avsRetry .write).emit (.avsWrite v)) := (ClkStep.avsRetry s _ List.mem_cons_self).emit _
    obtain ⟨u, hu⟩ := exists_answerOf hc.pending
    refine ⟨u, ?_, ?_, hu.out _ (List.mem_append_right _ List.mem_cons_self), ?_, hc.regsBut hu.quiet,
      hc.memKept_of_quiet hu.quiet⟩
    · rw [exec_avsTransactionComplete ha, avsDone_write_failed hw ht, hu.next]
    · rw [hu.quiet.gov]; rfl
    · rw [hu.quiet.clk_f (by decide)]; exact avsRetry_count s _
  case lastWrite =>
    intro s v ha hw ht hf
    obtain ⟨u, hu, hbit, hwriting, hcause, hraised, hregs, hmem⟩ := answer_avsFault hf
    refine ⟨u, ?_, hbit, hwriting, hcause, hraised, hregs, hmem⟩
    rw [exec_avsTransactionComplete ha, avsDone_write_given_up (by rw [hw]; rfl) ht, hu]
  case failedRead =>
    intro s op ha hw ho ht
    have hc : ClkStep [clkA 0x074] s (s.avsRetry op) := ClkStep.avsRetry s _ List.mem_cons_self
    obtain ⟨u, hu⟩ := exists_answerOf hc.pending
    refine ⟨u, ?_, ?_, ?_, ?_, hc.regsBut hu.quiet, hc.memKept_of_quiet hu.quiet⟩
    · rw [exec_avsTransactionComplete ha, avsDone_read_failed hw ho ht, hu.next]
    · rw [hu.quiet.gov]; rfl
    · rw [hu.quiet.gov]; simp [State.avsRetry, ho]
    · rw [hu.quiet.clk_f (by decide)]; exact avsRetry_count s _
  case waiting =>
    intro s v ha hw hn hok
    have hc : ClkStep [clkA 0x070] s (s.avsEnded.avsIssue v) := (ClkStep.refl s).avsEnded.avsIssue v List.mem_cons_self
    obtain ⟨u, hu⟩ := exists_answerOf hc.pending
    refine ⟨u, ?_, ?_, ?_, hu.out _ (avsIssue_out _ v), hc.regsBut hu.quiet, hc.memKept_of_quiet hu.quiet⟩
    · rw [exec_avsTransactionComplete ha, avsDone_write_good hw, avsGood_of_next_some hn,
        requestV_idle (s := s.avsEnded) v hok rfl rfl, hu.next]
    · rw [hu.quiet.gov]; rfl
    · rw [hu.quiet.gov]; rfl
  case readback =>
    intro s hv hd hf
    obtain ⟨u, hu, hbit, -, hcause, hraised, hregs, hmem⟩ := answer_avsFault hf
    exact ⟨u, (exec_avsReadbackTimeout hv hd).trans hu, hbit, hcause, hraised, hregs, hmem⟩
  case clear =>
    intro s h
    obtain ⟨m, hwatch⟩ := watch_quiet s.avsCleared 0 0 (clkA 0x074)
    have hc : ClkStep [clkA 0x074] s { s.avsCleared with macs := m } :=
      ((ClkStep.refl s).wr _ List.mem_cons_self).macs m
    obtain ⟨u, hu⟩ := exists_answerOf (hwatch.pending.trans hc.pending)
    have hq := hwatch.trans hu.quiet
    have hrd : u.rd (clkA 0x074) = s.rd (clkA 0x074) &&& word (2 ^ 31 - 1) :=
      (hq.clk_rd (by decide)).trans (rd_wr_same s (clkA 0x074) _)
    obtain ⟨hbit, hcount⟩ := faultClear_word (s.rd (clkA 0x074))
    refine ⟨u, ?_, ?_, ?_, hc.regsBut hq, hc.memKept_of_quiet hq⟩
    · rw [← hostWriteWith_faultClear h] at hu
      exact hu.next
    · rw [State.b, hrd, hbit]
    · rw [State.f, hrd, hcount, State.f]
  case clock =>
    intro s d hp hd hb
    have ha : 0x220 + 4 * (d.val / 32) < 0x1000 := by omega
    have hc : ClkStep [clkA (0x220 + 4 * (d.val / 32)), clkA 0x008] s (s.clockLoss d.val) := by
      rw [clockLoss_of_clear hd hb]
      exact (((ClkStep.refl s).gov _).setB _ true List.mem_cons_self).report 3 0x0804 (List.mem_cons_of_mem _ List.mem_cons_self)
    obtain ⟨u, hu⟩ := exists_answerOf hc.pending
    refine ⟨u, ?_, ?_, ?_, ?_, hc.regsBut hu.quiet, hc.memKept_of_quiet hu.quiet⟩
    · show answer s (if s.pmu.por then s.clockLoss d.val else s) = _
      rw [if_pos hp, hu.next]
    · rw [hu.quiet.clk_b ha, clockLoss_of_clear hd hb, State.b, rd_report_ne _ _ _ _ _ _ _ (by unfold clkA; omega),
        rd_setB_same, bit_setBit_same _ _ _ (by omega)]
    · rw [hu.quiet.clk_b (by decide), clockLoss_of_clear hd hb]
      exact b_report_cause _ 2 3 _ (by decide)
    · refine hu.raised _ _ ?_
      rw [clockLoss_of_clear hd hb]
      exact report_raised _ 2 3 _

end Sys2Proof

/-! ## The monitors' window and the cadence readings (R38, R487)

A region whose reading is 0 for a second window is declared faulty in the same step, and a frame lost with it leaves its rule
version: `State.drainSub` writes TOP_VER_DRAIN of the version the frame carries. Nothing in the statement bounds that version,
and 0x310 + 4 × 1,916, where the counter of version 1,916 would stand, is the address 0x2100 of CLK_MON_CADENCE[0]. -/

namespace Sys2Proof.Machine

/-- A running device with one frame, of version 1,916, in a stage of pipeline 4, whose region has read 0 in one window. -/
def strayVersionState : State :=
  { pmu := { por := true, enCore := true },
    frames := [(1, { id := 1, src := 64, pipe := 4, version := 1916, admitted := true, place := .stage 1 })],
    spr := { stopped := [(4, 1)] } }

/-- A window in which region 4 reads 0 and every other region 5. -/
def region4Stopped : List (BitVec 12) := (List.replicate 37 5).set 4 0

/-- The step stores 5 for region 0, then counts the lost frame out of its version, in the same register. -/
theorem strayVersion_cadence0 : (strayVersionState.monitorWindow region4Stopped).rd (clkA 0x100) = 4 := by decide +kernel

theorem exec_monitorWindowEnd_of_bus_free {s : State} (h : s.alive = true) (reads : List (BitVec 12)) :
    exec (.monitorWindowEnd (reads, false)) s = answer s (s.monitorWindow reads) := by
  show answer s (if s.alive then (s.avsReading false).monitorWindow reads else s) = _
  rw [if_pos h, State.avsReading, if_neg (by simp)]

end Sys2Proof.Machine

namespace Sys2Proof

open Sys2Proof.Machine

/-- Refutes O17: its monitor clause ranges over states with a frame whose rule version is none of the 8. Such a frame, lost with
the region that the same window declares, is counted out of its version in CLK_MON_CADENCE[0], which reads 4 where 5 was
measured. In a run a frame takes its version from C (R191), which is below 8, so `strayVersionState` is a state that the
statement admits and not one that a run is known to reach. -/
theorem not_governorStepsTheVoltage : ¬ Obligations.GovernorStepsTheVoltage := by
  unfold Obligations.GovernorStepsTheVoltage
  rintro ⟨-, -, hwindow, -⟩
  obtain ⟨t, ht, hreadings, -⟩ := hwindow strayVersionState region4Stopped false (by decide) (by decide)
  obtain ⟨u, hu, hquiet, -⟩ := answer_next strayVersionState (strayVersionState.monitorWindow region4Stopped)
  rw [exec_monitorWindowEnd_of_bus_free (by decide), hu] at ht
  cases ht
  have hshown : u.rd (clkA 0x100) = 5 := hreadings 0
  have hstored : u.rd (clkA 0x100) = 4 := (hquiet.clk_rd (by decide)).trans strayVersion_cadence0
  exact absurd (hshown.symm.trans hstored) (by decide)

end Sys2Proof

/-! ## Lanes, links and MACs where a copy in transmission ends (R86, R91, R100)

A link that goes down drops the copy in transmission, which leaves its rule version: `State.drainSub` writes TOP_VER_DRAIN of the
version that the copy carries. Nothing in the statements bounds that version, and 0x310 + 4 × 18,254 is the address 0x12048 of
SDS_LANE_CTL[0] of quad 2, and 0x310 + 4 × 40,782 the address 0x28048 of MAC_STATUS of port 8. -/

namespace Sys2Proof.Machine

/-- No register past the STA page is one that any command may change. -/
theorem pastSta_not_mem_quietRegs {a : Nat} (ha : 0xA000 ≤ a) : a ∉ watchRegs ∧ a ∉ countRegs := by
  simp only [watchRegs, countRegs, dbgA, staA, List.mem_cons, List.not_mem_nil, or_false]
  omega

theorem Quiet.pastSta_rd {s t : State} (h : Quiet s t) {a : Nat} (ha : 0xA000 ≤ a) : t.rd a = s.rd a :=
  h.rd (pastSta_not_mem_quietRegs ha).1 (pastSta_not_mem_quietRegs ha).2

theorem Quiet.mac {s t : State} (h : Quiet s t) (p : Nat) : t.mac p = s.mac p := by unfold State.mac; rw [h.macs]

/-- A register past the STA page reads in the answer as the command's effect left it. -/
theorem rd_of_answer {s t u : State} (h : answer s t = .next u) {a : Nat} (ha : 0xA000 ≤ a) : u.rd a = t.rd a := by
  obtain ⟨v, hv, hq, -⟩ := answer_next s t
  rw [hv] at h
  cases h
  exact hq.pastSta_rd ha

/-- A MAC stands in the answer as the command's effect left it. -/
theorem mac_of_answer {s t u : State} (h : answer s t = .next u) (p : Nat) : u.mac p = t.mac p := by
  obtain ⟨v, hv, hq, -⟩ := answer_next s t
  rw [hv] at h
  cases h
  exact hq.mac p

/-- Whether a lane is on is told by registers of its quad's page alone. -/
theorem laneOn_of_answer {s t u : State} (h : answer s t = .next u) (q l : Nat) : u.laneOn q l = t.laneOn q l := by
  have hpage : ∀ o, u.rd (sdsA q o) = t.rd (sdsA q o) := fun o => rd_of_answer h (by unfold sdsA; omega)
  have hgov : u.govLane q l = t.govLane q l := by unfold State.govLane State.f; rw [hpage]
  unfold State.laneOn State.b laneCtlA
  rw [hgov, hpage]

/-- LINK_DOWN at a lane of a carried port, for a loss that is not the MAC's own fault. -/
theorem exec_linkDown {s : State} {p : Port} {l : Fin 4} {lost : Fin 6} (hc : s.carried p.val = true)
    (hl : (s.portLanes p.val).contains l.val = true) (hf : lost.val ≠ 5) :
    exec (.linkDown p (l, lost)) s = answer s (s.linkFail p.val l.val lost.val) := by
  show answer s (if s.carried p.val = false ∨ (s.portLanes p.val).contains l.val = false then s
    else if lost.val = 5 then s.macFault p.val 1 else s.linkFail p.val l.val lost.val) = _
  rw [if_neg (by rw [hc, hl]; decide), if_neg hf]

/-! ### A copy whose version is none of the 8 -/

/-- A device that runs, port 8 up on lane 0 of quad 2, sending a copy of version 18,254. -/
def strayLaneState : State :=
  { pmu := { por := true, enCore := true }, hif := { linkUp := true },
    regs := [(topA 0x048, 2), (laneCtlA 2 0, 0x31), (macA 8 0x048, 1)],
    copies := [(1, { id := 1, port := 8, version := 18254 })], tmg := { tx := [(8, { copy := 1 })] } }

/-- What LANE_ENABLE_CHANGE to 0 leaves of it. -/
def strayLaneEffect : State :=
  strayLaneState.hostFar (laneCtlA 2 0) (setBit (strayLaneState.rd (laneCtlA 2 0)) 0 false) (fun _ s => s.laneEnable 2 0 true)

/-- SDS_LANE_CTL takes 0x30 with en at 0; the copy that ends counts it down to 0x2F, in which en is 1. -/
theorem strayLane_stays_on : strayLaneEffect.laneOn 2 0 = true := by decide +kernel

/-- Port 8 up with a remote fault, sending a copy of version 40,782. -/
def strayStatusState : State :=
  { regs := [(macA 8 0x048, 0x21)], copies := [(1, { id := 1, port := 8, version := 40782 })],
    tmg := { tx := [(8, { copy := 1 })] } }

/-- The loss of signal at lane 0 clears MAC_STATUS.link to 0x20; the copy that ends counts it down to 0x1F. -/
theorem strayStatus_stays_up : (strayStatusState.linkFail 8 0 0).b (macA 8 0x048) 0 = true := by decide +kernel

/-! ### A preempted frame waits -/

/-- Port 8 up with preemption active, one frame preempted and none in transmission. -/
def preemptedState : State :=
  { pmu := { por := true, enCore := true }, hif := { linkUp := true },
    regs := [(topA 0x048, 2), (macA 8 0x040, 2), (macA 8 0x048, 1), (macA 8 0x064, 1), (macA 8 0x068, 0x13)],
    macs := [(8, { txEn := true })], copies := [(1, { id := 1, port := 8 })],
    tmg := { yielded := [(8, { copy := 1, sent := 64 })] } }

/-- What MAC_TX_DISABLE leaves of it. -/
def preemptedEffect : State :=
  preemptedState.hostFar (macA 8 0x040) (setBit (preemptedState.rd (macA 8 0x040)) 1 false) (fun _ s => s.txBoundary 8)

theorem preempted_txEn_stays : (preemptedEffect.mac 8).txEn = true := by decide +kernel

end Sys2Proof.Machine

namespace Sys2Proof

open Sys2Proof.Machine

/-- Refutes O19: its clause on the disabling of a port's lanes ranges over states in which the port sends a copy whose rule
version is none of the 8. The copy ends with the link and is counted out of its version in SDS_LANE_CTL of the lane, whose en
then reads 1. In a run a frame takes its version from C (R191), which is below 8, so `strayLaneState` is a state that the
statement admits and not one that a run is known to reach. -/
theorem not_lanesTrainAndLock : ¬ Obligations.LanesTrainAndLock := by
  unfold Obligations.LanesTrainAndLock
  rintro ⟨-, hdisable, -⟩
  obtain ⟨t, ht, hoff⟩ := hdisable strayLaneState 2 0 (by decide) (by decide) (by decide +kernel)
  have heff : answer strayLaneState strayLaneEffect = .next t := ht
  have hon : t.laneOn 2 0 = true := (laneOn_of_answer heff 2 0).trans strayLane_stays_on
  obtain ⟨hlane, -⟩ := hoff 0 (by decide)
  exact absurd (hlane.symm.trans hon) (by decide)

/-- Refutes O20: its clause on LINK_DOWN ranges over states in which the port sends a copy whose rule version is none of the 8.
The copy ends with the link and is counted out of its version in MAC_STATUS of the port, whose link then reads 1. As for O19,
`strayStatusState` is a state that the statement admits and not one that a run is known to reach. -/
theorem not_linksComeUpAndGoDown : ¬ Obligations.LinksComeUpAndGoDown := by
  unfold Obligations.LinksComeUpAndGoDown
  rintro ⟨-, hdown, -⟩
  have hc : strayStatusState.carried (8 : Port).val = true := by decide
  have hl : (strayStatusState.portLanes (8 : Port).val).contains (0 : Fin 4).val = true := by decide
  obtain ⟨t, ht, hlink, -⟩ := hdown strayStatusState 8 0 0 hc hl (by decide)
  rw [exec_linkDown hc hl (by decide)] at ht
  have hup : t.b (macA 8 0x048) 0 = true := by
    rw [State.b, rd_of_answer ht (by decide)]
    exact strayStatus_stays_up
  exact absurd (hlink.symm.trans hup) (by decide)

/-- Refutes O21: its clause on MAC_TX_DISABLE asks that no copy is in transmission, and leaves out a preempted frame that waits to
continue. While one waits the transmit MAC is at no frame boundary, so the enable in force stays set. -/
theorem not_macControlFrames : ¬ Obligations.MacControlFrames := by
  unfold Obligations.MacControlFrames
  rintro ⟨-, -, -, -, -, -, -, hdisable, -⟩
  obtain ⟨t, ht, hclear, -⟩ := hdisable preemptedState 8 (by decide +kernel) (by decide)
  have heff : answer preemptedState preemptedEffect = .next t := ht
  have hset : (t.mac 8).txEn = true := by
    rw [mac_of_answer heff 8]
    exact preempted_txEn_stays
  exact absurd (hclear.symm.trans hset) (by decide)

end Sys2Proof

/-! ## Frames in reception (R92 to R95)

What counting leaves alone, what the commands of the receive MAC may change, and one equation for each way in which a frame
begins and ends. -/

namespace Sys2Proof.Machine

/-! ### Counts are quiet -/

theorem ledZ_quiet (s : State) (page code inst term : Nat) (z : Int) : Quiet s (s.ledZ page code inst term z) := by
  unfold State.ledZ
  split <;> exact ⟨⟨_, _, _, _, _, _, rfl⟩, fun _ _ _ => rfl⟩

theorem led_quiet (s : State) (page code inst term n : Nat) : Quiet s (s.led page code inst term n) := ledZ_quiet _ _ _ _ _ _

theorem slot_quiet (s : State) (p i n : Nat) : Quiet s (s.slot p i n) := cntAdd_quiet _ _ _ _

theorem rxBegun_quiet (s : State) (p : Nat) : Quiet s (s.rxBegun p) :=
  ((slot_quiet _ _ _ _).trans (led_quiet _ _ _ _ _ _)).trans (pmc_quiet _ _ _ _)

theorem countDrop_quiet (s : State) (page p r : Nat) : Quiet s (s.countDrop page p r) :=
  ((cntAdd_quiet _ _ _ _).trans (led_quiet _ _ _ _ _ _)).trans (pmc_quiet _ _ _ _)

theorem rxSlots_quiet (s : State) (p n : Nat) (da : List Byte) : Quiet s (s.rxSlots p n da) :=
  (((slot_quiet s _ _ _).trans (slot_quiet _ _ _ _)).trans (slot_quiet _ _ _ _)).trans
    ⟨⟨_, _, _, _, _, _, rfl⟩, fun _ _ _ => rfl⟩

theorem rxCount_quiet (s : State) (fid : Nat) : Quiet s (s.rxCount fid) := by
  unfold State.rxCount
  simp only
  split
  · exact Quiet.refl s
  · exact rxSlots_quiet _ _ _ _

theorem Quiet.frame {s t : State} (h : Quiet s t) (i : Nat) : t.frame i = s.frame i := by unfold State.frame; rw [h.frames]

/-- How much staging holds is told by a register past the STA page. -/
theorem Quiet.stageFits {s t : State} (h : Quiet s t) (k a n : Nat) : t.stageFits k a n = s.stageFits k a n := by
  unfold State.stageFits State.stageHeld State.f
  rw [h.pastSta_rd (by unfold glfA; omega)]

/-! ### The slots of the ports

Performance counters stand at 0x20000 and above of the live bank (R407), the slots of the front ports below. -/

/-- From `s` to `t` the slots below 0x20000, the fronts that have passed and the mode that counters count under stand. -/
structure SlotsKept (s t : State) : Prop where
  front : t.rd (staA 0x040) = s.rd (staA 0x040)
  fronts : t.sta.passed = s.sta.passed
  oldFree : t.sta.oldFree = s.sta.oldFree
  cnt : ∀ k < 0x20000, t.sta.cnt.at 0 k = s.sta.cnt.at 0 k

namespace SlotsKept

variable {s t u : State}

theorem refl (s : State) : SlotsKept s s := ⟨rfl, rfl, rfl, fun _ _ => rfl⟩

theorem trans (h1 : SlotsKept s t) (h2 : SlotsKept t u) : SlotsKept s u :=
  ⟨h2.front.trans h1.front, h2.fronts.trans h1.fronts, h2.oldFree.trans h1.oldFree,
    fun k hk => (h2.cnt k hk).trans (h1.cnt k hk)⟩

theorem of_sta (hs : t.sta = s.sta) (hr : t.rd (staA 0x040) = s.rd (staA 0x040)) : SlotsKept s t :=
  ⟨hr, by rw [hs], by rw [hs], fun _ _ => by rw [hs]⟩

theorem passed (h : SlotsKept s t) (page : Nat) : t.passed page = s.passed page := by
  unfold State.passed State.b
  rw [h.front, h.fronts]

theorem freeMode (h : SlotsKept s t) (page : Nat) : t.freeMode page = s.freeMode page := by
  unfold State.freeMode State.b
  rw [h.passed, h.front, h.oldFree]

end SlotsKept

theorem putCnt_slotsKept (s : State) (page : Nat) {k : Nat} (x : Nat) (hk : 0x20000 ≤ k) : SlotsKept s (s.putCnt page k x) := by
  unfold State.putCnt
  split
  · exact ⟨rfl, rfl, rfl, fun _ _ => rfl⟩
  · exact ⟨rfl, rfl, rfl, fun j hj => SMap.at_put_ne _ _ _ (by omega)⟩

theorem capture_sta (s : State) (a w : Nat) : (s.capture a w).sta = s.sta := by
  unfold State.capture
  split
  · rfl
  · simp only [forEach, List.foldl_nil]
    exact wr_sta _ _ _

/-- A count in a performance counter. -/
theorem cntAdd_slotsKept (s : State) (page : Nat) {k : Nat} (n : Nat) (hk : 0x20000 ≤ k) : SlotsKept s (s.cntAdd page k n) := by
  obtain ⟨x, w, h | h⟩ := cntAdd_cases s page k n <;> rw [h]
  · exact putCnt_slotsKept s page x hk
  · have hq := (capture_quiet (s.putCnt page k x) (k / 8)).trans
      (quiet_report (page := 9) _ 1 0x2402 w 0 0 0 (.inr (by decide)))
    exact (putCnt_slotsKept s page x hk).trans
      (.of_sta ((report_sta _ _ _ _ _ _ _ _).trans (capture_sta _ _ _)) (hq.rd (by decide) (by decide)))

theorem pmc_slotsKept (s : State) (page ev n : Nat) : SlotsKept s (s.pmc page ev n) := by
  unfold State.pmc
  split
  · exact forEach_keeps (fun t => SlotsKept s t) _ _ _ (.refl s) (fun t c _ h => h.trans (cntAdd_slotsKept t _ _ (by omega)))
  · exact .refl s

theorem ledZ_slotsKept (s : State) (page code inst term : Nat) (z : Int) : SlotsKept s (s.ledZ page code inst term z) := by
  unfold State.ledZ
  split <;> exact ⟨rfl, rfl, rfl, fun _ _ => rfl⟩

/-- The slots of the ports stand in the answer as the command's effect left them. -/
theorem cnt_of_answer {s t u : State} (h : answer s t = .next u) {k : Nat} (hk : k < 0x20000) :
    u.sta.cnt.at 0 k = t.sta.cnt.at 0 k := by
  cases h
  exact (forEach_keeps (fun v => SlotsKept t v) _ _ _ (.refl t) (fun v p _ h => h.trans (pmc_slotsKept v p 6 1))).cnt k hk

/-- In period mode, ahead of the front, a count adds to the live counter. -/
theorem cntAdd_cnt {s : State} {page : Nat} (k n : Nat) (hp : s.passed page = false) (hm : s.freeMode page = false) :
    (s.cntAdd page k n).sta.cnt.at 0 k = satAdd 48 (s.sta.cnt.at 0 k) n := by
  unfold State.cntAdd State.putCnt
  simp [hp, hm]

/-! ### What a command of the receive MAC may change -/

/-- From `s` to `t` only registers, MACs, frames, statistics, waiting events, draws, vector levels and the outbox have
changed. -/
def RxStep (s t : State) : Prop :=
  ∃ regs macs frames nextId sta evr fresh hif out,
    t = { s with regs := regs, macs := macs, frames := frames, nextId := nextId, sta := sta, evr := evr, fresh := fresh,
                 hif := hif, out := out }

theorem Quiet.rxStep {s t : State} (h : Quiet s t) : RxStep s t := by
  obtain ⟨⟨_, _, _, _, _, _, rfl⟩, _⟩ := h
  exact ⟨_, _, _, _, _, _, _, _, _, rfl⟩

namespace RxStep

variable {s t u : State}

theorem refl (s : State) : RxStep s s := ⟨_, _, _, _, _, _, _, _, _, rfl⟩

theorem trans (h1 : RxStep s t) (h2 : RxStep t u) : RxStep s u := by
  obtain ⟨_, _, _, _, _, _, _, _, _, rfl⟩ := h1
  obtain ⟨_, _, _, _, _, _, _, _, _, rfl⟩ := h2
  exact ⟨_, _, _, _, _, _, _, _, _, rfl⟩

theorem pending (h : RxStep s t) : t.pending = s.pending := by obtain ⟨_, _, _, _, _, _, _, _, _, rfl⟩ := h; rfl

theorem memKept (h : RxStep s t) : MemKept s t := by
  obtain ⟨_, _, _, _, _, _, _, _, _, rfl⟩ := h
  exact fun _ => ⟨rfl, rfl, rfl, rfl, rfl⟩

theorem flowKept (h : RxStep s t) (hf : t.frames = s.frames) : FlowKept s t := by
  obtain ⟨_, _, _, _, _, _, _, _, _, rfl⟩ := h
  exact ⟨hf, rfl, rfl, rfl, rfl⟩

theorem setMac (h : RxStep s t) (p : Nat) (m : MacX) : RxStep s (t.setMac p m) := h.trans ⟨_, _, _, _, _, _, _, _, _, rfl⟩

theorem setFrame (h : RxStep s t) (f : Frame) : RxStep s (t.setFrame f) := h.trans ⟨_, _, _, _, _, _, _, _, _, rfl⟩

theorem wr (h : RxStep s t) (a : Nat) (w : Word) : RxStep s (t.wr a w) := h.trans ⟨_, _, _, _, _, _, _, _, _, rfl⟩

theorem emit (h : RxStep s t) (o : Out) : RxStep s (t.emit o) := h.trans ⟨_, _, _, _, _, _, _, _, _, rfl⟩

theorem quiet (h : RxStep s t) (hq : Quiet t u) : RxStep s u := h.trans hq.rxStep

end RxStep

/-- From `s` to `t` besides no frame in the core has changed, and no register but what any command may change. -/
structure MacStep (s t : State) : Prop where
  step : RxStep s t
  frames : t.frames = s.frames
  regs : RegsBut [] s t

theorem Quiet.macStep {s t : State} (h : Quiet s t) : MacStep s t := ⟨h.rxStep, h.frames, h.regsBut⟩

theorem macStep_macs (s : State) (m : SMap MacX) : MacStep s { s with macs := m } :=
  ⟨⟨_, _, _, _, _, _, _, _, _, rfl⟩, rfl, fun _ _ _ _ => rfl⟩

theorem MacStep.trans {s t u : State} (h1 : MacStep s t) (h2 : MacStep t u) : MacStep s u :=
  ⟨h1.step.trans h2.step, h2.frames.trans h1.frames, fun a hx hw hc => (h2.regs a hx hw hc).trans (h1.regs a hx hw hc)⟩

theorem MacStep.flowKept {s t : State} (h : MacStep s t) : FlowKept s t := h.step.flowKept h.frames

/-! ### Frames in staging -/

/-- What the arrival of more bytes leaves of a frame's record. -/
theorem frame_stageBytes {s : State} {fid : Nat} (bs : List Byte) (hid : (s.frame fid).id = fid) :
    ∃ n, (s.stageBytes fid bs).frame fid = { s.frame fid with bytes := (s.frame fid).bytes ++ bs, stg := n } := by
  have h := frame_setFrame_same s { s.frame fid with
    bytes := (s.frame fid).bytes ++ bs,
    stg := (s.frame fid).stg + (cellsOf ((s.frame fid).bytes.length + bs.length) - cellsOf (s.frame fid).bytes.length) }
  rw [show Frame.id _ = fid from hid] at h
  have hq : (s.stageBytes fid bs).frame fid = _ := (led_quiet _ _ _ _ _ _).frame fid
  exact ⟨_, hq.trans h⟩

theorem stageBytes_macs (s : State) (fid : Nat) (bs : List Byte) : (s.stageBytes fid bs).macs = s.macs :=
  (led_quiet _ _ _ _ _ _).macs

theorem stageBytes_nextId (s : State) (fid : Nat) (bs : List Byte) : (s.stageBytes fid bs).nextId = s.nextId :=
  (led_quiet _ _ _ _ _ _).nextId

theorem RxStep.stageBytes {s t : State} (h : RxStep s t) (fid : Nat) (bs : List Byte) : RxStep s (t.stageBytes fid bs) :=
  ((h.setFrame _).wr _ _).quiet (led_quiet _ _ _ _ _ _)

/-- A frame in staging is not forgotten. -/
theorem gcFrame_of_staged {s : State} {fid : Nat} (h : (s.frame fid).place = .staged) : s.gcFrame fid = s := by
  unfold State.gcFrame
  rw [if_neg (by rw [h]; simp)]

/-! ### The start of a frame (R92, R108) -/

/-- How a frame begins at an open port: held at the MAC, refused by a full staging, or handed to the core. -/
theorem rxBegin_open {s : State} {p : Nat} (bs : List Byte) (loop : Option (List Byte)) (ho : s.rxOpen p = true) :
    ∃ v r, Quiet s v ∧ r.bytes = bs ∧ r.loop = loop ∧ r.msc = s.mscPort p ∧
      s.rxBegin p bs loop =
        if bs.length < 64 ∨ heldAtMac r.msc bs = true then v.setMac p { v.mac p with rx := some r }
        else if v.stageFits (p / 16) 0 bs.length = false then
          v.setMac p { v.mac p with rx := some { r with full := r.fullReason } }
        else
          ((v.newRx p r).2.setMac p { (v.newRx p r).2.mac p with rx := some { r with fid := some (v.newRx p r).1 } }).stageBytes
            (v.newRx p r).1 bs := by
  unfold State.rxBegin
  rw [if_neg (by rw [ho]; decide)]
  refine ⟨_, _, ?_, ?_, ?_, ?_, rfl⟩
  · split
    · exact rxBegun_quiet s p
    · exact Quiet.refl s
  all_goals rfl

/-- A frame of fewer than 64 bytes is held at the MAC. -/
theorem rxBegin_short {s : State} {p : Nat} {bs : List Byte} (loop : Option (List Byte)) (ho : s.rxOpen p = true)
    (hn : bs.length < 64) :
    MacStep s (s.rxBegin p bs loop) ∧
      ∃ r, (s.rxBegin p bs loop).mac p = { s.mac p with rx := some r } ∧ r.bytes = bs ∧ r.loop = loop := by
  obtain ⟨v, r, hq, hbytes, hloop, -, heq⟩ := rxBegin_open bs loop ho
  rw [heq, if_pos (.inl hn)]
  exact ⟨hq.macStep.trans (macStep_macs _ _), r, by rw [mac_setMac_same, hq.mac], hbytes, hloop⟩

/-- A new frame stands in staging with no bytes yet, under the next id. -/
theorem newRx_eq (s : State) (p : Nat) (r : RxFrame) :
    ∃ f : Frame, s.newRx p r = (s.nextId, { s.setFrame f with nextId := s.nextId + 1 }) ∧ f.id = s.nextId ∧ f.src = p ∧
      f.place = .staged ∧ f.bytes = [] := ⟨_, rfl, rfl, rfl, rfl, rfl⟩

/-- A frame of 64 bytes or more that nothing holds at the MAC is handed to the core with its bytes. -/
theorem rxBegin_long {s : State} {p : Nat} {bs : List Byte} (loop : Option (List Byte)) (ho : s.rxOpen p = true)
    (hn : 64 ≤ bs.length) (hh : heldAtMac (s.mscPort p) bs = false) (hs : s.stageFits (p / 16) 0 bs.length = true) :
    RxStep s (s.rxBegin p bs loop) ∧ (s.rxBegin p bs loop).nextId = s.nextId + 1 ∧
      ((s.rxBegin p bs loop).frame s.nextId).bytes = bs ∧ ((s.rxBegin p bs loop).frame s.nextId).src = p ∧
      ((s.rxBegin p bs loop).frame s.nextId).place = .staged ∧
      ((s.rxBegin p bs loop).mac p).rx.bind (fun r => r.fid) = some s.nextId := by
  obtain ⟨v, r, hq, -, -, hmsc, heq⟩ := rxBegin_open bs loop ho
  obtain ⟨f, hnew, hid, hsrc, hplace, hempty⟩ := newRx_eq v p r
  rw [if_neg (by rw [hmsc, hh]; simp; omega), if_neg (by rw [hq.stageFits, hs]; decide), hnew, hq.nextId] at heq
  rw [heq]
  generalize hw : State.setMac _ p _ = w
  have hframe : w.frame s.nextId = f := by
    rw [← hw, ← hq.nextId, ← hid]
    exact frame_setFrame_same v f
  have hmac : (w.mac p).rx = some { r with fid := some s.nextId } := by
    rw [← hw, mac_setMac_same]
  have hnext : w.nextId = s.nextId + 1 := by rw [← hw]; rfl
  have hstep : RxStep s w := by
    rw [← hw]
    exact hq.rxStep.trans ⟨_, _, _, _, _, _, _, _, _, rfl⟩
  obtain ⟨n, hstaged⟩ := frame_stageBytes (s := w) (fid := s.nextId) bs (by rw [hframe, hid, hq.nextId])
  refine ⟨hstep.stageBytes _ _, (stageBytes_nextId _ _ _).trans hnext, ?_, ?_, ?_, ?_⟩
  · rw [hstaged, hframe, hempty, List.nil_append]
  · rw [hstaged, hframe, hsrc]
  · rw [hstaged, hframe, hplace]
  · rw [State.mac, stageBytes_macs]
    exact congrArg (fun x => Option.bind x fun r : RxFrame => r.fid) hmac

/-- A port that hears its partner begins the frame that arrives; in far-end loop it also keeps it to send it back. -/
theorem rxStart_wire {s : State} {p : Nat} (bs : List Byte) (hl : s.portLoop p ≠ 1) (hr : (s.mac p).rx.isSome = false) :
    ∃ m, s.rxStart p bs = ({ s with macs := m } : State).rxBegin p bs none ∧
      ({ s with macs := m } : State).rxOpen p = s.rxOpen p := by
  unfold State.rxStart
  rw [if_neg (by rw [hr]; decide)]
  split
  · contradiction
  · refine ⟨_, rfl, ?_⟩
    show (_ && (SMap.at (SMap.put _ _ _ _) _ _ : MacX).rxEn && _) = _
    rw [SMap.at_put_same]
    rfl
  · exact ⟨s.macs, rfl, rfl⟩

/-- In near-end loop the frame that begins is the oldest that the port has sent, cut where the sender cuts. -/
theorem rxStart_loop {s : State} {p : Nat} {f : List Byte} {rest : List (List Byte)} (bs : List Byte) (hl : s.portLoop p = 1)
    (hr : (s.mac p).rx.isSome = false) (hf : (s.mac p).loop = f :: rest) :
    s.rxStart p bs =
      (s.setMac p { s.mac p with loop := rest }).rxBegin p (f.take bs.length) (some (f.drop bs.length)) := by
  unfold State.rxStart
  rw [if_neg (by rw [hr]; decide)]
  simp only [hl, hf]

/-- What a port keeps of what it has sent does not bear on whether its receiver is open. -/
theorem rxOpen_setMac_loop (s : State) (p : Nat) (l : List (List Byte)) :
    (s.setMac p { s.mac p with loop := l }).rxOpen p = s.rxOpen p := by
  unfold State.rxOpen
  rw [mac_setMac_same]
  rfl

/-! ### A frame that the core does not know is dropped (R12, R93, R94) -/

theorem rxDrop_unseen {s : State} {p : Nat} {r : RxFrame} (reason : Nat) (hb : r.begun = true) (hf : r.fid = none) :
    s.rxDrop p r reason = (s.countDrop (macPage p) p reason).led (macPage p) 1 p 2 := by
  unfold State.rxDrop
  simp only [hb, hf, if_true]

theorem rxDrop_unseen_quiet {s : State} {p : Nat} {r : RxFrame} (reason : Nat) (hb : r.begun = true) (hf : r.fid = none) :
    Quiet s (s.rxDrop p r reason) := by
  rw [rxDrop_unseen reason hb hf]
  exact (countDrop_quiet _ _ _ _).trans (led_quiet _ _ _ _ _ _)

/-- It counts once in the port's slot of the reason. -/
theorem rxDrop_unseen_cnt {s : State} {p : Nat} {r : RxFrame} {reason : Nat} (hb : r.begun = true) (hf : r.fid = none)
    (hp : s.passed (macPage p) = false) (hm : s.freeMode (macPage p) = false) (hk : p * 0x200 + 8 * reason < 0x20000) :
    (s.rxDrop p r reason).sta.cnt.at 0 (p * 0x200 + 8 * reason) = satAdd 48 (s.sta.cnt.at 0 (p * 0x200 + 8 * reason)) 1 := by
  rw [rxDrop_unseen reason hb hf]
  have hkept := ((ledZ_slotsKept (s.dropSlot (macPage p) p reason) (macPage p) 0 reason 2 (1 : Nat)).trans
    (pmc_slotsKept _ (macPage p) 5 1)).trans (ledZ_slotsKept _ (macPage p) 1 p 2 (1 : Nat))
  exact (hkept.cnt _ hk).trans (cntAdd_cnt _ _ hp hm)

theorem rxLose_unseen {s : State} {p : Nat} {r : RxFrame} (all : List Byte) (reason : Nat) (hf : r.fid = none) :
    s.rxLose p r all reason = s.rxDrop p r reason := by
  unfold State.rxLose State.rxCutShort State.rxTail State.rxForget
  simp only [hf]

/-- The reason that byte MAC_MAX_LEN + 1 gives a frame that found no full FIFO. -/
theorem rxOversize_unseen {s : State} {p : Nat} {r : RxFrame} (codeErr : Bool) (hr : (s.mac p).rx = some r)
    (hs : r.stopped = false) (hu : r.full = 0) :
    s.rxOversize p codeErr =
      (s.setMac p { s.mac p with rx := some { r with stopped := true, begun := true } }).rxDrop p r (if codeErr then 4 else 2) := by
  unfold State.rxOversize
  simp [hr, hs, hu]

/-- What it leaves of one that the core does not know: the frame stopped and one count under its reason. -/
theorem rxOversize_counts {s : State} {p : Nat} {r : RxFrame} (codeErr : Bool) (hp : p < 64) (hr : (s.mac p).rx = some r)
    (hs : r.stopped = false) (hb : r.begun = true) (hu : r.full = 0) (hf : r.fid = none)
    (hpassed : s.passed (macPage p) = false) (hmode : s.freeMode (macPage p) = false) :
    MacStep s (s.rxOversize p codeErr) ∧
      ((s.rxOversize p codeErr).mac p).rx = some { r with stopped := true, begun := true } ∧
      (s.rxOversize p codeErr).sta.cnt.at 0 (p * 0x200 + 8 * (if codeErr then 4 else 2)) =
        satAdd 48 (s.sta.cnt.at 0 (p * 0x200 + 8 * (if codeErr then 4 else 2))) 1 := by
  rw [rxOversize_unseen codeErr hr hs hu]
  have hq := rxDrop_unseen_quiet (s := s.setMac p { s.mac p with rx := some { r with stopped := true, begun := true } })
    (p := p) (if codeErr then 4 else 2) hb hf
  refine ⟨(macStep_macs _ _).trans hq.macStep, ?_, ?_⟩
  · rw [hq.mac, mac_setMac_same]
  · exact rxDrop_unseen_cnt hb hf hpassed hmode (by split <;> omega)

/-! ### The end of a frame (R94) -/

/-- From `s` to `t` codewords have been counted and a frame sent back: what tells the end of a frame at port `p` stands. -/
structure EndReady (p : Nat) (s t : State) : Prop where
  step : RxStep s t
  frames : t.frames = s.frames
  rx : (t.mac p).rx = (s.mac p).rx
  slots : SlotsKept s t
  rd : ∀ a, a ∉ watchRegs → a ∉ countRegs → a / 0x10000 ≠ 1 → t.rd a = s.rd a

namespace EndReady

variable {p : Nat} {s t u : State}

theorem refl (s : State) : EndReady p s s := ⟨.refl s, rfl, rfl, .refl s, fun _ _ _ _ => rfl⟩

theorem trans (h1 : EndReady p s t) (h2 : EndReady p t u) : EndReady p s u :=
  ⟨h1.step.trans h2.step, h2.frames.trans h1.frames, h2.rx.trans h1.rx, h1.slots.trans h2.slots,
    fun a hw hc ha => (h2.rd a hw hc ha).trans (h1.rd a hw hc ha)⟩

theorem frame (h : EndReady p s t) (i : Nat) : t.frame i = s.frame i := by unfold State.frame; rw [h.frames]

/-- A counter of an SDS page. -/
theorem wr_sds {a : Nat} (w : Word) (ha : a / 0x10000 = 1) : EndReady p s (s.wr a w) :=
  ⟨(RxStep.refl s).wr a w, rfl, rfl, .of_sta rfl (rd_wr_ne s w (by unfold staA; omega)),
    fun _ _ _ hx => rd_wr_ne s w (fun e => hx (e ▸ ha))⟩

theorem pmc (s : State) (page ev n : Nat) : EndReady p s (s.pmc page ev n) :=
  have hq := pmc_quiet s page ev n
  ⟨hq.rxStep, hq.frames, congrArg MacX.rx (hq.mac p), pmc_slotsKept s page ev n, fun _ hw hc _ => hq.rd hw hc⟩

theorem stageFits (h : EndReady p s t) (k a n : Nat) (hk : k < 5) : t.stageFits k a n = s.stageFits k a n := by
  have ha : 0xA000 ≤ glfA (0x068 + 4 * k) := by unfold glfA; omega
  obtain ⟨hw, hc⟩ := pastSta_not_mem_quietRegs ha
  unfold State.stageFits State.stageHeld State.f
  rw [h.rd _ hw hc (by unfold glfA; omega)]

theorem maxLen (h : EndReady p s t) (q : Nat) : t.f (macA q 0x044) 13 0 = s.f (macA q 0x044) 13 0 := by
  have ha : 0xA000 ≤ macA q 0x044 := by unfold macA; omega
  obtain ⟨hw, hc⟩ := pastSta_not_mem_quietRegs ha
  unfold State.f
  rw [h.rd _ hw hc (by unfold macA; omega)]

end EndReady

theorem portLanes_lt {s : State} {p l : Nat} (h : l ∈ s.portLanes p) : l < 7 := by
  unfold State.portLanes at h
  obtain ⟨i, hi, rfl⟩ := List.mem_map.mp h
  have hn := List.mem_range.mp hi
  split at hn <;> omega

/-- Codewords of a front port's lanes count in the page of its quad (R89). -/
theorem fecCount_endReady {s : State} {p : Nat} (hp : p < 64) (fec : List (Nat × Nat)) : EndReady p s (s.fecCount p fec) := by
  unfold State.fecCount
  simp only
  split
  · exact .refl s
  · refine forEach_keeps (fun t => EndReady p s t) _ _ _ (.refl s) (fun t e he h => ?_)
    have hlane : e.1 < 7 := portLanes_lt (List.of_mem_zip (show (e.1, e.2) ∈ _ from he)).1
    have hsds : ∀ o, o < 0x1000 → sdsA (p / 4) o / 0x10000 = 1 := fun o ho => by unfold sdsA; omega
    split
    · exact h.trans (((EndReady.wr_sds _ (hsds _ (by omega))).trans (EndReady.wr_sds _ (hsds _ (by omega)))).trans
        (EndReady.pmc _ _ _ _))
    · exact h

theorem farEnd_endReady (s : State) (p : Nat) (rest : List Byte) : EndReady p s (s.farEnd p rest) := by
  unfold State.farEnd
  split
  · exact .refl s
  · refine ⟨((RxStep.refl s).setMac _ _).emit _, rfl, ?_, .of_sta rfl rfl, fun _ _ _ _ => rfl⟩
    show ((s.setMac p { s.mac p with far := none }).mac p).rx = _
    rw [mac_setMac_same]

/-- A frame boundary of the receive MAC changes nothing but the enable in force, and leaves it idle. -/
theorem rxBoundary_idle {s : State} {p : Nat} (h : (s.mac p).rx = none) :
    RxStep s (s.rxBoundary p) ∧ ((s.rxBoundary p).mac p).rx = none ∧ (s.rxBoundary p).frames = s.frames ∧
      (s.rxBoundary p).sta = s.sta := by
  have heq : s.rxBoundary p = s.setMac p { s.mac p with rxEn := s.b (macA p 0x040) 0 } := by
    unfold State.rxBoundary
    simp [h]
  rw [heq]
  exact ⟨(RxStep.refl s).setMac _ _, by rw [mac_setMac_same, h], rfl, rfl⟩

/-- A frame of fewer than 64 bytes ends. -/
theorem rxEnd_runt {s : State} {p : Nat} {r : RxFrame} {rest : List Byte} (codeErr full : Bool) (reasm : Nat)
    (hr : (s.mac p).rx = some r) (hs : r.stopped = false) (hf : r.fid = none) (hl : r.loop = none)
    (hn : r.bytes.length + rest.length < 64) :
    s.rxEnd p rest codeErr full reasm =
      ((s.setMac p { s.mac p with rx := none }).rxDrop p r (if codeErr then 4 else 1)).rxBoundary p := by
  unfold State.rxEnd
  cases codeErr <;> simp [hr, hs, hl, hn, rxLose_unseen _ _ hf]

/-- What the end of a frame of fewer than 64 bytes leaves: an idle MAC and one count under its reason. -/
theorem rxEnd_runt_counts {s : State} {p : Nat} {r : RxFrame} {rest : List Byte} (codeErr full : Bool) (reasm : Nat)
    (hp : p < 64) (hr : (s.mac p).rx = some r) (hs : r.stopped = false) (hb : r.begun = true) (hf : r.fid = none)
    (hl : r.loop = none) (hn : r.bytes.length + rest.length < 64) (hpassed : s.passed (macPage p) = false)
    (hmode : s.freeMode (macPage p) = false) :
    RxStep s (s.rxEnd p rest codeErr full reasm) ∧ ((s.rxEnd p rest codeErr full reasm).mac p).rx = none ∧
      (s.rxEnd p rest codeErr full reasm).frames = s.frames ∧
      (s.rxEnd p rest codeErr full reasm).sta.cnt.at 0 (p * 0x200 + 8 * (if codeErr then 4 else 1)) =
        satAdd 48 (s.sta.cnt.at 0 (p * 0x200 + 8 * (if codeErr then 4 else 1))) 1 := by
  rw [rxEnd_runt codeErr full reasm hr hs hf hl hn]
  have hq := rxDrop_unseen_quiet (s := s.setMac p { s.mac p with rx := none }) (p := p) (if codeErr then 4 else 1) hb hf
  obtain ⟨hstep, hidle, hframes, hsta⟩ := rxBoundary_idle ((congrArg MacX.rx (hq.mac p)).trans (by rw [mac_setMac_same]))
  refine ⟨(((RxStep.refl s).setMac _ _).quiet hq).trans hstep, hidle, hframes.trans hq.frames, ?_⟩
  rw [hsta]
  exact rxDrop_unseen_cnt hb hf hpassed hmode (by split <;> omega)

/-- A whole frame that the core knows passes every check. -/
theorem rxEnd_pass {s : State} {p fid : Nat} {r : RxFrame} {rest : List Byte} (hr : (s.mac p).rx = some r)
    (hs : r.stopped = false) (hb : r.begun = true) (hu : r.full = 0) (hl : r.loop = none) (hf : r.fid = some fid)
    (hfit : s.stageFits (p / 16) r.bytes.length rest.length = true) (hmin : 64 ≤ (r.bytes ++ rest).length)
    (hmax : (r.bytes ++ rest).length ≤ s.f (macA p 0x044) 13 0) (hheld : heldAtMac r.msc (r.bytes ++ rest) = false)
    (hcrc : leVal ((r.bytes ++ rest).drop ((r.bytes ++ rest).length - 4)) =
      crc32 ((r.bytes ++ rest).take ((r.bytes ++ rest).length - 4))) :
    s.rxEnd p rest false false 0 =
      ((s.setMac p { s.mac p with rx := none }).rxPass p r (r.bytes ++ rest) rest none 0 false).rxBoundary p := by
  have hctl : beAt (r.bytes ++ rest) 12 2 ≠ 0x8808 := fun h => by simp [heldAtMac, h] at hheld
  unfold State.rxEnd
  simp only [hr, hs, hb, hu, hl, hf, hfit, hheld, hcrc, hctl, Option.getD_none, Nat.not_lt.mpr hmin, Nat.not_lt.mpr hmax]
  simp

/-- What a frame in staging is once it has passed. -/
theorem rxPass_staged {s : State} {p fid : Nat} {r : RxFrame} (all rest : List Byte) (hf : r.fid = some fid)
    (hid : (s.frame fid).id = fid) (hp : (s.frame fid).place = .staged) (hv : (s.frame fid).verdict = 0) :
    RxStep s (s.rxPass p r all rest none 0 false) ∧ (s.rxPass p r all rest none 0 false).macs = s.macs ∧
      ((s.rxPass p r all rest none 0 false).frame fid).complete = true ∧
      ((s.rxPass p r all rest none 0 false).frame fid).bytes = (s.frame fid).bytes ++ rest ∧
      ((s.rxPass p r all rest none 0 false).frame fid).wireLen = all.length := by
  obtain ⟨n, hstaged⟩ := frame_stageBytes rest hid
  let g : Frame := { (s.stageBytes fid rest).frame fid with complete := true, wireLen := all.length, secLen := 0, scOwner := none }
  have hgid : g.id = fid := by show ((s.stageBytes fid rest).frame fid).id = fid; rw [hstaged]; exact hid
  have hgplace : g.place = .staged := by show ((s.stageBytes fid rest).frame fid).place = _; rw [hstaged]; exact hp
  have hq := rxCount_quiet ((s.stageBytes fid rest).setFrame g) fid
  have hframe : (((s.stageBytes fid rest).setFrame g).rxCount fid).frame fid = g := by
    rw [hq.frame]
    exact hgid ▸ frame_setFrame_same (s.stageBytes fid rest) g
  have heq : s.rxPass p r all rest none 0 false = ((s.stageBytes fid rest).setFrame g).rxCount fid := by
    rw [← gcFrame_of_staged (s := ((s.stageBytes fid rest).setFrame g).rxCount fid) (fid := fid) (by rw [hframe, hgplace])]
    unfold State.rxPass
    simp only [hf, hp, hv, Bool.false_eq_true, if_false]
    rfl
  rw [heq, hframe]
  refine ⟨(((RxStep.refl s).stageBytes _ _).setFrame _).quiet hq, hq.macs.trans (stageBytes_macs _ _ _), rfl, ?_, rfl⟩
  show ((s.stageBytes fid rest).frame fid).bytes = _
  rw [hstaged]

end Sys2Proof.Machine

namespace Sys2Proof

open Sys2Proof.Machine

/-- Settles O22, by how the frame begins, is cut off or ends. -/
theorem framesAreReceived : Obligations.FramesAreReceived := by
  unfold Obligations.FramesAreReceived
  refine ⟨?short, ?long, ?looped, ?oversize, ?runt, ?passed⟩
  case short =>
    intro s p bytes ho hl hr hn
    obtain ⟨m, hstart, hopen⟩ := rxStart_wire bytes hl hr
    obtain ⟨hbegin, r, hmac, hbytes, -⟩ := rxBegin_short (s := { s with macs := m }) none (hopen.trans ho) hn
    rw [← hstart] at hbegin hmac
    have hstep := (macStep_macs s m).trans hbegin
    obtain ⟨u, hu⟩ := exists_answerOf hstep.step.pending
    have hall := hstep.trans hu.quiet.macStep
    rw [← hu.quiet.mac] at hmac
    exact ⟨u, hu.next, by rw [hmac]; rfl, by rw [hmac, ← hbytes]; rfl, hall.flowKept, hall.regs, hall.step.memKept⟩
  case long =>
    intro s p bytes ho hl hr hn hheld hfit
    obtain ⟨m, hstart, hopen⟩ := rxStart_wire bytes hl hr
    obtain ⟨hbegin, hnext, hbytes, hsrc, hplace, hfid⟩ :=
      rxBegin_long (s := { s with macs := m }) none (hopen.trans ho) hn hheld hfit
    rw [← hstart] at hbegin hnext hbytes hsrc hplace hfid
    have hstep := (macStep_macs s m).step.trans hbegin
    obtain ⟨u, hu⟩ := exists_answerOf hstep.pending
    refine ⟨u, hu.next, hu.quiet.nextId.trans hnext, ?_, ?_, ?_, ?_, (hstep.quiet hu.quiet).memKept⟩
    · rw [hu.quiet.frame]; exact hbytes
    · rw [hu.quiet.frame]; exact hsrc
    · rw [hu.quiet.frame]; exact hplace
    · rw [hu.quiet.mac]; exact hfid
  case looped =>
    intro s p bytes f rest ho hl hr hf hn
    have hstart := rxStart_loop bytes hl hr hf
    obtain ⟨hbegin, r, hmac, hbytes, hloop⟩ := rxBegin_short (bs := f.take bytes.length) (some (f.drop bytes.length))
      ((rxOpen_setMac_loop s p.val rest).trans ho) (by rw [List.length_take]; omega)
    rw [← hstart] at hbegin hmac
    have hstep := (macStep_macs s _).trans hbegin
    obtain ⟨u, hu⟩ := exists_answerOf hstep.step.pending
    have hall := hstep.trans hu.quiet.macStep
    rw [← hu.quiet.mac, mac_setMac_same] at hmac
    exact ⟨u, hu.next, by rw [hmac, ← hbytes, ← hloop]; rfl, by rw [hmac], hall.flowKept, hall.regs, hall.step.memKept⟩
  case oversize =>
    intro s p r codeErr hr hs hb hfull hfid hpassed hmode
    obtain ⟨hstep, hrx, hcnt⟩ := rxOversize_counts codeErr p.isLt hr hs hb hfull hfid hpassed hmode
    obtain ⟨u, hu⟩ := exists_answerOf hstep.step.pending
    have hall := hstep.trans hu.quiet.macStep
    refine ⟨u, hu.next, ?_, ?_, hall.flowKept, hall.step.memKept⟩
    · rw [hu.quiet.mac, hrx]; rfl
    · rw [cnt_of_answer hu.next (by split <;> omega), hcnt]
  case runt =>
    intro s p r rest codeErr full reasm fec hr hs hb hfid hloop hn hpassed hmode
    have hready := (fecCount_endReady p.isLt fec).trans (farEnd_endReady (s.fecCount p.val fec) p.val rest)
    generalize hw : (s.fecCount p.val fec).farEnd p.val rest = w at hready
    obtain ⟨hend, hidle, hframes, hcnt⟩ := rxEnd_runt_counts codeErr full reasm.val p.isLt (hready.rx.trans hr) hs hb hfid hloop hn
      ((hready.slots.passed _).trans hpassed) ((hready.slots.freeMode _).trans hmode)
    have hstep := hready.step.trans hend
    obtain ⟨u, hu⟩ := exists_answerOf hstep.pending
    have hall := hstep.quiet hu.quiet
    have hk : p.val * 0x200 + 8 * (if codeErr then 4 else 1) < 0x20000 := by split <;> omega
    refine ⟨u, ?_, ?_, ?_, hall.flowKept (hu.quiet.frames.trans (hframes.trans hready.frames)), hall.memKept⟩
    · rw [← hu.next, ← hw]; rfl
    · rw [hu.quiet.mac, hidle]; rfl
    · rw [cnt_of_answer hu.next hk, hcnt, hready.slots.cnt _ hk]
  case passed =>
    intro s p r fid rest fec hr hs hb hfull hloop hfid hid hplace hverdict hbytes hfit hmin hmax hheld hcrc
    have hready := (fecCount_endReady p.isLt fec).trans (farEnd_endReady (s.fecCount p.val fec) p.val rest)
    generalize hw : (s.fecCount p.val fec).farEnd p.val rest = w at hready
    have hframe : (w.setMac p.val { w.mac p.val with rx := none }).frame fid = s.frame fid := hready.frame fid
    have heq := rxEnd_pass (hready.rx.trans hr) hs hb hfull hloop hfid ((hready.stageFits _ _ _ (by omega)).trans hfit) hmin
      (Nat.le_trans hmax (Nat.le_of_eq (hready.maxLen _).symm)) hheld hcrc
    obtain ⟨hpass, hmacs, hcomplete, hwhole, hlen⟩ := rxPass_staged (p := p.val) (r.bytes ++ rest) rest hfid
      ((congrArg Frame.id hframe).trans hid) ((congrArg Frame.place hframe).trans hplace)
      ((congrArg Frame.verdict hframe).trans hverdict)
    rw [hframe, hbytes] at hwhole
    generalize hv : State.rxPass _ p.val r (r.bytes ++ rest) rest none 0 false = v at heq hpass hmacs hcomplete hwhole hlen
    obtain ⟨hbound, hidle, hframes, -⟩ := rxBoundary_idle (s := v) (p := p.val) (by
      unfold State.mac
      rw [hmacs]
      exact congrArg MacX.rx (mac_setMac_same w p.val _))
    have hstep := ((hready.step.setMac _ _).trans hpass).trans hbound
    obtain ⟨u, hu⟩ := exists_answerOf hstep.pending
    have hkept : u.frame fid = v.frame fid := by rw [hu.quiet.frame]; unfold State.frame; rw [hframes]
    refine ⟨u, ?_, ?_, ?_, ?_, ?_, (hstep.quiet hu.quiet).memKept⟩
    · rw [← hu.next, ← heq, ← hw]; rfl
    · rw [hu.quiet.mac, hidle]; rfl
    · rw [hkept, hcomplete]
    · rw [hkept, hwhole]
    · rw [hkept, hlen]

end Sys2Proof

/-! ## Frames behind a statistics front (R32, R390)

No token passes the front in flight. A frame that reached staging behind it therefore waits there until the front has passed the
parser of its pipeline. -/

namespace Sys2Proof.Machine

/-- The parser admits no frame from behind a front that it has yet to see. -/
theorem parseAdmit_of_behind {s : State} {p : Nat} {f : Frame} (k : Nat) (step : Bool) (hn : s.nextStaged p = some f)
    (hb : s.behind f = true) (hp : s.passed (prsPage k) = false) : s.parseAdmit k p step = s := by
  unfold State.parseAdmit
  split
  · rfl
  · rw [hn]
    exact if_pos (.inr ⟨hb, hp⟩)

/-- A frame stands in the answer as the command's effect left it. -/
theorem frame_of_answer {s t u : State} (h : answer s t = .next u) (i : Nat) : u.frame i = t.frame i := by
  obtain ⟨v, hv, hq, -⟩ := answer_next s t
  rw [hv] at h
  cases h
  exact hq.frame i

/-- A whole untagged frame that came in at port 3 behind front 0. -/
def behindFrame : Frame :=
  { id := 1, src := 3, inPort := 3, complete := true, wireLen := 64, bytes := List.replicate 64 1, place := .staged, after := some 0 }

/-- A running device whose VLAN map gives VID 1 to domain 2 in pipeline 0. Front 0 is in flight and has passed the MAC of port 3
alone; one frame waits for parser 0. -/
def behindState : State :=
  { pmu := { por := true, enCore := true }, hif := { linkUp := true }, regs := [(topA 0x048, 2), (staA 0x040, 1)],
    sta := { passed := [macPage 3] }, tbl := { banks := [(12451848, 0x40), (12451849, 2)] },
    frames := [(1, behindFrame)], nextId := 2 }

theorem behindState_nextStaged : behindState.nextStaged 3 = some behindFrame := by decide

/-- PARSE_ADMIT leaves the frame in staging. -/
theorem behindState_parseAdmit : behindState.parseAdmit 0 3 false = behindState :=
  parseAdmit_of_behind 0 false behindState_nextStaged (by decide +kernel) (by decide +kernel)

end Sys2Proof.Machine

namespace Sys2Proof

open Sys2Proof.Machine

/-- Refutes O23: its clause on PARSE_ADMIT does not say that the frame is ahead of the statistics front in flight. In
`behindState` the front has passed the MAC of port 3 and not yet parser 0, and the frame came in between: the frame meets every
hypothesis and waits in staging, as R390 asks. A run comes to such a state: a front is injected, it passes the MAC, a frame arrives
(FRONT_SOFTWARE_INJECT, FRONT_PASS_BLOCK of page 0x23, RX_FRAME_START, RX_FRAME_END). -/
theorem not_framesEnterAndPassThePipeline : ¬ Obligations.FramesEnterAndPassThePipeline := by
  unfold Obligations.FramesEnterAndPassThePipeline
  rintro ⟨hadmit, -⟩
  obtain ⟨t, ht, hentered, -⟩ := hadmit behindState 0 3 behindFrame 2 (by decide) (by decide) (by decide +kernel) (by decide)
    behindState_nextStaged (by decide) (by decide) (by decide) (by decide) (by decide) (by decide +kernel) (by decide +kernel)
    (by decide +kernel) (by decide +kernel) (by decide +kernel) (by decide +kernel) (by decide +kernel) (by decide +kernel)
    (by decide +kernel)
  have heff : answer behindState (behindState.parseAdmit 0 3 false) = .next t := ht
  rw [behindState_parseAdmit] at heff
  have hwaits : (t.frame 1).place = .staged := congrArg Frame.place (frame_of_answer heff 1)
  exact absurd (hentered.symm.trans hwaits) (by decide)

end Sys2Proof

/-! ## Copies at the edit while the group's traffic manager is under test (R488, R489, R491)

A region stays faulty until its test passes. While region 53 + e is under test it reads state 3, not 2, and order 6 of R151 still
drops every copy of group e under 0x1A. -/

namespace Sys2Proof.Machine

/-- A copy stands in the answer as the command's effect left it. -/
theorem copy_of_answer {s t u : State} (h : answer s t = .next u) (i : Nat) : u.copy i = t.copy i := by
  obtain ⟨v, hv, hq, -⟩ := answer_next s t
  rw [hv] at h
  cases h
  exact congrArg (fun m : SMap Copy => m.at {} i) hq.copies

/-- What an arriving frame has still to edit in the counterexample: one copy, toward port 7. -/
def testedSpec : CopySpec := { port := 7, queue := some 448 }

/-- The frame in egress group 0 that it belongs to. -/
def testedEFrame : EFrame := { e := 0, fid := 5, k := 0, order := 1, todo := [testedSpec] }

/-- A running device with port 7 up and a plain frame in egress group 0, of which one copy has yet to pass the edit. -/
def editWaitsState : State :=
  { pmu := { por := true, enCore := true }, hif := { linkUp := true }, regs := [(topA 0x048, 2), (macA 7 0x048, 1)],
    macs := [(7, { txEn := true })], frames := [(5, { id := 5, bytes := List.replicate 64 1 })], eframes := [testedEFrame],
    nextId := 6 }

/-- What SPR_CMD_DECLARE of region 53 (TMG and TGS of group 0), SPR_CMD_APPROVE and REPAIR_START of its test make of it. -/
def tmgTestedState : State := (editWaitsState.declareFault 53 5 0 0).approveHead.repairStart

/-- Its region 53 reads 3, under test. The copy, numbered 6, is dropped at the edit: it leaves no record, and port 7 counts it
under 0x1A. -/
theorem tmgTestedState_copy_dropped :
    tmgTestedState.region 53 = 3 ∧ (tmgTestedState.egressEdit 0 none).copy 6 = {} ∧
      (tmgTestedState.egressEdit 0 none).sta.cnt.at 0 (7 * 0x200 + 8 * 0x1A) = 1 := by decide +kernel

end Sys2Proof.Machine

namespace Sys2Proof

open Sys2Proof.Machine

/-- Refutes O24: its clause on a plain copy that passes the edit asks that region 53 + g is not in state 2, and leaves out state 3,
a region under test, which R488 still counts as faulty. In `tmgTestedState` TMG and TGS of group 0 are under test and every
hypothesis holds; the copy is dropped under 0x1A, as R489 asks. The state is what three commands make of a running device in which
a frame waits for the edit: SPR_CMD_DECLARE, SPR_CMD_APPROVE, REPAIR_START. -/
theorem not_takeoverAndEgressEdit : ¬ Obligations.TakeoverAndEgressEdit := by
  unfold Obligations.TakeoverAndEgressEdit
  rintro ⟨-, -, -, -, -, hplain, -⟩
  have hcase := hplain tmgTestedState 0 testedEFrame testedSpec []
  simp only [← and_imp] at hcase
  obtain ⟨t, ht, -, -, hport, -⟩ := hcase (by decide +kernel)
  have heff : answer tmgTestedState (tmgTestedState.egressEdit 0 none) = .next t := ht
  have hnext : tmgTestedState.nextId = 6 := by decide +kernel
  obtain ⟨-, hdropped, -⟩ := tmgTestedState_copy_dropped
  have hgone : t.copy tmgTestedState.nextId = {} := by rw [copy_of_answer heff, hnext, hdropped]
  rw [hgone] at hport
  exact absurd hport (by decide)

end Sys2Proof

/-! ## The tables' five copies (R163, R164, R176)

What an entry reads after it is written in all five copies, what a state must keep for its tables to read the same, and the
frame of the commands of tables and learning. -/

namespace Sys2Proof.Machine

/-- What round `x` of a loop brings about in any state, and every round keeps, holds after a loop over a list with `x` in it. -/
theorem forEach_reaches {α : Type} {P : State → Prop} {f : State → α → State} {xs : List α} {x : α} (s : State)
    (hx : x ∈ xs) (hround : ∀ t, P (f t x)) (hkeep : ∀ t y, P t → P (f t y)) : P (forEach xs s f) := by
  induction xs generalizing s with
  | nil => exact absurd hx List.not_mem_nil
  | cons y ys ih =>
    rcases List.mem_cons.mp hx with rfl | hx
    · exact forEach_keeps P f ys (f s x) (hround s) (fun t z _ => hkeep t z)
    · exact ih (f s y) hx

/-! ### Banks -/

theorem physBank_lt (s : State) (c j : Nat) : s.physBank c j < 128 := by
  unfold State.physBank State.f fld bitsOf
  rw [show 8 * (j % 4) + 6 + 1 - 8 * (j % 4) = 7 by omega]
  exact Nat.mod_lt _ (by decide)

/-- The bytes of a copy stand in the first 2^24 places of its own 2^28. -/
theorem bankKey_mem_copy (s : State) (c o : Nat) : c * 2 ^ 28 ≤ s.bankKey c o ∧ s.bankKey c o < c * 2 ^ 28 + 2 ^ 24 := by
  have hbank := physBank_lt s c (o / 131072)
  unfold State.bankKey
  omega

theorem bankRd_bankWr_same (s : State) (c o : Nat) (bs : List Byte) : (s.bankWr c o bs).bankRd c o bs.length = bs :=
  readBytes_writeBytes _ _ _

/-- A write of one copy leaves what the others read. -/
theorem bankRd_bankWr_ne (s : State) {c d : Nat} (o : Nat) {p n : Nat} {bs : List Byte} (h : d ≠ c)
    (hw : bs.length ≤ 2 ^ 24) (hr : n ≤ 2 ^ 24) : (s.bankWr c o bs).bankRd d p n = s.bankRd d p n := by
  obtain ⟨hclo, hchi⟩ := bankKey_mem_copy s c o
  obtain ⟨hdlo, hdhi⟩ := bankKey_mem_copy s d p
  exact readBytes_writeBytes_out s.tbl.banks (s.bankKey c o) bs (s.bankKey d p) n (by omega)

/-! ### Entries -/

/-- An entry that is written reads as written in every copy. -/
theorem ent_setEnt_same (s : State) {c t : Nat} (i : Nat) {bs : List Byte} (hc : c < 5) (hn : bs.length = entSize t)
    (hs : entSize t ≤ 2 ^ 24) : (s.setEnt t i bs).ent c t i = bs := by
  refine forEach_reaches (P := fun w => w.ent c t i = bs) s (List.mem_range.mpr hc) (fun w => ?_) (fun w d hw => ?_)
  · unfold State.ent
    rw [← hn]
    exact bankRd_bankWr_same _ _ _ _
  · by_cases hd : c = d
    · subst hd
      unfold State.ent
      rw [← hn]
      exact bankRd_bankWr_same _ _ _ _
    · exact (bankRd_bankWr_ne w _ hd (by omega) hs).trans hw

/-- The hit bits of a slot read as set in every pipeline. -/
theorem hit_setHits_same (s : State) {k : Nat} (i : Nat) (v : Bool) (hk : k < 5) : (s.setHits i v).hit k i = v := by
  have hset : ∀ (w : State) (k : Nat), (w.setHit k i v).hit k i = v := fun w k => by
    unfold State.hit State.setHit
    rw [SMap.at_put_same]
    cases v <;> rfl
  refine forEach_reaches (P := fun w => w.hit k i = v) s (List.mem_range.mpr hk) (fun w => hset w k) (fun w d hw => ?_)
  by_cases hd : k = d
  · subst hd
    exact hset w k
  · rw [← hw]
    unfold State.hit State.setHit
    rw [SMap.at_put_ne _ _ _ (by omega)]

/-- Writing an entry changes the tables' banks alone. -/
theorem setEnt_eq (s : State) (t i : Nat) (bs : List Byte) :
    ∃ m, s.setEnt t i bs = { s with tbl := { s.tbl with banks := m } } := by
  refine forEach_keeps (fun w => ∃ m, w = { s with tbl := { s.tbl with banks := m } }) _ _ _ ⟨_, rfl⟩ ?_
  rintro w c - ⟨m, rfl⟩
  exact ⟨_, rfl⟩

/-- Setting the hit bits of a slot changes the hit bits alone. -/
theorem setHits_eq (s : State) (i : Nat) (v : Bool) :
    ∃ m, s.setHits i v = { s with tbl := { s.tbl with hits := m } } := by
  refine forEach_keeps (fun w => ∃ m, w = { s with tbl := { s.tbl with hits := m } }) _ _ _ ⟨_, rfl⟩ ?_
  rintro w c - ⟨m, rfl⟩
  exact ⟨_, rfl⟩

@[simp] theorem setEnt_rd (s : State) (t i : Nat) (bs : List Byte) (a : Nat) : (s.setEnt t i bs).rd a = s.rd a := by
  obtain ⟨m, hm⟩ := setEnt_eq s t i bs
  rw [hm]
  rfl

@[simp] theorem setHits_rd (s : State) (i : Nat) (v : Bool) (a : Nat) : (s.setHits i v).rd a = s.rd a := by
  obtain ⟨m, hm⟩ := setHits_eq s i v
  rw [hm]
  rfl

@[simp] theorem setEnt_fifo (s : State) (t i : Nat) (bs : List Byte) : (s.setEnt t i bs).tbl.fifo = s.tbl.fifo := by
  obtain ⟨m, hm⟩ := setEnt_eq s t i bs
  rw [hm]

@[simp] theorem setHits_fifo (s : State) (i : Nat) (v : Bool) : (s.setHits i v).tbl.fifo = s.tbl.fifo := by
  obtain ⟨m, hm⟩ := setHits_eq s i v
  rw [hm]

/-! ### States whose tables read the same -/

/-- The tables of `t` read as those of `s`: the same bytes in the banks, and the registers from the TBL page on as they were, so
the same map of banks and the same locks. -/
structure SameTables (s t : State) : Prop where
  banks : t.tbl.banks = s.tbl.banks
  regs : ∀ a, 0xD000 ≤ a → t.rd a = s.rd a

namespace SameTables

variable {s t u : State}

theorem trans (h1 : SameTables s t) (h2 : SameTables t u) : SameTables s u :=
  ⟨h2.banks.trans h1.banks, fun a ha => (h2.regs a ha).trans (h1.regs a ha)⟩

theorem ent (h : SameTables s t) (c k i : Nat) : t.ent c k i = s.ent c k i := by
  have hbank : ∀ o, t.bankKey c o = s.bankKey c o := fun o => by
    unfold State.bankKey State.physBank State.f
    rw [h.regs _ (by unfold tblA; omega)]
  unfold State.ent State.bankRd
  rw [hbank, h.banks]

theorem anyKey (h : SameTables s t) (k owner key : Nat) : t.anyKey k owner key = s.anyKey k owner key := by
  unfold State.anyKey State.keyIn
  simp only [h.ent]

theorem reqLocked (h : SameTables s t) (r : LearnReq) : t.reqLocked r = s.reqLocked r := by
  have hreg : ∀ o, t.rd (tblA o) = s.rd (tblA o) := fun o => h.regs _ (by unfold tblA; omega)
  unfold State.reqLocked State.slotLocked State.f
  simp only [hreg]

end SameTables

theorem Quiet.sameTables {s t : State} (h : Quiet s t) : SameTables s t :=
  ⟨by rw [h.tbl], fun _ ha => h.pastSta_rd (by omega)⟩

theorem Quiet.hit {s t : State} (h : Quiet s t) (k i : Nat) : t.hit k i = s.hit k i := by unfold State.hit; rw [h.tbl]

/-! ### What a command of the tables may change -/

/-- From `s` to `t` only registers, the tables, statistics, waiting events, draws, vector levels and the outbox have changed,
and of the registers only those listed and those that any command may change. -/
def TblStep (xs : List Nat) (s t : State) : Prop :=
  (∃ regs tbl sta evr fresh hif out,
    t = { s with regs := regs, tbl := tbl, sta := sta, evr := evr, fresh := fresh, hif := hif, out := out }) ∧ RegsBut xs s t

namespace TblStep

variable {xs : List Nat} {s t u : State}

theorem refl (s : State) : TblStep xs s s := ⟨⟨_, _, _, _, _, _, _, rfl⟩, fun _ _ _ _ => rfl⟩

theorem trans (h1 : TblStep xs s t) (h2 : TblStep xs t u) : TblStep xs s u := by
  obtain ⟨⟨_, _, _, _, _, _, _, rfl⟩, r1⟩ := h1
  obtain ⟨⟨_, _, _, _, _, _, _, rfl⟩, r2⟩ := h2
  exact ⟨⟨_, _, _, _, _, _, _, rfl⟩, fun a ha hw hc => (r2 a ha hw hc).trans (r1 a ha hw hc)⟩

theorem pending (h : TblStep xs s t) : t.pending = s.pending := by obtain ⟨⟨_, _, _, _, _, _, _, rfl⟩, _⟩ := h; rfl

theorem memKept (h : TblStep xs s t) : MemKept s t := by
  obtain ⟨⟨_, _, _, _, _, _, _, rfl⟩, _⟩ := h
  exact fun _ => ⟨rfl, rfl, rfl, rfl, rfl⟩

theorem quiet (h : TblStep xs s t) (hq : Quiet t u) : TblStep xs s u := by
  refine h.trans ⟨?_, fun a _ hw hc => hq.rd hw hc⟩
  obtain ⟨⟨_, _, _, _, _, _, rfl⟩, _⟩ := hq
  exact ⟨_, _, _, _, _, _, _, rfl⟩

theorem wr (h : TblStep xs s t) (w : Word) {a : Nat} (ha : a ∈ xs) : TblStep xs s (t.wr a w) :=
  h.trans ⟨⟨_, _, _, _, _, _, _, rfl⟩, fun _ hx _ _ => rd_wr_ne t w (fun e => hx (e ▸ ha))⟩

theorem setTbl (h : TblStep xs s t) (x : Tbl) : TblStep xs s { t with tbl := x } :=
  h.trans ⟨⟨_, _, _, _, _, _, _, rfl⟩, fun _ _ _ _ => rfl⟩

theorem setEnt (h : TblStep xs s t) (k i : Nat) (bs : List Byte) : TblStep xs s (t.setEnt k i bs) := by
  obtain ⟨m, hm⟩ := setEnt_eq t k i bs
  rw [hm]
  exact h.setTbl _

theorem setHits (h : TblStep xs s t) (i : Nat) (v : Bool) : TblStep xs s (t.setHits i v) := by
  obtain ⟨m, hm⟩ := setHits_eq t i v
  rw [hm]
  exact h.setTbl _

end TblStep

/-! ### Hit bits and counts leave the tables -/

theorem setHits_sameTables (s : State) (i : Nat) (v : Bool) : SameTables s (s.setHits i v) := by
  obtain ⟨m, hm⟩ := setHits_eq s i v
  rw [hm]
  exact ⟨rfl, fun _ _ => rfl⟩

theorem bump_sameTables (s : State) {a : Nat} (ha : a < 0xD000) : SameTables s (s.bump a) :=
  ⟨rfl, fun _ hx => rd_bump_ne s (by omega)⟩

theorem bump_hit (s : State) (a k i : Nat) : (s.bump a).hit k i = s.hit k i := rfl

theorem pmc_tbl (s : State) (page ev n : Nat) : (s.pmc page ev n).tbl = s.tbl := (pmc_quiet s page ev n).tbl

theorem pmc_rd (s : State) (page ev n : Nat) {a : Nat} (ha : 0xA000 ≤ a) : (s.pmc page ev n).rd a = s.rd a :=
  (pmc_quiet s page ev n).pastSta_rd ha

theorem rd_bump_same (s : State) (a : Nat) : (s.bump a).rd a = word (satAdd 32 (s.rd a).toNat 1) := rd_wr_same _ _ _

end Sys2Proof.Machine

/-! ## Learning, aging and the sweep (R174 to R176)

One equation for each case that the commands of the learn engine meet. -/

namespace Sys2Proof.Machine

/-! ### LEARN_PROCESS -/

theorem learnedEnt_length (r : LearnReq) : (learnedEnt r).length = 16 := by simp [learnedEnt]

/-- The learn engine with its FIFO's head taken, the occupancies shown anew. -/
def State.headTaken (s : State) (rest : List LearnReq) : State := { s with tbl := { s.tbl with fifo := rest } }.lrnStatus

theorem headTaken_fifo (s : State) (rest : List LearnReq) : (s.headTaken rest).tbl.fifo = rest := rfl

theorem headTaken_rd (s : State) (rest : List LearnReq) {a : Nat} (ha : a ≠ lrnA 0x044) : (s.headTaken rest).rd a = s.rd a :=
  (rd_setF_ne _ _ _ _ ha).trans (rd_setF_ne _ _ _ _ ha)

theorem headTaken_step (s : State) (rest : List LearnReq) {xs : List Nat} (hx : lrnA 0x044 ∈ xs) :
    TblStep xs s (s.headTaken rest) := (((TblStep.refl s).setTbl _).wr _ hx).wr _ hx

theorem headTaken_sameTables (s : State) (rest : List LearnReq) : SameTables s (s.headTaken rest) :=
  ⟨rfl, fun _ ha => headTaken_rd s rest (by unfold lrnA; omega)⟩

/-- With none parked, an unlocked request at the FIFO's head is acted on. -/
theorem learnStep_head {s : State} {r : LearnReq} {rest : List LearnReq} (hd : s.regionDown 32 = false) (hp : s.tbl.park = [])
    (hf : s.tbl.fifo = r :: rest) (hl : s.reqLocked r = false) : s.learnStep = (s.headTaken rest).learnAct r := by
  have hfree : (s.headTaken rest).reqLocked r = false := ((headTaken_sameTables s rest).reqLocked r).trans hl
  unfold State.learnStep
  rw [if_neg (by rw [hd]; decide), hp, hf]
  exact if_neg (Bool.eq_false_iff.mp hfree)

/-- An address with no entry is entered at the lowest way that is free, its hit bits are set, and it is counted. -/
theorem learnAct_new {s : State} {r : LearnReq} {j : Nat} (hk : s.anyKey 0 r.owner r.key = none)
    (hj : (candidates 0 (entKey 0 (learnedEnt r)).1 (entKey 0 (learnedEnt r)).2).find?
      (fun i => !entValid 0 (s.ent 0 0 i)) = some j) :
    s.learnAct r = (((s.pmc 12 4).setEnt 0 j (learnedEnt r)).setHits j true).bump (lrnA 0x058) := by
  have hsame := (pmc_quiet s 12 4 1).sameTables
  have hinsert : (s.pmc 12 4).insertHashed 0 (learnedEnt r) = (some j, (s.pmc 12 4).setEnt 0 j (learnedEnt r)) := by
    unfold State.insertHashed
    simp only [hsame.ent, hj]
  unfold State.learnAct
  simp only [hsame.anyKey, hk, hinsert]

/-- A frozen entry is left as it is, and the request is counted. -/
theorem learnAct_frozen {s : State} {r : LearnReq} {j : Nat} (hk : s.anyKey 0 r.owner r.key = some j)
    (hfrozen : bitsOf (leAt (s.ent 0 0 j) 9 1) 1 1 = 1) : s.learnAct r = (s.pmc 12 4).bump (lrnA 0x060) := by
  have hsame := (pmc_quiet s 12 4 1).sameTables
  unfold State.learnAct
  simp only [hsame.anyKey, hsame.ent, hk, hfrozen, if_true]

/-! ### AGING_SCAN -/

/-- A learned entry, not frozen, that no pipeline has hit and whose age reaches the limit is removed and counted. -/
theorem ageEnt_expired {s : State} {j : Nat} (hl : isLearned (s.ent 0 0 j) = true)
    (hfree : bitsOf (leAt (s.ent 0 0 j) 9 1) 1 1 = 0) (hhit : ∀ k : Fin 5, s.hit k.val j = false)
    (hage : s.f (lrnA 0x04C) 19 16 ≤ leAt (s.ent 0 0 j) 12 4 % 16 + 1) :
    s.ageEnt j = ((s.setEnt 0 j (List.replicate 16 0)).setHits j false).bump (lrnA 0x074) := by
  have hnone : (List.range 5).any (fun k => s.hit k j) = false :=
    List.any_eq_false.mpr (fun k hk => by rw [hhit ⟨k, List.mem_range.mp hk⟩]; decide)
  unfold State.ageEnt
  simp only [hl, hfree, hnone, hage]
  rfl

/-! ### PENDING_SWEEP -/

theorem putBytes_length {bs : List Byte} {off : Nat} {new : List Byte} (h : off + new.length ≤ bs.length) :
    (putBytes bs off new).length = bs.length := by
  simp only [putBytes, List.length_take, List.length_append, List.length_drop]
  omega

theorem macDyn_length {e : List Byte} (b9 dyn : Nat) (h : e.length = 16) : (macDyn e b9 dyn).length = 16 := by
  have hfirst : (putBytes e 9 (leBytes 1 b9)).length = 16 := by rw [putBytes_length (by simp [h]), h]
  unfold macDyn
  rw [putBytes_length (by simp [hfirst]), hfirst]

theorem ent_length (s : State) (c t i : Nat) : (s.ent c t i).length = entSize t := readBytes_length _ _ _

/-- An entry that is pending for twice the hold time, in no window of moves, loses its pending mark alone. -/
theorem sweepEnt_pending {s : State} {j : Nat} (hv : entValid 0 (s.ent 0 0 j) = true) (hlow : leAt (s.ent 0 0 j) 9 1 < 16)
    (hp : bitsOf (leAt (s.ent 0 0 j) 9 1) 2 2 = 1)
    (hold : 2 * s.f (lrnA 0x048) 7 0 ≤ (s.lrnTime % 1024 + 1024 - sfld (s.ent 0 0 j) 116 107) % 1024) :
    s.sweepEnt j = s.setEnt 0 j (macDyn (s.ent 0 0 j) (leAt (s.ent 0 0 j) 9 1 - 4) (leAt (s.ent 0 0 j) 12 4)) := by
  have hfour : 4 ≤ leAt (s.ent 0 0 j) 9 1 := by
    rw [bitsOf, Nat.shiftRight_eq_div_pow] at hp
    omega
  have hnowin : ¬ 16 ≤ leAt (s.ent 0 0 j) 9 1 - 4 := by omega
  have hchanged : ¬ leAt (s.ent 0 0 j) 9 1 - 4 = leAt (s.ent 0 0 j) 9 1 := by omega
  unfold State.sweepEnt
  simp only [hv, hp, hold, hnowin, hchanged, and_self, false_and, if_true, if_false, Bool.true_eq_false]

end Sys2Proof.Machine

namespace Sys2Proof

open Sys2Proof.Machine

/-- Settles O25, one case for each thing that the learn engine does. -/
theorem addressesAreLearnedAndAge : Obligations.AddressesAreLearnedAndAge := by
  unfold Obligations.AddressesAreLearnedAndAge
  refine ⟨?new, ?frozen, ?aged, ?swept⟩
  case new =>
    intro s r rest j hd hp hf hl hk hj
    have hsame := headTaken_sameTables s rest
    have heq := (learnStep_head hd hp hf hl).trans
      (learnAct_new ((hsame.anyKey _ _ _).trans hk) (by simp only [hsame.ent]; exact hj))
    have hstep : TblStep [lrnA 0x058, lrnA 0x044] s s.learnStep := by
      rw [heq]
      exact ((((headTaken_step s rest (by decide)).quiet (pmc_quiet _ _ _ _)).setEnt _ _ _).setHits _ _).wr _ (by decide)
    obtain ⟨u, hu⟩ := exists_answerOf hstep.pending
    refine ⟨u, hu.next, fun k => ?_, fun k => ?_, ?_, ?_, (hstep.quiet hu.quiet).2, (hstep.quiet hu.quiet).memKept⟩
    · rw [hu.quiet.sameTables.ent, heq, (bump_sameTables _ (by decide)).ent, (setHits_sameTables _ _ _).ent]
      exact ent_setEnt_same _ _ k.isLt (learnedEnt_length r) (by decide)
    · rw [hu.quiet.hit, heq, bump_hit]
      exact hit_setHits_same _ _ _ k.isLt
    · rw [hu.quiet.tbl, heq, bump_tbl, setHits_fifo, setEnt_fifo, pmc_tbl, headTaken_fifo]
    · rw [hu.quiet.pastSta_rd (by decide), heq, rd_bump_same, setHits_rd, setEnt_rd, pmc_rd _ _ _ _ (by decide),
        headTaken_rd s rest (by decide)]
  case frozen =>
    intro s r rest j hd hp hf hl hk hfrozen
    have hsame := headTaken_sameTables s rest
    have heq := (learnStep_head hd hp hf hl).trans
      (learnAct_frozen ((hsame.anyKey _ _ _).trans hk) (by rw [hsame.ent]; exact hfrozen))
    have hstep : TblStep [lrnA 0x060, lrnA 0x044] s s.learnStep := by
      rw [heq]
      exact ((headTaken_step s rest (by decide)).quiet (pmc_quiet _ _ _ _)).wr _ (by decide)
    obtain ⟨u, hu⟩ := exists_answerOf hstep.pending
    refine ⟨u, hu.next, ?_, ?_, ?_, (hstep.quiet hu.quiet).2, (hstep.quiet hu.quiet).memKept⟩
    · rw [hu.quiet.tbl, heq, bump_tbl, pmc_tbl]
      exact hsame.banks
    · rw [hu.quiet.tbl, heq, bump_tbl, pmc_tbl, headTaken_fifo]
    · rw [hu.quiet.pastSta_rd (by decide), heq, rd_bump_same, pmc_rd _ _ _ _ (by decide),
        headTaken_rd s rest (by decide)]
  case aged =>
    intro s j hen hd hone hl hfree hhit hage
    have heq : s.ageScan = ((s.setEnt 0 j (List.replicate 16 0)).setHits j false).bump (lrnA 0x074) := by
      rw [← ageEnt_expired hl hfree hhit hage, State.ageScan, if_neg (by rw [hen, hd]; decide), hone]
      rfl
    have hstep : TblStep [lrnA 0x074] s s.ageScan := by
      rw [heq]
      exact (((TblStep.refl s).setEnt _ _ _).setHits _ _).wr _ (by decide)
    obtain ⟨u, hu⟩ := exists_answerOf hstep.pending
    refine ⟨u, hu.next, fun k => ?_, ?_, (hstep.quiet hu.quiet).2, (hstep.quiet hu.quiet).memKept⟩
    · rw [hu.quiet.sameTables.ent, heq, (bump_sameTables _ (by decide)).ent, (setHits_sameTables _ _ _).ent]
      exact ent_setEnt_same _ _ k.isLt List.length_replicate (by decide)
    · rw [hu.quiet.pastSta_rd (by decide), heq, rd_bump_same, setHits_rd, setEnt_rd]
  case swept =>
    intro s j hd hone hv hlow hp hold
    have heq : s.pendingSweep =
        s.setEnt 0 j (macDyn (s.ent 0 0 j) (leAt (s.ent 0 0 j) 9 1 - 4) (leAt (s.ent 0 0 j) 12 4)) := by
      rw [← sweepEnt_pending hv hlow hp hold, State.pendingSweep, if_neg (by rw [hd]; decide), hone]
      rfl
    have hstep : TblStep [] s s.pendingSweep := by
      rw [heq]
      exact (TblStep.refl s).setEnt _ _ _
    obtain ⟨u, hu⟩ := exists_answerOf hstep.pending
    refine ⟨u, hu.next, fun k => ?_, (hstep.quiet hu.quiet).2, (hstep.quiet hu.quiet).memKept⟩
    rw [hu.quiet.sameTables.ent, heq]
    exact ent_setEnt_same _ _ k.isLt (macDyn_length _ _ (ent_length s 0 0 j)) (by decide)

end Sys2Proof

/-! ## The table command ring past 2^12 commands (R177, R188)

TBL_DMA_HEAD has 12 bits. TBL_DMA_CTL.log2size has 4 bits and ranges over 4 to 12, and nothing in the statements bounds it so.
Where it holds 13, the command after place 4,095 would stand at place 4,096, which head cannot show: it wraps to 0. -/

namespace Sys2Proof.Machine

theorem dmaHead_lt (s : State) : s.dmaHead < 4096 := Nat.mod_lt _ (by decide)

/-- A device with its table ring enabled at log2size 13, head at place 4,095, tail at 0, and a command there. -/
def wideRing (cmd : List Byte) : State :=
  { regs := [(tblA 0x04C, 0xD01), (tblA 0x050, 0xFFF)], host := writeBytes [] (32 * 4095) cmd }

/-- The place after head would be 4,096. -/
theorem wideRing_next (cmd : List Byte) : ((wideRing cmd).dmaHead + 1) % (wideRing cmd).dmaSize = 4096 := by
  have hhead : (wideRing cmd).dmaHead = 4095 := rfl
  have hctl : (wideRing cmd).rd (tblA 0x04C) = 0xD01 := rfl
  rw [hhead, State.dmaSize, State.f, hctl]
  decide

/-- No state's head stands there. -/
theorem dmaHead_ne_wideRing_next (t : State) (cmd : List Byte) :
    t.dmaHead ≠ ((wideRing cmd).dmaHead + 1) % (wideRing cmd).dmaSize := by
  rw [wideRing_next]
  exact Nat.ne_of_lt (dmaHead_lt t)

/-- READ of entry 9 of target 4, R-NAT, into host memory from 0 on. -/
def readCmd : List Byte := [2, 4, 0, 0, 9, 0, 0, 0, 1]

/-- LOCK of 8 slots of target 0, the MAC table, from 0x100 on. -/
def lockCmd : List Byte := [6, 0, 0, 0, 0, 1, 0, 0, 8]

end Sys2Proof.Machine

namespace Sys2Proof

open Sys2Proof.Machine

/-- Refutes O26: its clauses range over states whose TBL_DMA_CTL.log2size is past 12. In `wideRing readCmd` it is 13 and head is
at place 4,095: the READ meets every hypothesis, and head after it, a field of 12 bits, is not 4,096. R188 has log2size in 4 to
12, and a host write of 13 is refused with kind 5, so this is a state that the statement admits and not one that a run is known
to reach. -/
theorem not_tableCommandsRun : ¬ Obligations.TableCommandsRun := by
  unfold Obligations.TableCommandsRun
  rintro ⟨-, hread, -⟩
  have hcase := hread (wideRing readCmd) 4 9 0 0 (List.replicate 16 0)
  simp only [← and_imp] at hcase
  obtain ⟨t, -, -, -, -, hhead, -⟩ := hcase (by decide +kernel)
  exact dmaHead_ne_wideRing_next t readCmd hhead

/-- Refutes O27: as for O26, in its clause on TBL_CMD_LOCK, at the same place of a ring with log2size 13. -/
theorem not_tableLocksAndScrubbing : ¬ Obligations.TableLocksAndScrubbing := by
  unfold Obligations.TableLocksAndScrubbing
  rintro ⟨hlock, -⟩
  have hcase := hlock (wideRing lockCmd) 0 0x100 8
  simp only [← and_imp] at hcase
  obtain ⟨t, -, -, -, -, -, hhead, -⟩ := hcase (by decide +kernel)
  exact dmaHead_ne_wideRing_next t lockCmd hhead

end Sys2Proof

/-! ## The commit point while a front divides the admission points (R193, R194)

A commit and a statistics front that fall together are ordered the same way at every admission point. A commit asked for while a
front has passed some parsers and not others therefore waits: its commit point falls after the front. -/

namespace Sys2Proof.Machine

/-- No commit point falls while the front in flight has passed some parsers and not others. -/
theorem commitPoint_of_frontSplits {s : State} (h : s.frontSplits = true) : s.commitPoint = s := by
  unfold State.commitPoint
  split
  · rfl
  · exact if_pos h

/-- No register of the TOP page is one that any command may change. -/
theorem topA_not_mem_quietRegs {o : Nat} (ho : o < 0x1000) : topA o ∉ watchRegs ∧ topA o ∉ countRegs := by
  simp only [watchRegs, countRegs, dbgA, staA, topA, List.mem_cons, List.not_mem_nil, or_false]
  omega

/-- The current version stands in the answer as the command's effect left it. -/
theorem verC_of_answer {s t u : State} (h : answer s t = .next u) : u.verC = t.verC := by
  obtain ⟨v, hv, hq, -⟩ := answer_next s t
  rw [hv] at h
  cases h
  obtain ⟨hwatch, hcount⟩ := topA_not_mem_quietRegs (o := 0x300) (by decide)
  exact congrArg (fun w => fld w 2 0) (hq.rd hwatch hcount)

/-- A running device with STA_CTL.en 1 and software fronts, in which D0 has opened a change set and asked for its commit point. -/
def commitAskedState : State :=
  State.verCommit (State.verOpen
    { pmu := { por := true, enCore := true }, hif := { linkUp := true },
      regs := [(topA 0x048, 2), (topA 0x300, 0x100), (staA 0x040, 4), (staA 0x044, 0x80010000)] } 0) 0

/-- A front has then been injected, and has passed HIF, ISL, SEC and parser 4, and not yet parsers 0 to 3. -/
def splitCommitState : State := forEach [1, 7, 11, prsPage 4] commitAskedState.softFront State.frontPass

/-- The commit point is asked for with nothing queued or staged, the version is 0, and the front divides the parsers. -/
theorem splitCommitState_waits :
    splitCommitState.ver.pendingCommit = some 0 ∧ splitCommitState.tbl.repairs = [] ∧ splitCommitState.tbl.dirty = false ∧
      splitCommitState.ver.staged = [] ∧ splitCommitState.verC = 0 ∧ splitCommitState.frontSplits = true := by decide +kernel

end Sys2Proof.Machine

namespace Sys2Proof

open Sys2Proof.Machine

/-- Refutes O28: its clause on COMMIT_POINT does not say that no front divides the parsers. In `splitCommitState` a front has
passed parser 4 and not yet the others: the state meets every hypothesis, and the commit point waits for the front (R194, as log
166 reads it), so C stays 0 where the clause has 1. A run comes to such a state: STA_ENABLE_CHANGE with software fronts, VER_SET_OPEN, VER_SET_COMMIT,
FRONT_SOFTWARE_INJECT, and FRONT_PASS_BLOCK of pages 1, 7, 11 and 0x64. -/
theorem not_ruleVersionsCommit : ¬ Obligations.RuleVersionsCommit := by
  unfold Obligations.RuleVersionsCommit
  rintro ⟨-, -, -, hcommit, -⟩
  obtain ⟨hasked, hrepairs, hclean, hstaged, hver, hsplit⟩ := splitCommitState_waits
  obtain ⟨t, ht, hnext, -⟩ := hcommit splitCommitState 0 hasked hrepairs hclean (by rw [hstaged]; exact nofun)
  have heff : answer splitCommitState splitCommitState.commitPoint = .next t := ht
  rw [commitPoint_of_frontSplits hsplit] at heff
  have hstays : t.verC = 0 := (verC_of_answer heff).trans hver
  rw [hver] at hnext
  exact absurd (hnext.symm.trans hstays) (by decide)

end Sys2Proof

/-! ## A frame of a blocked stream whose version is none of the 8 (R197, R210)

A frame that POL drops leaves its rule version: `State.drainSub` writes TOP_VER_DRAIN of the version that the frame carries.
Nothing in the statements bounds that version, and 0x310 + 4 × 114,512 is the address 0x70050 of the counter in POL 0 of frames
dropped by size. For the versions 0 to 7 of the device the two registers are apart. -/

namespace Sys2Proof.Machine

/-- A whole frame of stream handle 3 and of version 114,512 that waits in POL 0. -/
def strayPoliceFrame : Frame :=
  { id := 5, src := 3, inPort := 3, complete := true, wireLen := 64, bytes := List.replicate 64 1, stg := 1, admitted := true,
    version := 114512, place := .police, md := [(8, 1), (9, 7), (0x0F, 3)] }

/-- A running device that holds this frame alone, with the filter entry of its stream valid and blocked in POL 0. -/
def strayPoliceState : State :=
  { pmu := { por := true, enCore := true }, hif := { linkUp := true }, regs := [(topA 0x048, 2), (glfA 0x068, 1)],
    win := [(filterA 0 3, 5)], frames := [(5, strayPoliceFrame)], nextId := 6 }

theorem strayPoliceState_nextPolice : strayPoliceState.nextPolice 0 = some strayPoliceFrame := by decide

/-- POLICE_FRAME counts the frame in POL 0 as dropped, 0 to 1, and then counts it out of its version, 1 to 0. -/
theorem strayPolice_uncounted : (strayPoliceState.police 0).rd (polA 0 0x050) = 0 := by decide +kernel

end Sys2Proof.Machine

namespace Sys2Proof

open Sys2Proof.Machine

/-- Refutes O29: its clause on a frame of a blocked stream ranges over frames whose rule version is none of the 8. The frame is
counted as dropped, and then counted out of its version in the same register, which reads 0 again. In a run a frame takes its
version from C (R191), which is below 8, so `strayPoliceState` is a state that the statement admits and not one that a run is known
to reach. -/
theorem not_policingRunsItsChecks : ¬ Obligations.PolicingRunsItsChecks := by
  unfold Obligations.PolicingRunsItsChecks
  rintro ⟨-, -, hblocked, -⟩
  obtain ⟨t, ht, hcounted, -⟩ := hblocked strayPoliceState 0 strayPoliceFrame 3 (by decide) strayPoliceState_nextPolice
    (by decide) (by decide) (by decide +kernel) (by decide) (by decide) (by decide) (by decide) (by decide +kernel)
    (by decide +kernel)
  have heff : answer strayPoliceState (strayPoliceState.police 0) = .next t := ht
  have hstays : t.rd (polA 0 0x050) = 0 := (rd_of_answer heff (by decide)).trans strayPolice_uncounted
  have hbefore : strayPoliceState.rd (polA 0 0x050) = 0 := by decide
  have hone : t.rd (polA 0 0x050) = word (satAdd 32 (strayPoliceState.rd (polA 0 0x050)).toNat 1) := hcounted
  rw [hstays, hbefore] at hone
  exact absurd hone (by decide)

end Sys2Proof

/-! ## The Gale fabric: what its commands may change (R231 to R259)

A command of the fabric changes registers, the fabric's own state, the frames it takes in or lets go, the repair queue and what
waits for the recorder. `RegStep` is such a change that leaves the fabric's state and the frames as they were, `FabStep` one that
may change them too. -/

namespace Sys2Proof.Machine

/-! ### Steps -/

/-- From `s` to `t` the fabric's state, the frames and every memory stand, no register has changed but those listed and those that
any command may change, and the events that waited still wait. -/
structure RegStep (xs : List Nat) (s t : State) : Prop where
  frame : ∃ regs macs spr sta evr fresh hif out,
    t = { s with regs := regs, macs := macs, spr := spr, sta := sta, evr := evr, fresh := fresh, hif := hif, out := out }
  regs : RegsBut xs s t
  raised : ∀ page code, s.raised page code → t.raised page code

theorem raised_of_waiting {s t : State} (h : ∃ es, t.evr.waiting = s.evr.waiting ++ es) (page code : Nat)
    (hr : s.raised page code) : t.raised page code := by
  obtain ⟨es, hes⟩ := h
  obtain ⟨e, he, hcode⟩ := hr
  exact ⟨e, by rw [hes]; exact List.mem_append_left _ he, hcode⟩

namespace RegStep

variable {xs ys : List Nat} {s t u : State}

theorem refl (s : State) : RegStep xs s s := ⟨⟨_, _, _, _, _, _, _, _, rfl⟩, fun _ _ _ _ => rfl, fun _ _ h => h⟩

theorem trans (h1 : RegStep xs s t) (h2 : RegStep xs t u) : RegStep xs s u := by
  obtain ⟨⟨_, _, _, _, _, _, _, _, rfl⟩, r1, e1⟩ := h1
  obtain ⟨⟨_, _, _, _, _, _, _, _, rfl⟩, r2, e2⟩ := h2
  exact ⟨⟨_, _, _, _, _, _, _, _, rfl⟩, fun a ha hw hc => (r2 a ha hw hc).trans (r1 a ha hw hc),
    fun page code h => e2 page code (e1 page code h)⟩

theorem mono (h : RegStep xs s t) (hx : xs ⊆ ys) : RegStep ys s t :=
  ⟨h.frame, fun a ha => h.regs a (fun hm => ha (hx hm)), h.raised⟩

theorem wr (h : RegStep xs s t) (w : Word) {a : Nat} (ha : a ∈ xs) : RegStep xs s (t.wr a w) :=
  h.trans ⟨⟨_, _, _, _, _, _, _, _, rfl⟩, fun _ hx _ _ => rd_wr_ne t w (fun e => hx (e ▸ ha)), fun _ _ h => h⟩

theorem setF (h : RegStep xs s t) (hi lo v : Nat) {a : Nat} (ha : a ∈ xs) : RegStep xs s (t.setF a hi lo v) := h.wr _ ha

theorem setB (h : RegStep xs s t) (i : Nat) (v : Bool) {a : Nat} (ha : a ∈ xs) : RegStep xs s (t.setB a i v) := h.wr _ ha

theorem bump (h : RegStep xs s t) {a : Nat} (ha : a ∈ xs) : RegStep xs s (t.bump a) := h.wr _ ha

theorem setSpr (h : RegStep xs s t) (x : Spr) : RegStep xs s { t with spr := x } :=
  h.trans ⟨⟨_, _, _, _, _, _, _, _, rfl⟩, fun _ _ _ _ => rfl, fun _ _ h => h⟩

theorem draw (h : RegStep xs s t) : RegStep xs s t.draw.2 :=
  h.trans ⟨⟨_, _, _, _, _, _, _, _, rfl⟩, fun _ _ _ _ => rfl, fun _ _ h => h⟩

theorem report (h : RegStep xs s t) (n code p0 p1 p2 p3 : Nat) {page : Nat} (ha : page * 0x1000 + 8 ∈ xs) :
    RegStep xs s (t.report page n code p0 p1 p2 p3) := by
  obtain ⟨e, _, _, hw⟩ := report_waiting t page n code p0 p1 p2 p3
  exact h.trans ⟨⟨_, _, _, _, _, _, _, _, rfl⟩, fun _ hx _ _ => rd_report_ne t n code p0 p1 p2 p3 (fun e => hx (e ▸ ha)),
    raised_of_waiting ⟨[e], hw⟩⟩

theorem capture (h : RegStep xs s t) (w : Nat) {a : Nat} (ha : a ∈ xs) : RegStep xs s (t.capture a w) := by
  unfold State.capture
  split
  · exact h
  · exact h.wr _ ha

/-- A quiet change behind which no event is lost. -/
theorem quiet (h : RegStep xs s t) (hq : Quiet t u) (hr : ∀ page code, t.raised page code → u.raised page code) :
    RegStep xs s u := by
  refine h.trans ⟨?_, fun a _ hw hc => hq.rd hw hc, hr⟩
  obtain ⟨⟨_, _, _, _, _, _, rfl⟩, _⟩ := hq
  exact ⟨_, _, _, _, _, _, _, _, rfl⟩

theorem pmc (h : RegStep xs s t) (page ev n : Nat) : RegStep xs s (t.pmc page ev n) :=
  h.quiet (pmc_quiet t page ev n) (raised_of_waiting (pmc_waiting t page ev n))

theorem led (h : RegStep xs s t) (page code inst term n : Nat) : RegStep xs s (t.led page code inst term n) :=
  h.quiet (led_quiet t page code inst term n) (by
    unfold State.led State.ledZ
    split <;> exact fun _ _ h => h)

theorem glf (h : RegStep xs s t) : t.glf = s.glf := by obtain ⟨⟨_, _, _, _, _, _, _, _, rfl⟩, _⟩ := h; rfl
theorem frames (h : RegStep xs s t) : t.frames = s.frames := by obtain ⟨⟨_, _, _, _, _, _, _, _, rfl⟩, _⟩ := h; rfl
theorem flowKept (h : RegStep xs s t) : FlowKept s t := by
  obtain ⟨⟨_, _, _, _, _, _, _, _, rfl⟩, _⟩ := h
  exact ⟨rfl, rfl, rfl, rfl, rfl⟩

end RegStep

/-- From `s` to `t` a change as in `RegStep`, beside one of the fabric's state and of the frames. -/
def FabStep (xs : List Nat) (s t : State) : Prop := ∃ glf frames, RegStep xs { s with glf := glf, frames := frames } t

theorem RegStep.fab {xs : List Nat} {s t : State} (h : RegStep xs s t) : FabStep xs s t := ⟨s.glf, s.frames, h⟩

namespace FabStep

variable {xs ys : List Nat} {s t u : State}

theorem refl (s : State) : FabStep xs s s := (RegStep.refl s).fab

theorem trans (h1 : FabStep xs s t) (h2 : FabStep xs t u) : FabStep xs s u := by
  obtain ⟨g1, f1, ⟨_, _, _, _, _, _, _, _, rfl⟩, r1, e1⟩ := h1
  obtain ⟨g2, f2, ⟨_, _, _, _, _, _, _, _, rfl⟩, r2, e2⟩ := h2
  exact ⟨g2, f2, ⟨_, _, _, _, _, _, _, _, rfl⟩, fun a ha hw hc => (r2 a ha hw hc).trans (r1 a ha hw hc),
    fun page code h => e2 page code (e1 page code h)⟩

theorem mono (h : FabStep xs s t) (hx : xs ⊆ ys) : FabStep ys s t := by
  obtain ⟨g, f, h⟩ := h
  exact ⟨g, f, h.mono hx⟩

theorem step (h : FabStep xs s t) (hr : RegStep xs t u) : FabStep xs s u := h.trans hr.fab

theorem setGlf (h : FabStep xs s t) (x : Glf) : FabStep xs s { t with glf := x } := h.trans ⟨x, t.frames, .refl _⟩

theorem setFrames (h : FabStep xs s t) (x : SMap Frame) : FabStep xs s { t with frames := x } := h.trans ⟨t.glf, x, .refl _⟩

theorem regsBut (h : FabStep xs s t) : RegsBut xs s t := by obtain ⟨_, _, h⟩ := h; exact h.regs

theorem raised (h : FabStep xs s t) {page code : Nat} (hr : s.raised page code) : t.raised page code := by
  obtain ⟨_, _, h⟩ := h
  exact h.raised page code hr

theorem pending (h : FabStep xs s t) : t.pending = s.pending := by
  obtain ⟨_, _, ⟨_, _, _, _, _, _, _, _, rfl⟩, _⟩ := h
  rfl

theorem winKept (h : FabStep xs s t) : WinKept s t := by
  obtain ⟨_, _, ⟨_, _, _, _, _, _, _, _, rfl⟩, _⟩ := h
  exact fun _ => rfl

theorem memKept (h : FabStep xs s t) : MemKept s t := by
  obtain ⟨_, _, ⟨_, _, _, _, _, _, _, _, rfl⟩, _⟩ := h
  exact fun _ => ⟨rfl, rfl, rfl, rfl, rfl⟩

end FabStep

/-! ### Registers of the fabric and of the spares manager -/

/-- No register of the fabric's page or past it is one that any command may change. -/
theorem glfA_not_mem_quietRegs (o : Nat) : glfA o ∉ watchRegs ∧ glfA o ∉ countRegs :=
  pastSta_not_mem_quietRegs (by unfold glfA; omega)

/-- No register of the spares manager is one that any command may change. -/
theorem sprA_not_mem_quietRegs {o : Nat} (ho : o < 0x1000) : sprA o ∉ watchRegs ∧ sprA o ∉ countRegs := by
  simp only [watchRegs, countRegs, dbgA, staA, sprA, List.mem_cons, List.not_mem_nil, or_false]
  omega

theorem RegStep.glf_rd {xs : List Nat} {s t : State} (h : RegStep xs s t) {o : Nat} (ho : glfA o ∉ xs) :
    t.rd (glfA o) = s.rd (glfA o) :=
  h.regs _ ho (glfA_not_mem_quietRegs o).1 (glfA_not_mem_quietRegs o).2

theorem RegStep.spr_rd {xs : List Nat} {s t : State} (h : RegStep xs s t) {o : Nat} (ho : o < 0x1000) (hx : sprA o ∉ xs) :
    t.rd (sprA o) = s.rd (sprA o) :=
  h.regs _ hx (sprA_not_mem_quietRegs ho).1 (sprA_not_mem_quietRegs ho).2

theorem FabStep.glf_rd {xs : List Nat} {s t : State} (h : FabStep xs s t) {o : Nat} (ho : glfA o ∉ xs) :
    t.rd (glfA o) = s.rd (glfA o) :=
  h.regsBut _ ho (glfA_not_mem_quietRegs o).1 (glfA_not_mem_quietRegs o).2

theorem FabStep.spr_rd {xs : List Nat} {s t : State} (h : FabStep xs s t) {o : Nat} (ho : o < 0x1000) (hx : sprA o ∉ xs) :
    t.rd (sprA o) = s.rd (sprA o) :=
  h.regsBut _ hx (sprA_not_mem_quietRegs ho).1 (sprA_not_mem_quietRegs ho).2

/-- A first-only capture that is not held takes the word given. -/
theorem capture_of_clear {s : State} {a : Nat} (h : s.b a 31 = false) (w : Nat) :
    s.capture a w = s.wr a (word (w % 2 ^ 31 + 2 ^ 31)) := by
  unfold State.capture
  rw [if_neg (by rw [h]; decide)]
  rfl

/-- A word written back as it reads changes no register. -/
theorem rd_wr_rd (s : State) (a x : Nat) : (s.wr a (s.rd a)).rd x = s.rd x := by
  by_cases hx : x = a
  · rw [hx, rd_wr_same]
  · exact rd_wr_ne s _ hx

theorem RegStep.wr_rd (s : State) (a : Nat) : RegStep [] s (s.wr a (s.rd a)) :=
  ⟨⟨_, _, _, _, _, _, _, _, rfl⟩, fun x _ _ _ => rd_wr_rd s a x, fun _ _ h => h⟩

/-! ### What follows a command's effect -/

theorem haltPipes_evr (s : State) (m : Nat) : (s.haltPipes m).evr = s.evr := rfl

theorem dbgHit_waiting (s : State) (src pipe port halt : Nat) :
    ∃ es, (s.dbgHit src pipe port halt).evr.waiting = s.evr.waiting ++ es := by
  unfold State.dbgHit
  simp only
  split
  · exact ⟨[], by rw [setB_evr, List.append_nil]⟩
  · rw [haltPipes_evr]
    split
    · obtain ⟨e, _, _, hw⟩ := report_waiting ((s.setB (dbgA 0x060) src true).wr (dbgA 0x064)
        (word (2 ^ 31 + pipe % 8 * 2 ^ 24 + port % 128 * 2 ^ 16 + src))) 6 0 0x1803 0 0 0 0
      exact ⟨[e], by rw [hw, wr_evr, setB_evr]⟩
    · exact ⟨[], by rw [setB_evr, List.append_nil]⟩

/-- Watchpoints on a completed write are quiet but for what frames in reception know of a halt. -/
theorem RegStep.watch {xs : List Nat} {s t : State} (h : RegStep xs s t) (kind target idx : Nat) :
    RegStep xs s (t.watch kind target idx) := by
  have hwaiting : ∃ es, (t.watch kind target idx).evr.waiting = t.evr.waiting ++ es := by
    refine forEach_keeps (fun u => ∃ es, u.evr.waiting = t.evr.waiting ++ es) _ _ _ ⟨[], (List.append_nil _).symm⟩ ?_
    rintro u j - ⟨es, hes⟩
    simp only
    split
    · obtain ⟨fs, hfs⟩ := dbgHit_waiting u.draw.2 (8 + j) (Config.freeValue u.draw.1) (Config.freeValue u.draw.1 / 8)
        (fld (u.rd (dbgA (0x180 + 16 * j))) 12 8)
      exact ⟨es ++ fs, by rw [← List.append_assoc, ← hes]; exact hfs⟩
    · exact ⟨es, hes⟩
  refine h.trans ⟨?_, ?_, raised_of_waiting hwaiting⟩
  · obtain ⟨m, ⟨_, _, _, _, _, _, hu⟩, _⟩ := watch_quiet t kind target idx
    exact ⟨_, _, _, _, _, _, _, _, hu⟩
  · obtain ⟨m, _, hregs⟩ := watch_quiet t kind target idx
    exact fun a _ hw hc => hregs a hw hc

/-- An effect that is a step of the fabric is answered with nothing but a quiet change beside it. -/
theorem FabStep.answered {xs : List Nat} {s t : State} (h : FabStep xs s t) :
    ∃ u, answer s t = .next u ∧ RegStep [] t u ∧ FabStep xs s u := by
  obtain ⟨u, hu, hq, _, hr⟩ := exists_answerOf h.pending
  exact ⟨u, hu, (RegStep.refl t).quiet hq hr, h.step ((RegStep.refl t).quiet hq hr)⟩

end Sys2Proof.Machine

/-! ## The last spare under test while a slot stands empty (R249, R258, R259)

A commanded test of the only spare plane leaves an empty slot with no spare: GLF_STATUS shows it, and R259's cause 2 sets with
event 0x3C03. -/

namespace Sys2Proof.Machine

/-- A running device with auto_swap off, all four slots active and plane 4 spare, in which the failure of an earlier test of plane 4
is still captured. -/
def swapOffState : State :=
  { pmu := { por := true, enCore := true }, hif := { linkUp := true },
    regs := [(topA 0x048, 2), (glfA 0x044, 0), (glfA 0x060, 0x85040707)] }

/-- The same device after CMD_PLANE_ISOLATE of plane 2: slot 2 is empty, and plane 4 still spare. -/
def slotEmptyState : State := swapOffState.planeCmd 1 2 (fun s => s.planeFault 2 4 7 7)

/-- What CMD_PLANE_TEST of plane 4 leaves of it. -/
def lastSpareEffect : State := slotEmptyState.planeCmd 2 4 (fun s => s.testPlane 4 none)

theorem slotEmptyState_accepts_test : slotEmptyState.accepts (glfA 0x050) (word (32 + 4)) := by decide +kernel

theorem slotEmptyState_cause_clear : slotEmptyState.b (glfA 0x008) 2 = false := by decide +kernel

theorem lastSpareEffect_cause_set : lastSpareEffect.b (glfA 0x008) 2 = true := by decide +kernel

end Sys2Proof.Machine

namespace Sys2Proof

open Sys2Proof.Machine

/-- Refutes O32: its clause on CMD_PLANE_TEST lets only GLF_PLANE_STATE and GLF_STATUS change. Where a slot is empty, as an isolation
with auto_swap 0 leaves it, the test of the last spare leaves that slot with no spare, and PAGE_IRQ_RAW of the fabric's page takes
cause 2 (R259). -/
theorem not_planesAreTestedAndSwapped : ¬ Obligations.PlanesAreTestedAndSwapped := by
  unfold Obligations.PlanesAreTestedAndSwapped
  rintro ⟨htest, -⟩
  obtain ⟨t, ht, -, -, hregs, -⟩ := htest slotEmptyState 4 slotEmptyState_accepts_test
  have heff : answer slotEmptyState lastSpareEffect = .next t := ht
  have hset : t.rd (glfA 0x008) = lastSpareEffect.rd (glfA 0x008) := rd_of_answer heff (by decide)
  have hkept : t.rd (glfA 0x008) = slotEmptyState.rd (glfA 0x008) := hregs _ (by decide) (by decide) (by decide)
  have hsame : lastSpareEffect.b (glfA 0x008) 2 = slotEmptyState.b (glfA 0x008) 2 := by
    unfold State.b
    rw [← hset, hkept]
  rw [lastSpareEffect_cause_set, slotEmptyState_cause_clear] at hsame
  exact absurd hsame (by decide)

end Sys2Proof

/-! ## Planes that are isolated or stall (R245, R246, R249, R250)

What the operations on planes and slots change, and one equation for each case of `State.planeFault`. -/

namespace Sys2Proof.Machine

/-! ### Plane states and slots -/

theorem planeState_of_rd {s t : State} (h : t.rd (glfA 0x04C) = s.rd (glfA 0x04C)) (p : Nat) : t.planeState p = s.planeState p := by
  unfold State.planeState State.f
  rw [h]

theorem slotValid_of_rd {s t : State} (h : t.rd (glfA 0x048) = s.rd (glfA 0x048)) (j : Nat) : t.slotValid j = s.slotValid j := by
  unfold State.slotValid State.b
  rw [h]

theorem slotPlane_of_rd {s t : State} (h : t.rd (glfA 0x048) = s.rd (glfA 0x048)) (j : Nat) : t.slotPlane j = s.slotPlane j := by
  unfold State.slotPlane State.f
  rw [h]

theorem setPlaneState_same (s : State) {p : Nat} (hp : p < 5) (v : Nat) : (s.setPlaneState p v).planeState p = v % 8 := by
  show fld ((s.setF (glfA 0x04C) (4 * p + 2) (4 * p) v).rd (glfA 0x04C)) (4 * p + 2) (4 * p) = v % 8
  rw [rd_setF_same]
  exact (fld_setFld_same _ _ _ _ (by omega) (by omega)).trans
    (congrArg (fun n => v % 2 ^ n) (show 4 * p + 2 + 1 - 4 * p = 3 by omega))

theorem setPlaneState_ne (s : State) {p r : Nat} (hp : p < 5) (hr : r ≠ p) (v : Nat) :
    (s.setPlaneState p v).planeState r = s.planeState r := by
  show fld ((s.setF (glfA 0x04C) (4 * p + 2) (4 * p) v).rd (glfA 0x04C)) (4 * r + 2) (4 * r) = _
  rw [rd_setF_same, fld_setFld_ne _ _ _ _ _ _ (by omega) (by omega) (by omega)]
  rfl

theorem sparePlane_some {s : State} {r : Nat} (h : s.sparePlane = some r) : r < 5 ∧ s.planeState r = 1 :=
  ⟨List.mem_range.mp (List.mem_of_find?_eq_some h),
    of_decide_eq_true (List.find?_some (p := fun r => decide (s.planeState r = 1)) h)⟩

theorem RegStep.setPlaneState {xs : List Nat} {s t : State} (h : RegStep xs s t) (p v : Nat) (ha : glfA 0x04C ∈ xs) :
    RegStep xs s (t.setPlaneState p v) := h.wr _ ha

/-- The registers that show planes under test and GLF_STATUS, with the causes of R259. -/
abbrev planeRegs : List Nat := [glfA 0x04C, glfA 0x040, glfA 0x008]

theorem planeStatus_step (s : State) : RegStep [glfA 0x040, glfA 0x008] s s.planeStatus := by
  have hshown : ∀ (a h : Nat) (n m : Bool), RegStep [glfA 0x040, glfA 0x008] s
      ((((s.setF (glfA 0x040) 2 0 a).setF (glfA 0x040) 6 4 h).setB (glfA 0x040) 9 n).setB (glfA 0x040) 8 m) := fun a h n m =>
    ((((RegStep.refl s).setF 2 0 a (by decide)).setF 6 4 h (by decide)).setB 9 n (by decide)).setB 8 m (by decide)
  unfold State.planeStatus
  simp only
  split
  · exact (hshown _ _ _ _).report 2 0x3C03 0 0 0 0 (by decide)
  · exact hshown _ _ _ _

theorem planeStatus_planeState (s : State) (p : Nat) : s.planeStatus.planeState p = s.planeState p :=
  planeState_of_rd ((planeStatus_step s).glf_rd (by decide)) p

theorem testPlane_step (s : State) (p : Nat) (slot : Option Nat) : FabStep planeRegs s (s.testPlane p slot) :=
  (((FabStep.refl s).setGlf _).step ((RegStep.refl _).setPlaneState p 3 (by decide))).step
    ((planeStatus_step _).mono (by decide))

theorem testPlane_glf (s : State) (p : Nat) (slot : Option Nat) :
    (s.testPlane p slot).glf = { s.glf with tests := s.glf.tests ++ [(p, slot)] } := (planeStatus_step _).glf

theorem testPlane_planeState_ne (s : State) {p r : Nat} (hp : p < 5) (hr : r ≠ p) (slot : Option Nat) :
    (s.testPlane p slot).planeState r = s.planeState r :=
  (planeStatus_planeState _ r).trans (setPlaneState_ne _ hp hr 3)

/-! ### The next swap -/

/-- Either no swap starts, or the lowest spare is tested for the slot whose turn it is. -/
theorem nextSwap_cases (s : State) :
    s.nextSwap = s.planeStatus ∨ ∃ j rest r, s.sparePlane = some r ∧
      s.nextSwap = ({ s with glf := { s.glf with waiting := rest } }).testPlane r (some j) := by
  unfold State.nextSwap
  split
  · next j rest r _ hspare =>
    split
    · exact .inl rfl
    · exact .inr ⟨j, rest, r, hspare, rfl⟩
  · exact .inl rfl

theorem nextSwap_step (s : State) : FabStep planeRegs s s.nextSwap := by
  obtain h | ⟨j, rest, r, -, h⟩ := nextSwap_cases s <;> rw [h]
  · exact ((planeStatus_step s).mono (by decide)).fab
  · exact ((FabStep.refl s).setGlf _).trans (testPlane_step _ r (some j))

/-- A plane that is not spare stays in its state. -/
theorem nextSwap_planeState {s : State} {p : Nat} (h : s.planeState p ≠ 1) : s.nextSwap.planeState p = s.planeState p := by
  obtain hs | ⟨j, rest, r, hspare, hs⟩ := nextSwap_cases s <;> rw [hs]
  · exact planeStatus_planeState s p
  · obtain ⟨hr, hstate⟩ := sparePlane_some hspare
    exact testPlane_planeState_ne _ hr (fun (e : p = r) => h (by rw [e]; exact hstate)) (some j)

theorem nextSwap_flights (s : State) : s.nextSwap.glf.flights = s.glf.flights := by
  obtain hs | ⟨j, rest, r, -, hs⟩ := nextSwap_cases s <;> rw [hs]
  · rw [(planeStatus_step s).glf]
  · rw [testPlane_glf]

/-- A plane that is not spare comes under no test. -/
theorem nextSwap_tests {s : State} {p : Nat} (h : s.planeState p ≠ 1) (ht : ∀ x ∈ s.glf.tests, x.1 ≠ p) :
    ∀ x ∈ s.nextSwap.glf.tests, x.1 ≠ p := by
  obtain hs | ⟨j, rest, r, hspare, hs⟩ := nextSwap_cases s <;> rw [hs]
  · rw [(planeStatus_step s).glf]
    exact ht
  · rw [testPlane_glf]
    intro x hx
    obtain hx | hx := List.mem_append.mp hx
    · exact ht x hx
    · rw [List.mem_singleton.mp hx]
      exact fun (e : r = p) => h (by rw [← e]; exact (sparePlane_some hspare).2)

/-! ### A fault of a plane -/

/-- A plane's fault is declared: the cells that wait for a resend are no longer those of the isolation captured, unless an earlier
fault is; the capture is first-only. -/
def State.faultNoted (s : State) (p cause k e : Nat) : State :=
  (if !s.b (glfA 0x060) 31 then
      { s with glf := { s.glf with unacked := s.glf.unacked.map (fun c => { c with again := c.again.map (fun _ => false) }) } }
    else s).capture (glfA 0x060) (cause * 2 ^ 24 + p * 2 ^ 16 + k * 2 ^ 8 + e)

theorem faultNoted_step (s : State) (p cause k e : Nat) : FabStep [glfA 0x060] s (s.faultNoted p cause k e) := by
  unfold State.faultNoted
  split
  · exact ((FabStep.refl s).setGlf _).step ((RegStep.refl _).capture _ (by decide))
  · exact ((RegStep.refl s).capture _ (by decide)).fab

theorem faultNoted_glf (s : State) (p cause k e : Nat) :
    ∃ unacked, (s.faultNoted p cause k e).glf = { s.glf with unacked := unacked } := by
  unfold State.faultNoted
  split
  · exact ⟨_, ((RegStep.refl (xs := [glfA 0x060]) _).capture _ (by decide)).glf⟩
  · exact ⟨_, ((RegStep.refl (xs := [glfA 0x060]) s).capture _ (by decide)).glf⟩

/-- The capture names the plane, the cause and the path. -/
theorem faultNoted_captured {s : State} {p cause k e : Nat} (h : s.b (glfA 0x060) 31 = false) (hp : p < 8) (hcause : cause < 8)
    (hk : k < 8) (he : e < 8) :
    (s.faultNoted p cause k e).rd (glfA 0x060) = word (2 ^ 31 + cause * 2 ^ 24 + p * 2 ^ 16 + k * 2 ^ 8 + e) := by
  unfold State.faultNoted
  rw [if_pos (by rw [h]; rfl), capture_of_clear (by exact h), rd_wr_same, Nat.mod_eq_of_lt (by omega)]
  congr 1
  omega

/-- An active plane is taken out of slot `j`: when its fault is the one captured, the time of the isolation is; the cells inside it
are lost. -/
def State.planeOut (s : State) (p j : Nat) (first : Bool) : State :=
  let t := if first then s.draw.2.wr (glfA 0x064) (word (Config.freeValue s.draw.1 % 1001)) else s.draw.2
  let t := { t with glf := { t.glf with flights := t.glf.flights.filter (fun x => decide (x.plane ≠ p)) } }
  (t.setPlaneState p 2).emptySlot j first

theorem emptySlot_step (s : State) (j : Nat) (cap : Bool) : FabStep [glfA 0x048] s (s.emptySlot j cap) :=
  ((((RegStep.refl s).setF _ _ _ (by decide)).fab).setGlf _).setGlf _

theorem emptySlot_slotValid (s : State) {j : Nat} (hj : j < 4) (cap : Bool) : (s.emptySlot j cap).slotValid j = false := by
  show bit ((s.setF (glfA 0x048) (4 * j + 3) (4 * j) 0).rd (glfA 0x048)) (4 * j + 3) = false
  rw [rd_setF_same, bit, setFld_getLsbD _ _ _ _ _ (by omega) (by omega), if_pos (by omega), Nat.zero_testBit]

theorem planeOut_step (s : State) (p j : Nat) (first : Bool) :
    FabStep [glfA 0x064, glfA 0x04C, glfA 0x048] s (s.planeOut p j first) := by
  unfold State.planeOut
  refine FabStep.trans (FabStep.step (FabStep.setGlf (RegStep.fab ?_) _)
    ((RegStep.refl _).setPlaneState p 2 (by decide))) ((emptySlot_step _ j first).mono (by decide))
  split
  · exact (RegStep.refl s).draw.wr _ (by decide)
  · exact (RegStep.refl s).draw

theorem planeOut_planeState (s : State) {p : Nat} (hp : p < 5) (j : Nat) (first : Bool) : (s.planeOut p j first).planeState p = 2 :=
  (planeState_of_rd ((emptySlot_step _ j first).glf_rd (by decide)) p).trans (setPlaneState_same _ hp 2)

theorem planeOut_slotValid (s : State) (p : Nat) {j : Nat} (hj : j < 4) (first : Bool) : (s.planeOut p j first).slotValid j = false :=
  emptySlot_slotValid _ hj first

theorem planeOut_flights (s : State) (p j : Nat) (first : Bool) : ∀ x ∈ (s.planeOut p j first).glf.flights, x.plane ≠ p :=
  fun _ hx => of_decide_eq_true (List.mem_filter.mp hx).2

/-- The fault of an active plane: it leaves its slot, the isolation is counted and reported, the next swap starts, and a test of the
plane is asked for. -/
theorem planeFault_active {s : State} {p j : Nat} (cause k e : Nat) (hp : p < 5) (hst : s.planeState p = 0)
    (hslot : (List.range 4).find? (fun j => s.slotValid j && decide (s.slotPlane j = p)) = some j) :
    s.planeFault p cause k e =
      (((((s.faultNoted p cause k e).planeOut p j (!s.b (glfA 0x060) 31)).bump (glfA 0x080)).report 15 0 0x3C01).nextSwap).request
        1 (15 + p) 0 := by
  have hrd := (faultNoted_step s p cause k e).glf_rd (o := 0x048) (by decide)
  have hslot' : (List.range 4).find? (fun j => (s.faultNoted p cause k e).slotValid j &&
      decide ((s.faultNoted p cause k e).slotPlane j = p)) = some j := by
    simp only [slotValid_of_rd hrd, slotPlane_of_rd hrd]
    exact hslot
  unfold State.faultNoted at hslot'
  unfold State.planeFault
  dsimp only
  rw [if_neg (by omega), if_neg (by rw [hst]; decide), hslot']
  rfl

/-- The tests of a plane end; a slot that one of them was meant for waits for the next spare. -/
def State.testsEnded (s : State) (p : Nat) : State :=
  { s with glf := { s.glf with tests := s.glf.tests.filter (fun t => decide (t.1 ≠ p)),
                               waiting := s.glf.tests.filterMap (fun t => if t.1 = p then t.2 else none) ++ s.glf.waiting } }

theorem testsEnded_tests (s : State) (p : Nat) : ∀ x ∈ (s.testsEnded p).glf.tests, x.1 ≠ p :=
  fun _ hx => of_decide_eq_true (List.mem_filter.mp hx).2

/-- GLF_FAULT_CAP1 of a capture of a plane that was not active: no time of isolation, no cell resent. -/
def State.noIsolation (s : State) (first : Bool) : State := if first then s.wr (glfA 0x064) 0 else s

theorem noIsolation_step (s : State) (first : Bool) : RegStep [glfA 0x064] s (s.noIsolation first) := by
  unfold State.noIsolation
  split
  · exact (RegStep.refl s).wr _ (by decide)
  · exact RegStep.refl s

/-- The fault of a plane that is spare or under test, but for a failed test: it becomes failed. -/
theorem planeFault_idle {s : State} {p : Nat} {cause : Nat} (k e : Nat) (hp : p < 5) (hcause : cause ≠ 5)
    (hst : s.planeState p = 1 ∨ s.planeState p = 3) :
    s.planeFault p cause k e =
      ((((s.faultNoted p cause k e).testsEnded p).noIsolation (!s.b (glfA 0x060) 31)).setPlaneState p 4).nextSwap := by
  unfold State.planeFault
  dsimp only
  rw [if_neg (by omega), if_pos (by omega), if_neg hcause]
  rfl

/-! ### The repair queue and the reserves (R491, R492, R500, R501) -/

/-- The registers of the repair queue's head, of its refusals and of the manager's causes. -/
abbrev queueRegs : List Nat := [sprA 0x040, sprA 0x050, sprA 0x054, sprA 0x068, sprA 0x008]

theorem RegStep.showHead {xs : List Nat} {s t : State} (h : RegStep xs s t) (st : Nat) (hx : queueRegs ⊆ xs) :
    RegStep xs s (t.showHead st) := by
  have hlen := h.setF 4 0 t.spr.queue.length (a := sprA 0x040) (hx (by decide))
  unfold State.showHead
  simp only
  split
  · exact ((hlen.wr _ (hx (by decide))).wr _ (hx (by decide))).setB _ _ (hx (by decide))
  · exact ((hlen.wr _ (hx (by decide))).wr _ (hx (by decide))).setB _ _ (hx (by decide))

theorem RegStep.newHead {xs : List Nat} {s t : State} (h : RegStep xs s t) (hx : queueRegs ⊆ xs) : RegStep xs s t.newHead := by
  unfold State.newHead
  split
  · split
    · exact ((h.setSpr _).showHead 1 hx).report 2 0x2003 0 0 0 0 (hx (by decide))
    · exact h.showHead 0 hx
  · exact h.showHead 0 hx

theorem RegStep.popRepair {xs : List Nat} {s t : State} (h : RegStep xs s t) (hx : queueRegs ⊆ xs) : RegStep xs s t.popRepair :=
  (h.setSpr _).newHead hx

theorem RegStep.refuseRepair {xs : List Nat} {s t : State} (h : RegStep xs s t) (reason : Nat) (hx : queueRegs ⊆ xs) :
    RegStep xs s (t.refuseRepair reason) :=
  (h.bump (hx (by decide))).report 4 0x2005 reason 0 0 0 (hx (by decide))

theorem RegStep.request {xs : List Nat} {s t : State} (h : RegStep xs s t) (kind region arg : Nat) (hx : queueRegs ⊆ xs) :
    RegStep xs s (t.request kind region arg) := by
  unfold State.request
  simp only
  split
  · exact h
  split
  · exact h
  split
  · exact h.refuseRepair 6 hx
  split
  · exact (h.setSpr _).newHead hx
  · exact (h.setSpr _).setF _ _ _ (hx (by decide))

/-- The registers that the reserves and SPR_DEGRADE besides may change. -/
abbrev reserveRegs : List Nat := queueRegs ++ [sprA 0x064, sprA 0x0C8] ++ (List.range 7).map (fun i => bpmA (0x0E0 + 4 * i))

theorem reserveReg_mem {p : Nat} (hp : p < 7) : bpmA (0x0E0 + 4 * p) ∈ reserveRegs :=
  List.mem_append_right _ (List.mem_map.mpr ⟨p, List.mem_range.mpr hp, rfl⟩)

theorem RegStep.setReserve {xs : List Nat} {s t : State} (h : RegStep xs s t) {p : Nat} (hp : p < 7) (release : Bool)
    (hx : reserveRegs ⊆ xs) : RegStep xs s (t.setReserve p release) :=
  (h.setB _ _ (hx (by decide))).setF _ _ _ (hx (reserveReg_mem hp))

theorem RegStep.repaired {xs : List Nat} {s t : State} (h : RegStep xs s t) (hx : reserveRegs ⊆ xs) : RegStep xs s t.repaired :=
  (h.bump (hx (by decide))).report 3 0x2004 0 0 0 0 (hx (by decide))

theorem RegStep.refreshReserve {xs : List Nat} {s t : State} (h : RegStep xs s t) (hx : reserveRegs ⊆ xs) :
    RegStep xs s t.refreshReserve := by
  refine forEach_keeps (fun u => RegStep xs s u) _ _ _ h (fun u p hp h => ?_)
  have hp : p < 7 := List.mem_range.mp hp
  simp only
  split
  · split
    · split
      · exact (h.setReserve hp true hx).repaired hx
      · exact h
    · exact h.request 6 30 p (fun a ha => hx (List.mem_append_left _ (List.mem_append_left _ ha)))
    · exact h
  · split
    · exact h.setReserve hp false hx
    · exact h

theorem RegStep.refreshDegrade {xs : List Nat} {s t : State} (h : RegStep xs s t) (hx : reserveRegs ⊆ xs) :
    RegStep xs s t.refreshDegrade := by
  unfold State.refreshDegrade
  simp only
  refine RegStep.refreshReserve ?_ hx
  split
  · exact h
  · exact ((h.setF _ _ _ (hx (by decide))).setB _ _ (hx (by decide))).report 1 0x2002 _ 0 0 0 (hx (by decide))

end Sys2Proof.Machine

/-! ## Host writes to the fabric's registers (R62, R257, R258) -/

namespace Sys2Proof.Machine

/-- A register write that no check refuses meets the condition its register has besides the ranges of its fields. -/
theorem regOk_of_accepts {s : State} {addr : Nat} {data : Word} {b : Blk} {i : Nat} {d : RegD} {r : RegReq}
    (h : s.accepts addr data) (hr : resolve addr data = r) (hpage : pageOf r.page = some (b, i))
    (hreg : regAt b i r.off = some d) (hoff : 0x40 ≤ r.off) (hacts : acts d r = true) :
    s.regOk b i r.off r (merged d (s.rd r.addr) r) = true := by
  refine Decidable.byContradiction (fun hbad => ?_)
  have hrange : breaksRange d (merged d (s.rd r.addr) r) r = true ∨
      (r.off ≥ 0x40 ∧ acts d r = true ∧ s.regOk b i r.off r (merged d (s.rd r.addr) r) = false) :=
    .inr ⟨hoff, hacts, Bool.eq_false_iff.mpr hbad⟩
  have hcheck := h.2
  unfold State.regCheck at hcheck
  rw [hr, hpage] at hcheck
  simp only [hreg, if_pos hrange, Bool.true_eq_false, if_false] at hcheck
  split at hcheck
  · exact absurd hcheck (by decide)
  · split at hcheck
    · exact absurd hcheck (by decide)
    · exact absurd hcheck (by decide)

theorem pageOf_glf : pageOf 15 = some (.glf, 0) := by decide

/-- The request that a write of a word to a register of the fabric makes. -/
abbrev glfReq (off : Nat) (w : Word) : RegReq := ⟨15, off, maskOf 31 0, w⟩

theorem resolve_glf {off : Nat} (h : off < 0x800) (w : Word) : resolve (glfA off) w = glfReq off w := by
  have hoff : (0xF000 + off) % 0x1000 = off := by omega
  have hpage : (0xF000 + off) / 0x1000 = 15 := by omega
  unfold resolve glfA
  rw [hoff, hpage]
  exact if_pos h

theorem glfReq_addr (off : Nat) (w : Word) : (glfReq off w).addr = glfA off := by
  show 15 * 0x1000 + off = 0xF000 + off
  omega

theorem glfReq_desc {off : Nat} {d : RegD} (h : regAt .glf 0 off = some d) (w : Word) : (glfReq off w).desc = d := by
  unfold RegReq.desc
  rw [pageOf_glf]
  dsimp only
  rw [h]
  rfl

/-- An accepted write to the fabric's page stores its fields and has its effect; then watchpoints see it. -/
theorem hostWriteWith_glf {s : State} {off : Nat} {w : Word} (eff : RegReq → State → State) (hoff : off < 0x800)
    (h : s.accepts (glfA off) w) :
    s.hostWriteWith (glfA off) w true eff = (eff (glfReq off w) (s.storeReg (glfReq off w))).watch 0 0 (glfA off) := by
  have hwrite := hostWriteWith_accepted s _ _ eff .glf 0 h (by rw [resolve_glf hoff]; exact pageOf_glf) rfl
  rw [resolve_glf hoff, glfReq_addr] at hwrite
  exact hwrite

/-- The row of GLF_PLANE_CMD. -/
abbrev planeCmdRow : RegD := reg "GLF_PLANE_CMD" 0x050 0 [fWO 2 0 0 (some 4), fWO 5 4 1 (some 3)]

theorem regAt_planeCmd : regAt .glf 0 0x050 = some planeCmdRow := by decide +kernel

theorem writeWord_planeCmd (old : Word) (r : RegReq) : writeWord planeCmdRow old r = old := rfl

/-- GLF_PLANE_CMD keeps nothing of what is written to it. -/
theorem planeCmd_accepted {s : State} {op p : Nat} (f : State → State) (h : s.accepts (glfA 0x050) (word (op * 16 + p))) :
    s.planeCmd op p f = (f (s.wr (glfA 0x050) (s.rd (glfA 0x050)))).watch 0 0 (glfA 0x050) := by
  unfold State.planeCmd
  rw [hostWriteWith_glf _ (by decide) h, State.storeReg, glfReq_desc regAt_planeCmd, writeWord_planeCmd, glfReq_addr]

/-- The fields op and plane of the word that GLF_PLANE_CMD would hold are those written. -/
theorem merged_planeCmd (old w : Word) :
    fld (merged planeCmdRow old (glfReq 0x050 w)) 5 4 = fld w 5 4 ∧ fld (merged planeCmdRow old (glfReq 0x050 w)) 2 0 = fld w 2 0 := by
  have hmask : w &&& maskOf 31 0 = w := BitVec.and_allOnes
  have hmerged : merged planeCmdRow old (glfReq 0x050 w) =
      setFld (setFld ((old &&& ~~~ maskOf 31 0) ||| (w &&& maskOf 31 0)) 2 0 (fld (w &&& maskOf 31 0) 2 0)) 5 4
        (fld (w &&& maskOf 31 0) 5 4) := rfl
  rw [hmerged, hmask]
  refine ⟨?_, ?_⟩
  · rw [fld_setFld_same _ _ _ _ (by decide) (by decide)]
    exact Nat.mod_mod _ _
  · rw [fld_setFld_ne _ _ _ _ _ _ (by decide) (by decide) (by decide), fld_setFld_same _ _ _ _ (by decide) (by decide)]
    exact Nat.mod_mod _ _

theorem regOk_planeCmd (s : State) (r : RegReq) (w : Word) : s.regOk .glf 0 0x050 r w = s.planeCmdOk (fld w 5 4) (fld w 2 0) := by
  unfold State.regOk
  exact if_pos rfl

/-- The condition of an isolation by command: the plane is active. -/
theorem planeState_of_accepts_isolate {s : State} {p : Group} (h : s.accepts (glfA 0x050) (word (16 + p.val))) :
    s.planeState p.val = 0 := by
  have hword : ∀ p : Group, acts planeCmdRow (glfReq 0x050 (word (16 + p.val))) = true ∧ fld (word (16 + p.val)) 5 4 = 1 ∧
      fld (word (16 + p.val)) 2 0 = p.val := by decide
  obtain ⟨hacts, hop, hplane⟩ := hword p
  obtain ⟨hop', hplane'⟩ := merged_planeCmd (s.rd (glfA 0x050)) (word (16 + p.val))
  have hok := regOk_of_accepts h (resolve_glf (by decide) _) pageOf_glf regAt_planeCmd (by show 0x40 ≤ 0x050; decide) hacts
  rw [glfReq_addr, regOk_planeCmd, hop', hop, hplane', hplane] at hok
  exact (of_decide_eq_true (Bool.and_eq_true_iff.mp hok).1).1

/-- The row of GLF_CTL. -/
abbrev glfCtlRow : RegD := reg "GLF_CTL" 0x044 1 [fRWL 0 0, fRWL 31 31]

theorem regAt_glfCtl : regAt .glf 0 0x044 = some glfCtlRow := by decide +kernel

/-- GLF_CTL.en takes the bit written. -/
theorem writeWord_glfCtl_en (old w : Word) : bit (writeWord glfCtlRow old (glfReq 0x044 w)) 31 = bit w 31 := by
  have hselected : ∀ x m : Word, m.getLsbD 31 = true → ((x &&& ~~~m) ||| (m &&& w)).getLsbD 31 = w.getLsbD 31 := by
    intro x m hm
    rw [BitVec.getLsbD_or, BitVec.getLsbD_and, BitVec.getLsbD_and, BitVec.getLsbD_not, hm, Bool.true_and]
    simp
  exact hselected _ (maskOf 31 31 &&& maskOf 31 0) (by decide)

end Sys2Proof.Machine

/-! ## What the fault of a plane shows (R245, R246, R486, R487) -/

namespace Sys2Proof.Machine

/-! ### The isolation of an active plane -/

/-- The registers that an isolation may change. -/
abbrev isolateRegs : List Nat :=
  [glfA 0x048, glfA 0x04C, glfA 0x040, glfA 0x060, glfA 0x064, glfA 0x080, glfA 0x008] ++ queueRegs

/-- Active plane `p` has been isolated out of slot `j` under a cause on a path, and of the registers only those listed have changed. -/
structure PlaneIsolated (xs : List Nat) (s t : State) (p j cause k e : Nat) : Prop where
  state : t.planeState p = 2
  slot : t.slotValid j = false
  captured : s.b (glfA 0x060) 31 = false →
    t.rd (glfA 0x060) = word (2 ^ 31 + cause * 2 ^ 24 + p * 2 ^ 16 + k * 2 ^ 8 + e)
  counted : t.rd (glfA 0x080) = word (satAdd 32 (s.rd (glfA 0x080)).toNat 1)
  lost : ∀ x ∈ t.glf.flights, x.plane ≠ p
  raised : t.raised 15 0x3C01
  step : FabStep xs s t

/-- What comes after an isolation and changes none of the fabric's registers leaves it to be seen. -/
theorem PlaneIsolated.after {xs : List Nat} {s t u : State} {p j cause k e : Nat} (h : PlaneIsolated xs s t p j cause k e)
    (hu : RegStep [] t u) : PlaneIsolated xs s u p j cause k e where
  state := (planeState_of_rd (hu.glf_rd List.not_mem_nil) p).trans h.state
  slot := (slotValid_of_rd (hu.glf_rd List.not_mem_nil) j).trans h.slot
  captured := fun hc => (hu.glf_rd List.not_mem_nil).trans (h.captured hc)
  counted := (hu.glf_rd List.not_mem_nil).trans h.counted
  lost := by rw [hu.glf]; exact h.lost
  raised := hu.raised _ _ h.raised
  step := h.step.step (hu.mono (List.nil_subset _))

/-- A change before the isolation that leaves the fabric's registers alone. -/
theorem PlaneIsolated.before {xs ys zs : List Nat} {s d t : State} {p j cause k e : Nat} (h : PlaneIsolated xs d t p j cause k e)
    (hd : RegStep ys s d) (hrd : ∀ o, d.rd (glfA o) = s.rd (glfA o)) (hx : xs ⊆ zs) (hy : ys ⊆ zs) :
    PlaneIsolated zs s t p j cause k e where
  state := h.state
  slot := h.slot
  captured := fun hc => h.captured (by unfold State.b; rw [hrd]; exact hc)
  counted := by rw [h.counted, hrd]
  lost := h.lost
  raised := h.raised
  step := (hd.fab.mono hy).trans (h.step.mono hx)

/-- The next swap and a request for a repair leave an isolation to be seen. -/
theorem PlaneIsolated.swap {s r : State} {p j cause k e : Nat} (h : PlaneIsolated isolateRegs s r p j cause k e) (region : Nat) :
    PlaneIsolated isolateRegs s (r.nextSwap.request 1 region 0) p j cause k e := by
  have hstep : FabStep (planeRegs ++ queueRegs) r (r.nextSwap.request 1 region 0) :=
    ((nextSwap_step r).mono (by decide)).step ((RegStep.refl _).request 1 region 0 (by decide))
  have hrequest : RegStep queueRegs r.nextSwap (r.nextSwap.request 1 region 0) :=
    (RegStep.refl _).request 1 region 0 (List.Subset.refl _)
  refine ⟨?_, ?_, fun hc => ?_, ?_, ?_, hstep.raised h.raised, h.step.trans (hstep.mono (by decide))⟩
  · rw [planeState_of_rd (hrequest.glf_rd (by decide)), nextSwap_planeState (by rw [h.state]; decide), h.state]
  · rw [slotValid_of_rd (hstep.glf_rd (by decide)), h.slot]
  · rw [hstep.glf_rd (by decide), h.captured hc]
  · rw [hstep.glf_rd (by decide), h.counted]
  · rw [hrequest.glf, nextSwap_flights]
    exact h.lost

/-- The declaration of the fault, the emptied slot and the report. -/
theorem planeOut_isolated {s : State} {p j cause k e : Nat} (hp : p < 5) (hj : j < 4) (hcause : cause < 8) (hk : k < 8) (he : e < 8)
    (first : Bool) :
    PlaneIsolated isolateRegs s ((((s.faultNoted p cause k e).planeOut p j first).bump (glfA 0x080)).report 15 0 0x3C01)
      p j cause k e := by
  have hnoted := faultNoted_step s p cause k e
  have hout := planeOut_step (s.faultNoted p cause k e) p j first
  have hreport : RegStep [glfA 0x080, glfA 0x008] ((s.faultNoted p cause k e).planeOut p j first)
      ((((s.faultNoted p cause k e).planeOut p j first).bump (glfA 0x080)).report 15 0 0x3C01) :=
    ((RegStep.refl _).bump (by decide)).report 0 0x3C01 0 0 0 0 (by decide)
  refine ⟨?_, ?_, fun hc => ?_, ?_, ?_, report_raised _ 15 0 0x3C01, ?_⟩
  · rw [planeState_of_rd (hreport.glf_rd (by decide)), planeOut_planeState _ hp]
  · rw [slotValid_of_rd (hreport.glf_rd (by decide)), planeOut_slotValid _ p hj]
  · rw [hreport.glf_rd (by decide), hout.glf_rd (by decide), faultNoted_captured hc (by omega) hcause hk he]
  · rw [rd_report_ne _ _ _ _ _ _ _ (by decide), rd_bump_same, hout.glf_rd (by decide), hnoted.glf_rd (by decide)]
  · rw [hreport.glf]
    exact planeOut_flights _ p j first
  · exact ((hnoted.mono (by decide)).trans (hout.mono (by decide))).step (hreport.mono (by decide))

theorem planeFault_isolates {s : State} {p j cause k e : Nat} (hp : p < 5) (hj : j < 4) (hcause : cause < 8) (hk : k < 8) (he : e < 8)
    (hst : s.planeState p = 0)
    (hslot : (List.range 4).find? (fun j => s.slotValid j && decide (s.slotPlane j = p)) = some j) :
    PlaneIsolated isolateRegs s (s.planeFault p cause k e) p j cause k e := by
  rw [planeFault_active cause k e hp hst hslot]
  exact (planeOut_isolated hp hj hcause hk he _).swap _

/-! ### The failure of a plane that is spare or under test -/

theorem testsEnded_step (s : State) (p : Nat) : FabStep [] s (s.testsEnded p) := (FabStep.refl s).setGlf _

/-- Plane `p` has failed under a cause on a path. -/
structure PlaneFailed (s t : State) (p cause k e : Nat) : Prop where
  state : t.planeState p = 4
  captured : s.b (glfA 0x060) 31 = false →
    t.rd (glfA 0x060) = word (2 ^ 31 + cause * 2 ^ 24 + p * 2 ^ 16 + k * 2 ^ 8 + e)
  flights : t.glf.flights = s.glf.flights
  tests : ∀ x ∈ t.glf.tests, x.1 ≠ p
  step : FabStep (planeRegs ++ [glfA 0x060, glfA 0x064]) s t

theorem planeFault_fails {s : State} {p cause k e : Nat} (hp : p < 5) (hcause : cause < 8) (hfive : cause ≠ 5) (hk : k < 8)
    (he : e < 8) (hst : s.planeState p = 1 ∨ s.planeState p = 3) :
    PlaneFailed s (s.planeFault p cause k e) p cause k e := by
  rw [planeFault_idle k e hp hfive hst]
  have hnoted := faultNoted_step s p cause k e
  obtain ⟨unacked, hglf⟩ := faultNoted_glf s p cause k e
  have hends : RegStep [glfA 0x064, glfA 0x04C] ((s.faultNoted p cause k e).testsEnded p)
      ((((s.faultNoted p cause k e).testsEnded p).noIsolation (!s.b (glfA 0x060) 31)).setPlaneState p 4) :=
    ((noIsolation_step _ _).mono (by decide)).setPlaneState p 4 (by decide)
  have hstate := setPlaneState_same (((s.faultNoted p cause k e).testsEnded p).noIsolation (!s.b (glfA 0x060) 31)) hp 4
  have hswap := nextSwap_step
    ((((s.faultNoted p cause k e).testsEnded p).noIsolation (!s.b (glfA 0x060) 31)).setPlaneState p 4)
  refine ⟨?_, fun hc => ?_, ?_, ?_, ?_⟩
  · rw [nextSwap_planeState (by rw [hstate]; decide), hstate]
  · rw [hswap.glf_rd (by decide), hends.glf_rd (by decide), (testsEnded_step _ p).glf_rd List.not_mem_nil,
      faultNoted_captured hc (by omega) hcause hk he]
  · rw [nextSwap_flights, hends.glf]
    show (s.faultNoted p cause k e).glf.flights = _
    rw [hglf]
  · refine nextSwap_tests (by rw [hstate]; decide) ?_
    rw [hends.glf]
    exact testsEnded_tests _ p
  · exact (((hnoted.mono (by decide)).trans ((testsEnded_step _ p).mono (by decide))).step (hends.mono (by decide))).trans
      (hswap.mono (by decide))

end Sys2Proof.Machine

/-! ## The declaration of a plane's region (R486, R487, R503) -/

namespace Sys2Proof.Machine

/-- The registers that a declaration may change. -/
abbrev declareRegs : List Nat := (List.range 64).map (fun i => sprA (4 * i)) ++ (List.range 7).map (fun i => bpmA (0x0E0 + 4 * i))

/-- A declaration is captured, unless one is held, counted and reported. -/
def State.declared (s : State) (r cause : Nat) : State :=
  ((if s.b (sprA 0x058) 31 then s.bumpF (sprA 0x058) 15 0
    else (s.wr (sprA 0x058) (word (2 ^ 31 + cause * 2 ^ 24 + r * 2 ^ 16))).wr (sprA 0x05C) (word 0)).bump (sprA 0x060)).report
      sprPage 0 0x2001 r cause

/-- Whether a repair of the region is running. -/
def State.repairRuns (s : State) (r : Nat) : Bool :=
  s.b (sprA 0x040) 8 && (match s.spr.queue with | q :: _ => decide (q.region = r) | [] => false)

/-- A repair of the region that is running stops. -/
def State.repairStopped (s : State) (r : Nat) : State := if s.repairRuns r then (s.refuseRepair 3).popRepair else s

/-- The region of a plane takes its state, and a test of the plane is asked for. -/
theorem declareRec_plane (s : State) {p : Nat} (hp : p < 5) (cause : Nat) :
    s.declareRec (15 + p) cause 0 0 =
      ((((s.declared (15 + p) cause).repairStopped (15 + p)).setRegion (15 + p)
        (((s.declared (15 + p) cause).repairStopped (15 + p)).faultState (15 + p))).request 1 (15 + p) 0).refreshDegrade := by
  have hcritical : ¬(15 + p = 30 ∨ 15 + p = 35 ∨ 15 + p = 36) := by omega
  unfold State.declareRec State.requestFor
  dsimp only
  rw [if_neg hcritical, if_neg hcritical, if_pos (by omega)]
  rfl

theorem declared_step (s : State) (r cause : Nat) :
    RegStep [sprA 0x058, sprA 0x05C, sprA 0x060, sprA 0x008] s (s.declared r cause) := by
  unfold State.declared
  refine RegStep.report (RegStep.bump ?_ (by decide)) 0 0x2001 r cause 0 0 (by decide)
  split
  · exact (RegStep.refl s).setF _ _ _ (by decide)
  · exact ((RegStep.refl s).wr _ (by decide)).wr _ (by decide)

theorem declared_captured {s : State} (h : s.b (sprA 0x058) 31 = false) (r cause : Nat) :
    (s.declared r cause).rd (sprA 0x058) = word (2 ^ 31 + cause * 2 ^ 24 + r * 2 ^ 16) := by
  unfold State.declared
  rw [rd_report_ne _ _ _ _ _ _ _ (by decide), rd_bump_ne _ (by decide), if_neg (by rw [h]; decide), rd_wr_ne _ _ (by decide),
    rd_wr_same]

theorem declared_raised (s : State) (r cause : Nat) : (s.declared r cause).raised 8 0x2001 := by
  obtain ⟨e, hp, hc, hw⟩ := report_waiting ((if s.b (sprA 0x058) 31 then s.bumpF (sprA 0x058) 15 0
    else (s.wr (sprA 0x058) (word (2 ^ 31 + cause * 2 ^ 24 + r * 2 ^ 16))).wr (sprA 0x05C) (word 0)).bump (sprA 0x060))
    sprPage 0 0x2001 r cause 0 0
  exact ⟨e, by unfold State.declared; rw [hw]; exact List.mem_append_right _ List.mem_cons_self, hp, hc⟩

theorem repairStopped_step (s : State) (r : Nat) : RegStep queueRegs s (s.repairStopped r) := by
  unfold State.repairStopped
  split
  · exact ((RegStep.refl s).refuseRepair 3 (List.Subset.refl _)).popRepair (List.Subset.refl _)
  · exact RegStep.refl s

/-- The register that holds the state of a plane's region. -/
theorem planeRegionReg {p : Nat} (hp : p < 5) : (15 + p) / 8 = 1 ∨ (15 + p) / 8 = 2 := by omega

theorem region_setRegion_same (s : State) (r v : Nat) : (s.setRegion r v).region r = v % 16 := by
  show fld ((s.setF _ _ _ _).rd _) _ _ = _
  rw [rd_setF_same]
  exact (fld_setFld_same _ _ _ _ (by omega) (by omega)).trans
    (congrArg (fun n => v % 2 ^ n) (show 4 * (r % 8) + 3 + 1 - 4 * (r % 8) = 4 by omega))

theorem region_of_rd {s t : State} {r : Nat} (h : t.rd (sprA (0x080 + 4 * (r / 8))) = s.rd (sprA (0x080 + 4 * (r / 8)))) :
    t.region r = s.region r := by
  unfold State.region State.f
  rw [h]

/-- A plane's region is covered while another plane is spare. -/
theorem faultState_plane (s : State) {p : Nat} (hp : p < 5) :
    s.faultState (15 + p) = if (List.range 5).any (fun x => decide (x ≠ p ∧ s.planeState x = 1)) then 1 else 2 := by
  unfold State.faultState
  rw [if_neg (by omega), if_pos (by omega), Nat.add_sub_cancel_left]

/-- The region of plane `p` has been declared faulty under cause 4. -/
structure PlaneDeclared (s t : State) (p : Nat) : Prop where
  step : RegStep declareRegs s t
  region : t.region (15 + p) = if (List.range 5).any (fun x => decide (x ≠ p ∧ s.planeState x = 1)) then 1 else 2
  captured : s.b (sprA 0x058) 31 = false → (t.rd (sprA 0x058)).toNat / 2 ^ 16 = 2 ^ 15 + 4 * 2 ^ 8 + 15 + p
  raised : t.raised 8 0x2001

/-- A declaration leaves the fabric's registers alone. -/
theorem PlaneDeclared.glf_rd {s t : State} {p : Nat} (h : PlaneDeclared s t p) (o : Nat) : t.rd (glfA o) = s.rd (glfA o) := by
  refine h.step.glf_rd (fun hmem => ?_)
  simp only [List.mem_append, List.mem_map, List.mem_range] at hmem
  obtain ⟨i, hi, h⟩ | ⟨i, hi, h⟩ := hmem
  · unfold sprA glfA at h
    omega
  · unfold bpmA glfA at h
    omega

theorem declareRec_declares (s : State) {p : Nat} (hp : p < 5) : PlaneDeclared s (s.declareRec (15 + p) 4 0 0) p := by
  rw [declareRec_plane s hp]
  have hdeclared := declared_step s (15 + p) 4
  have hcaptured := fun hc => declared_captured (s := s) hc (15 + p) 4
  have hraised := declared_raised s (15 + p) 4
  generalize s.declared (15 + p) 4 = d at hdeclared hcaptured hraised ⊢
  have hstopped := repairStopped_step d (15 + p)
  generalize d.repairStopped (15 + p) = q at hstopped ⊢
  have hset : RegStep [sprA (0x080 + 4 * ((15 + p) / 8))] q (q.setRegion (15 + p) (q.faultState (15 + p))) :=
    (RegStep.refl q).setF _ _ _ List.mem_cons_self
  have hregion := region_setRegion_same q (15 + p) (q.faultState (15 + p))
  rw [faultState_plane q hp] at hset hregion ⊢
  generalize q.setRegion (15 + p) _ = g at hset hregion ⊢
  have hrest : RegStep reserveRegs g (g.request 1 (15 + p) 0).refreshDegrade :=
    ((RegStep.refl g).request 1 (15 + p) 0 (by decide)).refreshDegrade (List.Subset.refl _)
  generalize (g.request 1 (15 + p) 0).refreshDegrade = t at hrest ⊢
  have hplane : ∀ x, q.planeState x = s.planeState x :=
    planeState_of_rd ((hstopped.glf_rd (by decide)).trans (hdeclared.glf_rd (by decide)))
  refine ⟨?_, ?_, fun hc => ?_, ?_⟩
  · refine (((hdeclared.mono (by decide)).trans (hstopped.mono (by decide))).trans (hset.mono ?_)).trans (hrest.mono (by decide))
    obtain h | h := planeRegionReg hp <;> rw [h] <;> decide
  · rw [region_of_rd, hregion]
    · simp only [hplane]
      split <;> rfl
    · refine hrest.spr_rd (by omega) ?_
      obtain h | h := planeRegionReg hp <;> rw [h] <;> decide
  · rw [hrest.spr_rd (by decide) (by decide), hset.spr_rd (by decide) ?_, hstopped.spr_rd (by decide) (by decide), hcaptured hc,
      word, BitVec.toNat_ofNat]
    · omega
    · obtain h | h := planeRegionReg hp <;> rw [h] <;> decide
  · exact hrest.raised _ _ (hset.raised _ _ (hstopped.raised _ _ hraised))

/-! ### A stall on a path of a plane -/

theorem planeStall_in_use {s : State} {p : Nat} (k e : Nat) (hst : ¬(s.planeState p = 2 ∨ s.planeState p = 4))
    (hregion : s.regionExists (15 + p) = true) : s.planeStall p k e = (s.declareRec (15 + p) 4 0 0).planeFault p 2 k e := by
  unfold State.planeStall State.declareOk
  dsimp only
  rw [if_neg hst, hregion]
  rfl

theorem planeStall_out {s : State} {p : Nat} (k e : Nat) (hst : s.planeState p = 2 ∨ s.planeState p = 4) : s.planeStall p k e = s :=
  if_pos hst

end Sys2Proof.Machine

namespace Sys2Proof

open Sys2Proof.Machine

/-- Settles O31. An isolation is the same whether commanded or called for by a stall (`PlaneIsolated`); before a stall's isolation the
plane's region is declared, which leaves the fabric's registers alone. -/
theorem planesFailAndAreSwapped : Obligations.PlanesFailAndAreSwapped := by
  unfold Obligations.PlanesFailAndAreSwapped
  refine ⟨?isolate, ?stall, ?idle, ?out⟩
  case isolate =>
    intro s p j haccepts hslot
    have hrd := rd_wr_rd s (glfA 0x050)
    have hiso := ((planeFault_isolates (cause := 4) (k := 7) (e := 7) p.isLt j.isLt (by decide) (by decide) (by decide)
      ((planeState_of_rd (hrd _) _).trans (planeState_of_accepts_isolate haccepts))
      (by simpa only [slotValid_of_rd (hrd _), slotPlane_of_rd (hrd _)] using hslot)).before (.wr_rd s _) (fun o => hrd _)
      (List.Subset.refl _) (List.nil_subset _)).after ((RegStep.refl _).watch 0 0 (glfA 0x050))
    rw [← planeCmd_accepted (op := 1) (fun s => s.planeFault p.val 4 7 7) haccepts] at hiso
    obtain ⟨u, hu, hafter, -⟩ := hiso.step.answered
    have hiso := hiso.after hafter
    exact ⟨u, hu, hiso.state, hiso.slot, hiso.captured, hiso.counted, hiso.raised, hiso.lost, hiso.step.regsBut,
      hiso.step.winKept, hiso.step.memKept⟩
  case stall =>
    intro s p k e j hst hslot hregion
    have hdecl := declareRec_declares s p.isLt
    have heff := planeStall_in_use k.val e.val (by omega) hregion
    generalize s.declareRec (15 + p.val) 4 0 0 = d at hdecl heff
    have hslot' : (List.range 4).find? (fun j => d.slotValid j && decide (d.slotPlane j = p.val)) = some j.val := by
      simpa only [slotValid_of_rd (hdecl.glf_rd _), slotPlane_of_rd (hdecl.glf_rd _)] using hslot
    have hiso := planeFault_isolates (cause := 2) (k := k.val) (e := e.val) p.isLt j.isLt (by decide) (by omega) (by omega)
      ((planeState_of_rd (hdecl.glf_rd _) _).trans hst) hslot'
    have hspr : ∀ o, o < 0x1000 → sprA o ∉ isolateRegs → (d.planeFault p.val 2 k.val e.val).rd (sprA o) = d.rd (sprA o) :=
      fun o ho hx => hiso.step.spr_rd ho hx
    have hraised := hiso.step.raised hdecl.raised
    have hiso := hiso.before
      (zs := [glfA 0x048, glfA 0x04C, glfA 0x040, glfA 0x060, glfA 0x064, glfA 0x080, glfA 0x008] ++ declareRegs) hdecl.step
      hdecl.glf_rd (by decide) (by decide)
    rw [← heff] at hiso hspr hraised
    obtain ⟨u, hu, hafter, -⟩ := hiso.step.answered
    have hiso := hiso.after hafter
    refine ⟨u, hu, hiso.state, hiso.slot, ?_, hiso.captured, fun hc => ?_, hiso.counted, hiso.lost, hiso.raised,
      hafter.raised _ _ hraised, ?_, hiso.step.winKept, hiso.step.memKept⟩
    · rw [region_of_rd (hafter.spr_rd (by omega) List.not_mem_nil), region_of_rd (hspr _ (by omega) ?_), hdecl.region]
      obtain h | h := planeRegionReg p.isLt <;> rw [h] <;> decide
    · rw [hafter.spr_rd (by decide) List.not_mem_nil, hspr _ (by decide) (by decide), hdecl.captured hc]
    · rw [List.append_assoc]
      exact hiso.step.regsBut
  case idle =>
    intro s p k e hst hregion
    have hdecl := declareRec_declares s p.isLt
    have heff := planeStall_in_use k.val e.val (by omega) hregion
    generalize s.declareRec (15 + p.val) 4 0 0 = d at hdecl heff
    have hfail := planeFault_fails (s := d) (cause := 2) (k := k.val) (e := e.val) p.isLt (by decide) (by decide) (by omega)
      (by omega) (by rwa [planeState_of_rd (hdecl.glf_rd _)])
    rw [← heff] at hfail
    have hstep : FabStep (declareRegs ++ (planeRegs ++ [glfA 0x060, glfA 0x064])) s (s.planeStall p.val k.val e.val) :=
      (hdecl.step.mono (List.subset_append_left _ _)).fab.trans (hfail.step.mono (List.subset_append_right _ _))
    obtain ⟨u, hu, hafter, hwhole⟩ := hstep.answered
    refine ⟨u, hu, ?_, fun hc => ?_, fun hc => ?_, ?_, ?_, ?_, hwhole.winKept, hwhole.memKept⟩
    · rw [planeState_of_rd (hafter.glf_rd List.not_mem_nil), hfail.state]
    · rw [hafter.glf_rd List.not_mem_nil, hfail.captured (by unfold State.b; rw [hdecl.glf_rd]; exact hc)]
    · rw [hafter.spr_rd (by decide) List.not_mem_nil, hfail.step.spr_rd (by decide) (by decide), hdecl.captured hc]
    · rw [hafter.glf, hfail.flights, hdecl.step.glf]
    · rw [hafter.glf]
      exact hfail.tests
    · exact hafter.raised _ _ (hfail.step.raised hdecl.raised)
  case out =>
    intro s p k e hst
    obtain ⟨u, hu, hafter, -⟩ := (FabStep.refl (xs := []) s).answered
    have heff : exec (.planeStallDetect p k e) s = answer s s :=
      congrArg (answer s) (planeStall_out k.val e.val hst)
    exact ⟨u, heff.trans hu, hafter.glf, hafter.regs, hafter.flowKept, hafter.fab.winKept, hafter.fab.memKept⟩

end Sys2Proof

/-! ## Cells sent, acknowledged and resent (R232 to R248) -/

namespace Sys2Proof.Machine

@[simp] theorem led_glf (s : State) (page code inst term n : Nat) : (s.led page code inst term n).glf = s.glf :=
  (led_quiet _ _ _ _ _ _).glf

theorem led_rd (s : State) (page code inst term n a : Nat) : (s.led page code inst term n).rd a = s.rd a := by
  unfold State.led State.ledZ
  split <;> rfl

namespace FabStep

variable {xs : List Nat} {s t : State}

theorem fly (h : FabStep xs s t) (c : SentCell) (resend : Bool) : FabStep xs s (t.fly c resend) := h.setGlf _

theorem sprayNext (h : FabStep xs s t) (k q j : Nat) (boundary : Bool) : FabStep xs s (t.sprayNext k q j boundary) := h.setGlf _

theorem unqueue (h : FabStep xs s t) (fid : Nat) : FabStep xs s (t.unqueue fid) := h.setGlf _

theorem setFrame (h : FabStep xs s t) (f : Frame) : FabStep xs s (t.setFrame f) := h.setFrames _

theorem setUnacked (h : FabStep xs s t) (k n : Nat) (ha : glfA (0x068 + 4 * k) ∈ xs) : FabStep xs s (t.setUnacked k n) :=
  h.step ((RegStep.refl t).setF 29 16 n ha)

end FabStep

/-! ### What may be sent -/

/-- While no group is out of the pacer's span, no cell is counted as held back. -/
theorem countHeld_of_pacerOk {s : State} {k : Nat} (h : ∀ e < 5, s.pacerOk k e = true) (q : Nat) : s.countHeld k q = s := by
  have hnone : ∀ f : Frame, (s.liveGroups f).any (fun e => !s.pacerOk k e) = false := fun f => by
    rw [List.any_eq_false]
    intro e he
    have hmem : e ∈ maskGroups f.groups := (List.mem_filter.mp he).1
    have hlt : e < 5 := List.mem_range.mp (List.mem_filter.mp hmem).1
    simp [h e hlt]
  unfold State.countHeld
  split
  · rfl
  · next f _ => rw [if_neg (by simp [hnone f])]

/-- The round robin of staging k stands at queue `q`. -/
def State.turnTo (s : State) (k q : Nat) : State := { s with glf := { s.glf with rr := s.glf.rr.put 0 k q } }

/-- With no resend in the way, the queue whose turn it is sends the next new cell of its head. -/
theorem cellSend_new {s : State} {k q j : Nat} {f : Frame} (hdown : s.regionDown (5 + k) = false)
    (hpacer : ∀ e < 5, s.pacerOk k e = true)
    (hturn : ((List.range 6).map (fun i => (s.glf.rr.at 0 k + 1 + i) % 6)).find? (s.sendReady k) = some q)
    (hresend : s.resendOf k q = none) (hhead : s.sendHead k q = some f)
    (hslot : s.spraySlot k q (decide (f.sentN = 0)) = some j) (hlive : (s.liveGroups f).isEmpty = false) :
    s.cellSend k = (s.turnTo k q).sendCell k q j f := by
  have hheld : forEach (List.range 6) s (fun s q => s.countHeld k q) = s :=
    forEach_keeps (fun t => t = s) _ _ _ rfl (fun t q _ ht => by rw [ht, countHeld_of_pacerOk hpacer])
  have hresend' : (s.turnTo k q).resendOf k q = none := hresend
  have hhead' : (s.turnTo k q).sendHead k q = some f := hhead
  have hslot' : (s.turnTo k q).spraySlot k q (decide (f.sentN = 0)) = some j := hslot
  have hlive' : ((s.turnTo k q).liveGroups f).isEmpty = false := hlive
  unfold State.turnTo at hresend' hhead' hslot' hlive' ⊢
  unfold State.cellSend
  rw [if_neg (by rw [hdown]; decide)]
  dsimp only
  rw [hheld, hturn]
  dsimp only
  rw [hresend']
  dsimp only
  rw [hhead']
  dsimp only
  rw [hslot']
  dsimp only
  unfold State.sendNew
  rw [if_neg (by rw [hlive']; decide)]

/-! ### A new cell leaves -/

/-- A cell toward group `e` takes a credit of a class and the path's next number. -/
def State.numbered (s : State) (k e j : Nat) (cls : Bool) : State :=
  let t := s.takeCredit k e j (s.seqNext k e) cls
  let t := { t with glf := { t.glf with nextSeq := t.glf.nextSeq.put 0 (k * 5 + e) ((s.seqNext k e + 1) % 2 ^ 20) } }
  t.led (polPage k) 5 (k * 5 + e) 0

/-- The next new cell of a frame, for slot `j`, with the numbers it takes. -/
def State.newCell (s : State) (k q j : Nat) (f : Frame) (wait : List (Nat × Nat)) : SentCell :=
  { k, fid := f.id, idx := f.sentN, first := decide (f.sentN = 0), last := f.cellLast, q, slot := j, plane := s.slotPlane j, wait }

/-- The frame once this cell has left queue `q`. -/
def Frame.sentOne (f : Frame) (q : Nat) : Frame :=
  { f with sentN := f.sentN + 1, place := if f.cellLast then .sent else .sending q,
           lenKnown := if decide (f.sentN = 0) then f.complete else f.lenKnown }

/-- The numbered cell leaves queue `q` of staging k on slot `j`. -/
def State.launched (s : State) (k q j : Nat) (f : Frame) (wait : List (Nat × Nat)) : State :=
  let c := s.newCell k q j f wait
  let t := { s with glf := { s.glf with unacked := s.glf.unacked ++ [c],
                                        held := s.glf.held.filter (fun x => decide (x ≠ (f.id, f.sentN))) } }
  let t := (((t.fly c false).setUnacked k (t.unackedN k + 1)).sprayNext k q j (decide (f.sentN = 0))).setFrame (f.sentOne q)
  (if f.cellLast then t.unqueue f.id else t).pmc 15 4

theorem numbered_glf (s : State) (k e j : Nat) (cls : Bool) :
    (s.numbered k e j cls).glf =
      { s.glf with free := s.glf.free.upd 0 (credKey k e j cls) (fun n => n - 1),
                   credits := s.glf.credits ++ [⟨k, e, j, s.seqNext k e, cls⟩],
                   nextSeq := s.glf.nextSeq.put 0 (k * 5 + e) ((s.seqNext k e + 1) % 2 ^ 20) } := by
  unfold State.numbered State.takeCredit
  simp only [led_glf]

theorem numbered_step (s : State) (k e j : Nat) (cls : Bool) : FabStep [] s (s.numbered k e j cls) :=
  ((((((FabStep.refl s).setGlf _).setGlf _).step ((RegStep.refl _).led _ _ _ _ _)).setGlf _).step ((RegStep.refl _).led _ _ _ _ _))

theorem numbered_rd (s : State) (k e j : Nat) (cls : Bool) (a : Nat) : (s.numbered k e j cls).rd a = s.rd a := by
  unfold State.numbered
  rw [led_rd]
  exact led_rd _ _ _ _ _ _ _

theorem sendCell_unicast {s : State} {k q j e : Nat} {f : Frame} {cls : Bool} (hall : maskGroups f.groups = [e])
    (hlive : s.liveGroups f = [e]) (hcredit : s.creditFor k e j f.prot = some cls) :
    s.sendCell k q j f = (s.numbered k e j cls).launched k q j f [(e, s.seqNext k e)] := by
  have hlost : [e].filter (fun e' => !([e].contains e')) = [] := by simp
  have hone : ¬(decide (f.sentN = 0) = true ∧ 1 < [e].length) := by simp
  unfold State.sendCell
  simp only [hall, hlive, hlost, forEach, List.map_cons, List.map_nil, List.foldl_cons, List.foldl_nil, hcredit, if_neg hone,
    ite_self]
  rfl

theorem launched_glf (s : State) (k q j : Nat) (f : Frame) (wait : List (Nat × Nat)) :
    ∃ queues spray resetPtr held, (s.launched k q j f wait).glf =
      { s.glf with queues := queues, spray := spray, resetPtr := resetPtr, held := held,
                   unacked := s.glf.unacked ++ [s.newCell k q j f wait],
                   flights := s.glf.flights ++ wait.map (fun w =>
                     { k, e := w.1, plane := s.slotPlane j, seq := w.2, fid := f.id, idx := f.sentN, first := decide (f.sentN = 0),
                       last := f.cellLast }) } := by
  unfold State.launched
  dsimp only
  rw [(pmc_quiet _ _ _ _).glf]
  split <;> exact ⟨_, _, _, _, rfl⟩

theorem launched_step (s : State) (k q j : Nat) (f : Frame) (wait : List (Nat × Nat)) :
    FabStep [glfA (0x068 + 4 * k)] s (s.launched k q j f wait) := by
  unfold State.launched
  dsimp only
  refine FabStep.step ?_ ((RegStep.refl _).pmc _ _ _)
  split
  · exact ((((((FabStep.refl s).setGlf _).fly _ _).setUnacked _ _ List.mem_cons_self).sprayNext _ _ _ _).setFrame _).unqueue _
  · exact (((((FabStep.refl s).setGlf _).fly _ _).setUnacked _ _ List.mem_cons_self).sprayNext _ _ _ _).setFrame _

theorem launched_frame (s : State) (k q j : Nat) (f : Frame) (wait : List (Nat × Nat)) :
    (s.launched k q j f wait).frame f.id = f.sentOne q := by
  unfold State.launched
  dsimp only
  rw [(pmc_quiet _ _ _ _).frame]
  split <;> exact frame_setFrame_same _ (f.sentOne q)

theorem launched_rd (s : State) (k q j : Nat) (f : Frame) (wait : List (Nat × Nat)) {a : Nat} (ha : 0xA000 ≤ a) :
    (s.launched k q j f wait).rd a = (s.setUnacked k (s.unackedN k + 1)).rd a := by
  unfold State.launched
  dsimp only
  rw [pmc_rd _ _ _ _ ha]
  split <;> exact rd_congr rfl a

theorem setUnacked_unackedN (s : State) (k n : Nat) : (s.setUnacked k n).unackedN k = n % 2 ^ 14 := by
  show fld ((s.setF (glfA (0x068 + 4 * k)) 29 16 n).rd _) 29 16 = _
  rw [rd_setF_same, fld_setFld_same _ _ _ _ (by decide) (by decide)]

theorem launched_unackedN (s : State) (k q j : Nat) (f : Frame) (wait : List (Nat × Nat)) :
    (s.launched k q j f wait).unackedN k = (s.unackedN k + 1) % 2 ^ 14 := by
  rw [← setUnacked_unackedN]
  unfold State.unackedN State.f
  rw [launched_rd _ _ _ _ _ _ (by unfold glfA; omega)]
  rfl

end Sys2Proof.Machine
/-! ## Acknowledgements, resends and the enable of the fabric (R237, R239, R248, R261) -/

namespace Sys2Proof.Machine

theorem fld_lt (w : Word) (hi lo : Nat) : fld w hi lo < 2 ^ (hi + 1 - lo) := Nat.mod_lt _ (Nat.two_pow_pos _)

/-! ### Acknowledgements -/

theorem gcFrame_eq (s : State) (fid : Nat) : ∃ frames, s.gcFrame fid = { s with frames := frames } := by
  unfold State.gcFrame
  split
  · exact ⟨_, rfl⟩
  · exact ⟨s.frames, rfl⟩

theorem gcFrame_rd (s : State) (fid a : Nat) : (s.gcFrame fid).rd a = s.rd a := by
  obtain ⟨frames, h⟩ := gcFrame_eq s fid
  rw [h]
  rfl

theorem releaseCell_step (s : State) (c : SentCell) : FabStep [glfA (0x068 + 4 * c.k)] s (s.releaseCell c) := by
  unfold State.releaseCell State.stageSub
  obtain ⟨frames, hgc⟩ := gcFrame_eq _ c.fid
  rw [hgc]
  exact ((((((FabStep.refl s).setGlf _).setFrame _).step ((RegStep.refl _).setF 13 0 _ List.mem_cons_self)).step
    ((RegStep.refl _).led 15 4 c.k 1 1)).setUnacked _ _ List.mem_cons_self).setFrames _

theorem releaseCell_glf (s : State) (c : SentCell) :
    (s.releaseCell c).glf = { s.glf with unacked := s.glf.unacked.filter (fun x => decide (x ≠ c)) } := by
  unfold State.releaseCell State.stageSub
  obtain ⟨frames, hgc⟩ := gcFrame_eq _ c.fid
  rw [hgc]
  exact led_glf _ _ _ _ _ _

/-- GLF_STAGE_OCC of the cell's staging shows a cell less held and a cell less unacknowledged. -/
theorem releaseCell_occ (s : State) (c : SentCell) :
    (s.releaseCell c).stageHeld c.k = s.stageHeld c.k - 1 ∧ (s.releaseCell c).unackedN c.k = s.unackedN c.k - 1 := by
  have hrd : (s.releaseCell c).rd (glfA (0x068 + 4 * c.k)) =
      setFld (setFld (s.rd (glfA (0x068 + 4 * c.k))) 13 0 (s.stageHeld c.k - 1)) 29 16 (s.unackedN c.k - 1) := by
    unfold State.releaseCell State.stageSub
    rw [gcFrame_rd, State.setUnacked, rd_setF_same, led_rd, rd_setF_same]
    rfl
  have hheld : s.stageHeld c.k < 2 ^ 14 := fld_lt _ 13 0
  have hunacked : s.unackedN c.k < 2 ^ 14 := fld_lt _ 29 16
  refine ⟨?_, ?_⟩
  · rw [State.stageHeld, State.f, hrd, fld_setFld_ne _ _ _ _ _ _ (by decide) (by decide) (by decide),
      fld_setFld_same _ _ _ _ (by decide) (by decide), Nat.mod_eq_of_lt (by omega)]
  · rw [State.unackedN, State.f, hrd, fld_setFld_same _ _ _ _ (by decide) (by decide), Nat.mod_eq_of_lt (by omega)]

/-- The acknowledgements that are left once the oldest one for a staging is taken. -/
def State.ackTaken (s : State) (rest : List (Nat × Nat × Nat)) : State := { s with glf := { s.glf with acks := rest } }

theorem takeAck_some {s : State} {k : Nat} {a : Nat × Nat × Nat} {rest : List (Nat × Nat × Nat)}
    (h : takeFirst (fun a => decide (a.1 = k)) s.glf.acks = some (a, rest)) :
    s.takeAck k = (s.ackTaken rest).ackCell a.1 a.2.1 a.2.2 := by
  unfold State.takeAck
  rw [h]
  rfl

/-- The oldest unacknowledged cell has been acknowledged by all its groups with the acknowledgement taken. -/
def State.lastAcked (s : State) (rest : List (Nat × Nat × Nat)) (c : SentCell) (cs : List SentCell) : State :=
  { s.ackTaken rest with glf := { (s.ackTaken rest).glf with unacked := { c with wait := [] } :: cs } }

theorem stageHeld_of_rd {s t : State} {k : Nat} (h : t.rd (glfA (0x068 + 4 * k)) = s.rd (glfA (0x068 + 4 * k))) :
    t.stageHeld k = s.stageHeld k := by
  unfold State.stageHeld State.f
  rw [h]

theorem unackedN_of_rd {s t : State} {k : Nat} (h : t.rd (glfA (0x068 + 4 * k)) = s.rd (glfA (0x068 + 4 * k))) :
    t.unackedN k = s.unackedN k := by
  unfold State.unackedN State.f
  rw [h]

theorem ackCell_unknown {s : State} {k e seq : Nat}
    (h : s.glf.unacked.find? (fun c => decide (c.k = k) && c.wait.contains (e, seq)) = none) : s.ackCell k e seq = s := by
  unfold State.ackCell
  rw [h]

/-- The oldest unacknowledged cell, when it is of staging k and waits for this number alone, is the one that a message names. -/
theorem find_waits {c : SentCell} {cs : List SentCell} {k e seq : Nat} (hk : c.k = k) (hwait : c.wait = [(e, seq)]) :
    (c :: cs).find? (fun c => decide (c.k = k) && c.wait.contains (e, seq)) = some c :=
  List.find?_cons_of_pos (by simp [hk, hwait])

theorem replFirst_head {α : Type} {p : α → Bool} (f : α → α) {x : α} (xs : List α) (h : p x = true) :
    replFirst p f (x :: xs) = f x :: xs := if_pos h

/-- The last acknowledgement that a cell waits for releases it. -/
theorem ackCell_last {s : State} {k e seq : Nat} {c : SentCell} {cs : List SentCell} (hunacked : s.glf.unacked = c :: cs)
    (hk : c.k = k) (hwait : c.wait = [(e, seq)]) :
    s.ackCell k e seq =
      ({ s with glf := { s.glf with unacked := { c with wait := [] } :: cs } } : State).releaseCell { c with wait := [] } := by
  have hnone : [(e, seq)].filter (fun w => decide (w ≠ (e, seq))) = [] := by simp
  unfold State.ackCell
  rw [hunacked, find_waits hk hwait]
  dsimp only
  rw [hwait, hnone, replFirst_head _ _ (by simp)]
  rfl

/-! ### Resends after a timeout -/

/-- The cell as it is sent again on slot `j`. -/
def State.resentOn (s : State) (c : SentCell) (j : Nat) : SentCell := { c with slot := j, plane := s.slotPlane j, resends := 1 }

/-- The oldest unacknowledged cell is sent again on slot `j`. -/
def State.resent (s : State) (c : SentCell) (cs : List SentCell) (j : Nat) : State :=
  ({ s with glf := { s.glf with unacked := s.resentOn c j :: cs } } : State).fly (s.resentOn c j) true

theorem ackTimeout_first {s : State} {k e seq j : Nat} {c : SentCell} {cs : List SentCell} (hunacked : s.glf.unacked = c :: cs)
    (hk : c.k = k) (hwait : c.wait = [(e, seq)]) (hfirst : c.resends = 0) (hslot : s.slotFrom (c.slot + 1) = some j) :
    s.ackTimeout k e seq = (s.resent c cs j).planeErr c.plane k e := by
  unfold State.ackTimeout
  rw [hunacked, find_waits hk hwait]
  dsimp only
  rw [if_pos hfirst, hslot]
  dsimp only
  rw [hunacked, replFirst_head _ _ (by simp)]
  rfl

/-- An error of a plane is counted and its time noted. -/
def State.erred (s : State) (p : Nat) : State :=
  { s.bump (glfA (0x0A0 + 4 * p)) with
    glf := { s.glf with errs := s.glf.errs.filter (fun x => decide (s.clk < x.2 + usec 100)) ++ [(p, s.clk)] } }

/-- The error of a plane that is not the last of the threshold of R245 cause 1. -/
theorem planeErr_below {s : State} {p : Nat} (k e : Nat)
    (h : (s.glf.errs.filter (fun x => decide (s.clk < x.2 + usec 100) && decide (x.1 = p))).length + 1 < s.f (glfA 0x05C) 23 16) :
    s.planeErr p k e = s.erred p := by
  have hthr : (s.bump (glfA (0x0A0 + 4 * p))).f (glfA 0x05C) 23 16 = s.f (glfA 0x05C) 23 16 := by
    unfold State.f
    rw [rd_bump_ne _ (by unfold glfA; omega)]
  have hcount : ((s.glf.errs.filter (fun x => decide (s.clk < x.2 + usec 100)) ++ [(p, s.clk)]).filter
      (fun x => decide (x.1 = p))).length =
        (s.glf.errs.filter (fun x => decide (s.clk < x.2 + usec 100) && decide (x.1 = p))).length + 1 := by
    rw [List.filter_append, List.filter_filter, List.length_append]
    simp [Bool.and_comm]
  unfold State.planeErr
  refine if_neg (Nat.not_le.mpr ?_)
  show _ < (s.bump (glfA (0x0A0 + 4 * p))).f (glfA 0x05C) 23 16
  rw [hthr]
  exact hcount ▸ h

/-! ### The credit accounts -/

/-- One account and class takes the credits of its class. -/
def State.fillOne (s : State) (gen prot i : Nat) : State :=
  { s with glf := { s.glf with free := s.glf.free.put 0 i (if i % 2 = 0 then gen else prot) } }

theorem fillOne_range (s : State) (gen prot n : Nat) :
    ∃ free, forEach (List.range n) s (fun s i => s.fillOne gen prot i) = { s with glf := { s.glf with free := free } } ∧
      ∀ i < n, free.at 0 i = if i % 2 = 0 then gen else prot := by
  induction n with
  | zero => exact ⟨_, rfl, fun _ h => absurd h (Nat.not_lt_zero _)⟩
  | succ n ih =>
    obtain ⟨free, hfill, hfree⟩ := ih
    refine ⟨free.put 0 n (if n % 2 = 0 then gen else prot), ?_, fun i hi => ?_⟩
    · unfold forEach at hfill ⊢
      rw [List.range_succ, List.foldl_append, hfill]
      rfl
    · by_cases hn : i = n
      · rw [hn, SMap.at_put_same]
      · rw [SMap.at_put_ne _ _ _ hn, hfree i (by omega)]

/-- Every account is filled with the credits configured for its class. -/
theorem fillCredits_eq (s : State) :
    ∃ free, s.fillCredits = { s with glf := { s.glf with free := free } } ∧
      ∀ i < 200, free.at 0 i = if i % 2 = 0 then s.f (glfA 0x058) 7 0 else s.f (glfA 0x058) 22 16 :=
  fillOne_range s (s.f (glfA 0x058) 7 0) (s.f (glfA 0x058) 22 16) 200

/-- The write of GLF_CTL with en at 1 has been stored. -/
def State.ctlEnabled (s : State) : State :=
  s.wr (glfA 0x044) (writeWord glfCtlRow (s.rd (glfA 0x044)) (glfReq 0x044 (setBit (s.rd (glfA 0x044)) 31 true)))

theorem ctlEnabled_en (s : State) : bit (s.ctlEnabled.rd (glfA 0x044)) 31 = true := by
  unfold State.ctlEnabled
  rw [rd_wr_same, writeWord_glfCtl_en, bit_setBit_same _ _ _ (by decide)]

/-- Enabling the fabric by a write that is accepted stores GLF_CTL and fills the accounts; then watchpoints see it. -/
theorem fabricEnable_rise {s : State} (hoff : s.b (glfA 0x044) 31 = false)
    (h : s.accepts (glfA 0x044) (setBit (s.rd (glfA 0x044)) 31 true)) :
    s.fabricEnable true = s.ctlEnabled.fillCredits.watch 0 0 (glfA 0x044) := by
  unfold State.fabricEnable
  rw [hostWriteWith_glf _ (by decide) h, hoff, State.storeReg, glfReq_desc regAt_glfCtl, glfReq_addr]
  rfl

end Sys2Proof.Machine

namespace Sys2Proof

open Sys2Proof.Machine

/-- Settles O30, one equation for the effect of each command: a new cell of a unicast frame is numbered and launched, an
acknowledgement releases the cell it was the last for or none, a timeout resends its cell, and enabling fills the accounts. -/
theorem cellsCrossTheFabric : Obligations.CellsCrossTheFabric := by
  unfold Obligations.CellsCrossTheFabric
  refine ⟨?send, ?ack, ?ackUnknown, ?resend, ?enable⟩
  case send =>
    intro s k q j e f cls hdown hpacer hturn hresend hhead hframe hslot hall hlive hcredit
    have heff : s.cellSend k.val = ((s.turnTo k.val q).numbered k.val e j cls).launched k.val q j f [(e, s.seqNext k.val e)] := by
      rw [cellSend_new hdown (fun x hx => hpacer ⟨x, hx⟩) hturn hresend hhead hslot (by rw [hlive]; rfl)]
      exact sendCell_unicast hall hlive hcredit
    have hnumbered := numbered_glf (s.turnTo k.val q) k.val e j cls
    have hnrd := numbered_rd (s.turnTo k.val q) k.val e j cls
    have hnstep := numbered_step (s.turnTo k.val q) k.val e j cls
    generalize (s.turnTo k.val q).numbered k.val e j cls = n at heff hnumbered hnrd hnstep
    obtain ⟨queues, spray, resetPtr, held, hglf⟩ := launched_glf n k.val q j f [(e, s.seqNext k.val e)]
    have hplane : n.slotPlane j = s.slotPlane j := slotPlane_of_rd (hnrd _) j
    have hstep : FabStep [glfA (0x068 + 4 * k.val)] s (s.cellSend k.val) := by
      rw [heff]
      exact (((FabStep.refl s).setGlf _).trans (hnstep.mono (List.nil_subset _))).trans (launched_step n _ _ _ _ _)
    have hframe' := launched_frame n k.val q j f [(e, s.seqNext k.val e)]
    have hunacked := launched_unackedN n k.val q j f [(e, s.seqNext k.val e)]
    rw [← heff] at hglf hframe' hunacked
    obtain ⟨u, hu, hafter, hwhole⟩ := hstep.answered
    have huglf := hafter.glf.trans hglf
    rw [hnumbered] at huglf
    refine ⟨u, hu, ?_, ?_, ?_, ?_, ?_, ?_, ?_, hwhole.regsBut, hwhole.winKept, hwhole.memKept⟩
    · rw [huglf, ← hplane]
      rfl
    · rw [huglf, ← hplane]
      rfl
    · rw [huglf]
      rfl
    · rw [huglf]
      exact SMap.at_put_same _ _ _ _
    · unfold State.seqNext
      rw [huglf]
      exact SMap.at_put_same _ _ _ _
    · unfold State.frame at hframe' ⊢
      rw [hafter.frames, hframe']
      rfl
    · rw [unackedN_of_rd (hafter.glf_rd List.not_mem_nil), hunacked, unackedN_of_rd (hnrd _)]
      rfl
  case ack =>
    intro s k e seq c cs rest htake hunacked hk hwait hnew
    have heff : s.takeAck k.val = (s.lastAcked rest c cs).releaseCell { c with wait := [] } :=
      (takeAck_some htake).trans (ackCell_last hunacked hk hwait)
    have hrelease := releaseCell_step (s.lastAcked rest c cs) { c with wait := [] }
    have hglf := releaseCell_glf (s.lastAcked rest c cs) { c with wait := [] }
    obtain ⟨hheld, hcount⟩ := releaseCell_occ (s.lastAcked rest c cs) { c with wait := [] }
    have hleft : (({ c with wait := [] } : SentCell) :: cs).filter (fun x => decide (x ≠ { c with wait := [] })) = cs := by
      rw [List.filter_cons_of_neg (by simp), List.filter_eq_self]
      exact fun x hx => decide_eq_true (fun hxc => hnew (hxc ▸ hx))
    have hstep : FabStep [glfA (0x068 + 4 * k.val)] s (s.takeAck k.val) := by
      rw [heff, ← hk]
      exact ((FabStep.refl s).setGlf _).trans hrelease
    rw [← heff, show ({ c with wait := [] } : SentCell).k = k.val from hk] at hheld hcount
    rw [← heff] at hglf
    obtain ⟨u, hu, hafter, hwhole⟩ := hstep.answered
    have huglf := hafter.glf.trans hglf
    refine ⟨u, hu, ?_, ?_, ?_, ?_, ?_, hwhole.regsBut, hwhole.winKept, hwhole.memKept⟩
    · rw [huglf]
      rfl
    · rw [huglf]
      exact hleft
    · rw [stageHeld_of_rd (hafter.glf_rd List.not_mem_nil)]
      exact hheld
    · rw [unackedN_of_rd (hafter.glf_rd List.not_mem_nil)]
      exact hcount
    · rw [huglf]
      rfl
  case ackUnknown =>
    intro s k e seq rest htake hunknown
    have heff : s.takeAck k.val = s.ackTaken rest := (takeAck_some htake).trans (ackCell_unknown hunknown)
    obtain ⟨u, hu, hafter, hwhole⟩ := ((FabStep.refl (xs := []) s).setGlf { s.glf with acks := rest }).answered
    refine ⟨u, ?_, hafter.glf, hafter.frames, hwhole.regsBut, hwhole.winKept, hwhole.memKept⟩
    exact (congrArg (answer s) heff).trans hu
  case resend =>
    intro s k e seq j c cs hunacked hk hwait hfirst hslot hbelow
    have heff : s.ackTimeout k.val e.val seq.toNat = (s.resent c cs j).erred c.plane :=
      (ackTimeout_first hunacked hk hwait hfirst hslot).trans (planeErr_below _ _ hbelow)
    have hstep : FabStep [glfA (0x0A0 + 4 * c.plane)] s (s.ackTimeout k.val e.val seq.toNat) := by
      rw [heff]
      exact ((((FabStep.refl s).setGlf _).fly _ _).step ((RegStep.refl _).bump List.mem_cons_self)).setGlf _
    obtain ⟨u, hu, hafter, hwhole⟩ := hstep.answered
    have huglf := hafter.glf
    rw [heff] at huglf
    refine ⟨u, hu, ?_, ?_, ?_, ?_, hwhole.regsBut, hwhole.winKept, hwhole.memKept⟩
    · rw [huglf, ← hk]
      show s.glf.flights ++ c.wait.map _ = _
      rw [hwait]
      rfl
    · rw [huglf]
      rfl
    · rw [hafter.glf_rd List.not_mem_nil, heff]
      exact rd_bump_same (s.resent c cs j) _
    · rw [hafter.frames, heff]
      rfl
  case enable =>
    intro s hoff haccepts
    have heff := fabricEnable_rise hoff haccepts
    obtain ⟨free, hfill, hfree⟩ := fillCredits_eq (s.ctlEnabled)
    rw [hfill] at heff
    have hwatch := (RegStep.refl (xs := []) { s.ctlEnabled with glf := { s.ctlEnabled.glf with free := free } }).watch 0 0
      (glfA 0x044)
    rw [← heff] at hwatch
    have hstep : FabStep [glfA 0x044] s (s.fabricEnable true) :=
      ((((RegStep.refl s).wr _ (by decide)).fab).setGlf _).step (hwatch.mono (List.nil_subset _))
    obtain ⟨u, hu, hafter, hwhole⟩ := hstep.answered
    have huglf := hafter.glf.trans hwatch.glf
    have hcredit : s.ctlEnabled.rd (glfA 0x058) = s.rd (glfA 0x058) := rd_wr_ne s _ (by decide)
    unfold State.f at hfree ⊢
    rw [hcredit] at hfree
    refine ⟨u, hu, ?_, fun k e j => ?_, fun k e j => ?_, ?_, hwhole.regsBut, hwhole.winKept, hwhole.memKept⟩
    · unfold State.b
      rw [hafter.glf_rd List.not_mem_nil, hwatch.glf_rd List.not_mem_nil]
      exact ctlEnabled_en s
    · rw [huglf]
      exact (hfree _ (by unfold credKey b2n; simp; omega)).trans (if_pos (by unfold credKey b2n; simp))
    · rw [huglf]
      exact (hfree _ (by unfold credKey b2n; simp; omega)).trans (if_neg (by unfold credKey b2n; simp))
    · rw [huglf]
      rfl

end Sys2Proof

/-! ## A cell that arrives after it was declared lost (R260, R263, R265)

A gap timeout declares numbers lost, but next does not pass a front that is due. Until the front has passed, a number declared
lost stands within the window and is not held. -/

namespace Sys2Proof.Machine

/-- The acknowledgement of a duplicate holds nothing. -/
theorem dupCell_rsq (s : State) (e k seq : Nat) : (s.dupCell e k seq).rsq = s.rsq :=
  ((cntAdd_quiet _ _ _ _).trans ((led_quiet _ _ _ _ _ _).trans (pmc_quiet _ _ _ _))).rsq

/-- R260 row 3: a cell whose number is declared lost is a duplicate, and is not held. -/
theorem cellArrive_lost_rsq {s : State} {e k p : Nat} {c : Flight} {rest : List Flight} (hup : s.regionDown (20 + e) = false)
    (htake : takeFirst (fun x => decide (x.e = e ∧ x.k = k ∧ x.plane = p) && !x.front) s.glf.flights = some (c, rest))
    (hlost : s.isLost e k c.seq = true) : (s.cellArrive e k p false).rsq = s.rsq := by
  unfold State.cellArrive
  rw [if_neg (by rw [hup]; decide), htake]
  dsimp only
  rw [if_neg (by decide), if_pos (.inr hlost), dupCell_rsq]

/-- The resequencers stand in the answer as the command's effect left them. -/
theorem rsq_of_answer {s t u : State} (h : answer s t = .next u) : u.rsq = t.rsq := by
  obtain ⟨v, hv, hq, -⟩ := answer_next s t
  rw [hv] at h
  cases h
  exact hq.rsq

/-- Cell 0 of frame 5 on plane 2, from staging 0 to group 1. -/
def lateFlight : Flight := { k := 0, e := 1, plane := 2, seq := 0, fid := 5, idx := 0, first := true, last := false }

/-- Frame 5, two of whose cells have left staging 0 for port 23. -/
def gapFrame : Frame :=
  { id := 5, src := 3, inPort := 3, sentN := 2, stg := 2, groups := 2, admitted := true, place := .sending 0,
    bytes := List.replicate 600 1, md := [(8, 1), (9, 23)] }

/-- What staging keeps of cell 0 until it is acknowledged. -/
def lateSent : SentCell :=
  { k := 0, fid := 5, idx := 0, first := true, last := false, q := 0, slot := 2, plane := 2, wait := [(1, 0)] }

/-- A running device in which cell 0 is still on its way; cell 1 of the frame is held, and the front ahead of both is due at
group 1. -/
def gapBehindFront : State :=
  { pmu := { por := true, enCore := true }, hif := { linkUp := true }, regs := [(topA 0x048, 2), (glfA 0x068, 2)],
    frames := [(5, gapFrame)], nextId := 6, glf := { unacked := [lateSent], flights := [lateFlight], marks := [(1, 0)] },
    rsq := { held := [{ e := 1, k := 0, seq := 1, fid := 5, idx := 1, first := false, last := false }] } }

/-- The gap timeout has declared number 0 lost. -/
def lostBehindFront : State := gapBehindFront.gapTimeout 1 0

theorem lostBehindFront_up : lostBehindFront.regionDown (20 + 1) = false := by decide +kernel

theorem lostBehindFront_flights : lostBehindFront.glf.flights = [lateFlight] := by decide +kernel

theorem lostBehindFront_lost : lostBehindFront.isLost 1 0 lateFlight.seq = true := by decide +kernel

end Sys2Proof.Machine

namespace Sys2Proof

open Sys2Proof.Machine

/-- Refutes O33: its clause on a cell within the window that is not held does not say that the cell's number is not declared
lost. In `lostBehindFront`, which GAP_TIMEOUT leaves of `gapBehindFront`, number 0 is declared lost and next waits at it for a
front. The cell then arrives, is acknowledged as a duplicate (R260 row 3) and is not held. -/
theorem not_cellsAreResequenced : ¬ Obligations.CellsAreResequenced := by
  unfold Obligations.CellsAreResequenced
  rintro ⟨harrive, -⟩
  obtain ⟨t, ht, hkept, -⟩ := harrive lostBehindFront 1 0 2 lateFlight [] lostBehindFront_up
    (by rw [lostBehindFront_flights]; rfl) (by decide +kernel) (by decide +kernel) (by decide +kernel)
  have heff : answer lostBehindFront (lostBehindFront.cellArrive 1 0 2 false) = .next t := ht
  have hstays : t.rsq = lostBehindFront.rsq :=
    (rsq_of_answer heff).trans (cellArrive_lost_rsq lostBehindFront_up (by rw [lostBehindFront_flights]; rfl) lostBehindFront_lost)
  rw [hstays] at hkept
  exact List.cons_ne_nil _ _ (List.self_eq_append_right.mp hkept)

end Sys2Proof

/-! ## Bytes of entries and of words (R5)

A slice is the list of the bytes at its offsets; a little-endian number and its bytes give each other back. -/

namespace Sys2Proof

theorem slice_eq_map (bs : List Byte) (off n : Nat) : slice bs off n = (List.range n).map (fun i => bs.getD (off + i) 0) := by
  have hlen : (slice bs off n).length = n := by
    simp only [slice, List.length_append, List.length_take, List.length_drop, List.length_replicate]
    omega
  refine List.ext_getElem (by rw [hlen, List.length_map, List.length_range]) (fun i hi _ => ?_)
  rw [hlen] at hi
  simp only [slice, List.getElem_map, List.getElem_range, List.getElem_append, List.getElem_take, List.getElem_drop,
    List.getElem_replicate, List.length_take, List.length_drop, List.getD_eq_getElem?_getD]
  split
  · rw [List.getElem?_eq_getElem (by omega)]
    rfl
  · rw [List.getElem?_eq_none (by omega)]
    rfl

@[simp] theorem slice_length (bs : List Byte) (off n : Nat) : (slice bs off n).length = n := by simp [slice_eq_map]

/-- The first bytes of a list that is long enough. -/
theorem slice_zero_eq_take {bs : List Byte} {n : Nat} (h : n ≤ bs.length) : slice bs 0 n = bs.take n := by
  simp [slice, h]

/-- Bytes put into a list read as put. -/
theorem slice_putBytes_same {bs : List Byte} {off : Nat} {new : List Byte} (h : off + new.length ≤ bs.length) :
    slice (putBytes bs off new) off new.length = new := by
  have hoff : (bs.take off).length = off := by rw [List.length_take]; omega
  have hread : ((putBytes bs off new).drop off).take new.length = new := by
    unfold putBytes
    rw [List.drop_take, List.take_take, List.append_assoc, List.drop_left' hoff, Nat.min_eq_left (by omega), List.take_left]
  simp only [slice, hread, Nat.sub_self, List.replicate_zero, List.append_nil]

theorem leVal_lt (bs : List Byte) : leVal bs < 256 ^ bs.length := by
  induction bs with
  | nil => decide
  | cons b bs ih =>
    have hb := b.isLt
    simp only [leVal, List.length_cons, Nat.pow_succ]
    omega

theorem leBytes_leVal (bs : List Byte) : leBytes bs.length (leVal bs) = bs := by
  induction bs with
  | nil => rfl
  | cons b bs ih =>
    have hb := b.isLt
    have hrest : (b.toNat + 256 * leVal bs) / 256 = leVal bs := by omega
    simp only [List.length_cons, leBytes, leVal, hrest, ih]
    congr 1
    apply BitVec.eq_of_toNat_eq
    simp only [BitVec.toNat_ofNat]
    omega

theorem leBytes_leAt (bs : List Byte) (off n : Nat) : leBytes n (leAt bs off n) = slice bs off n := by
  have h := leBytes_leVal (slice bs off n)
  rwa [slice_length] at h

theorem leAt_lt (bs : List Byte) (off n : Nat) : leAt bs off n < 256 ^ n := by
  have h := leVal_lt (slice bs off n)
  rwa [slice_length] at h

theorem leAt_putBytes_same {bs : List Byte} {off n v : Nat} (h : off + n ≤ bs.length) :
    leAt (putBytes bs off (leBytes n v)) off n = v % 256 ^ n := by
  have hread := slice_putBytes_same (bs := bs) (off := off) (new := leBytes n v) (by rw [leBytes_length]; exact h)
  rw [leBytes_length] at hread
  unfold leAt
  rw [hread, leVal_leBytes]

/-- The bytes of a 4-byte field, put into a register word. -/
theorem leBytes_word_leAt (bs : List Byte) (off : Nat) : leBytes 4 (word (leAt bs off 4)).toNat = slice bs off 4 := by
  have hfits : (word (leAt bs off 4)).toNat = leAt bs off 4 := Nat.mod_eq_of_lt (leAt_lt bs off 4)
  rw [hfits, leBytes_leAt]

theorem flatMap_range_congr {n : Nat} {f g : Nat → List Byte} (h : ∀ w < n, f w = g w) :
    (List.range n).flatMap f = (List.range n).flatMap g := by
  rw [List.flatMap_def, List.flatMap_def, List.map_congr_left (fun w hw => h w (List.mem_range.mp hw))]

/-- The words of 28 bytes, in order. -/
theorem flatMap_slice_words (bs : List Byte) : (List.range 7).flatMap (fun w => slice bs (4 * w) 4) = slice bs 0 28 := by
  simp only [slice_eq_map]
  rfl

end Sys2Proof

/-! ## The entries of a resequencer (R273) -/

namespace Sys2Proof.Machine

/-- The entries of a target lie in 1 MB of their own. -/
theorem rsqEntA_bounds {e t i : Nat} (hi : i < rsqCount t) :
    e * 2 ^ 24 + t * 2 ^ 20 ≤ rsqEntA e t i ∧ rsqEntA e t i + rsqEntSize t ≤ e * 2 ^ 24 + (t + 1) * 2 ^ 20 := by
  unfold rsqEntA rsqEntSize
  unfold rsqCount at hi
  match t with
  | 0 | 1 | 2 | 3 => simp at hi ⊢; omega
  | t + 4 => simp at hi ⊢; omega

theorem rsqEnt_length (s : State) (e t i : Nat) : (s.rsqEnt e t i).length = rsqEntSize t := readBytes_length _ _ _

theorem rsqEnt_setRsqEnt_same (s : State) (e : Nat) {t : Nat} (i : Nat) {bs : List Byte} (h : bs.length = rsqEntSize t) :
    (s.setRsqEnt e t i bs).rsqEnt e t i = bs := by
  show readBytes (writeBytes s.rsq.ind _ bs) _ (rsqEntSize t) = bs
  rw [← h, readBytes_writeBytes]

/-- A write of an entry leaves the entries of the other targets. -/
theorem rsqEnt_setRsqEnt_ne (s : State) (e : Nat) {t u i j : Nat} {bs : List Byte} (h : bs.length = rsqEntSize t) (hne : u ≠ t)
    (hi : i < rsqCount t) (hj : j < rsqCount u) : (s.setRsqEnt e t i bs).rsqEnt e u j = s.rsqEnt e u j := by
  obtain ⟨hlo, hhi⟩ := rsqEntA_bounds (e := e) hi
  obtain ⟨hlo', hhi'⟩ := rsqEntA_bounds (e := e) hj
  refine readBytes_writeBytes_out _ _ _ _ _ ?_
  rw [h]
  omega

theorem rsqEnt_of_ind {s t : State} (h : t.rsq.ind = s.rsq.ind) (e tg i : Nat) : t.rsqEnt e tg i = s.rsqEnt e tg i := by
  unfold State.rsqEnt
  rw [h]

theorem stateBytes_length (seq : Nat) (any : Bool) (hist : Nat) : (stateBytes seq any hist).length = rsqEntSize 2 := by
  simp [stateBytes, rsqEntSize]

/-- A counters entry after one of them has counted. -/
abbrev State.rcvCounted (s : State) (e i w n : Nat) : List Byte :=
  putBytes (s.rsqEnt e 3 i) (4 * w) (leBytes 4 (satAdd 32 (leAt (s.rsqEnt e 3 i) (4 * w) 4) n))

theorem rcvCounted_length (s : State) (e i n : Nat) {w : Nat} (hw : w < 7) : (s.rcvCounted e i w n).length = rsqEntSize 3 := by
  have hlen : (s.rsqEnt e 3 i).length = 28 := rsqEnt_length s e 3 i
  unfold State.rcvCounted
  rw [putBytes_length (by rw [leBytes_length, hlen]; omega), hlen]
  rfl

theorem rcvCount_same (s : State) (e i n : Nat) {w : Nat} (hw : w < 7) :
    leAt ((s.rcvCount e i w n).rsqEnt e 3 i) (4 * w) 4 = satAdd 32 (leAt (s.rsqEnt e 3 i) (4 * w) 4) n := by
  have hlen : (s.rsqEnt e 3 i).length = 28 := rsqEnt_length s e 3 i
  show leAt ((s.setRsqEnt e 3 i (s.rcvCounted e i w n)).rsqEnt e 3 i) (4 * w) 4 = _
  rw [rsqEnt_setRsqEnt_same s e i (rcvCounted_length s e i n hw), leAt_putBytes_same (by omega)]
  unfold satAdd
  omega

/-- A count leaves the entries of the other targets. -/
theorem rcvCount_ne (s : State) (e n : Nat) {i w t j : Nat} (hw : w < 7) (hi : i < 1024) (ht : t ≠ 3) (hj : j < rsqCount t) :
    (s.rcvCount e i w n).rsqEnt e t j = s.rsqEnt e t j :=
  rsqEnt_setRsqEnt_ne s e (rcvCounted_length s e i n hw) ht hi hj

end Sys2Proof.Machine

/-! ## Indirect access (R274) -/

namespace Sys2Proof.Machine

/-! ### What a command of the resequencers leaves -/

/-- An effect that changes only the resequencers' structures and the registers listed is answered with nothing but a quiet change
beside it. -/
theorem RegStep.answered_rsq {xs : List Nat} {s t : State} {r : Rsq} (h : RegStep xs { s with rsq := r } t) :
    ∃ u, answer s t = .next u ∧ u.rsq = r ∧ RegStep [] t u ∧ RegsBut xs s u ∧ WinKept s u ∧ MemKept s u := by
  obtain ⟨u, hu, hq, _, hraised⟩ := exists_answerOf (s := s) (t := t) h.fab.pending
  have hquiet : RegStep [] t u := (RegStep.refl t).quiet hq hraised
  have hwhole : RegStep xs { s with rsq := r } u := h.trans (hquiet.mono (List.nil_subset _))
  obtain ⟨-, -, -, -, hrsq⟩ := hwhole.flowKept
  exact ⟨u, hu, hrsq, hquiet, hwhole.regs, hwhole.fab.winKept, hwhole.fab.memKept⟩

theorem RegStep.rsq_rd {xs : List Nat} {s t : State} (h : RegStep xs s t) {e o : Nat} (ho : rsqA e o ∉ xs) :
    t.rd (rsqA e o) = s.rd (rsqA e o) :=
  have hpast := pastSta_not_mem_quietRegs (a := rsqA e o) (by unfold rsqA; omega)
  h.regs _ ho hpast.1 hpast.2

/-! ### The start of an access -/

theorem pageOf_rsq (e : Group) : pageOf (0x78 + e.val) = some (.rsq, e.val) := by
  revert e
  decide

/-- The request that a write of a word to a register of a resequencer makes. -/
abbrev rsqReq (e off : Nat) (w : Word) : RegReq := ⟨0x78 + e, off, maskOf 31 0, w⟩

theorem rsqReq_addr (e off : Nat) (w : Word) : (rsqReq e off w).addr = rsqA e off := by
  show (0x78 + e) * 0x1000 + off = 0x78000 + e * 0x1000 + off
  omega

theorem resolve_rsq {e off : Nat} (h : off < 0x800) (w : Word) : resolve (rsqA e off) w = rsqReq e off w := by
  have hoff : (0x78000 + e * 0x1000 + off) % 0x1000 = off := by omega
  have hpage : (0x78000 + e * 0x1000 + off) / 0x1000 = 0x78 + e := by omega
  unfold resolve rsqA
  rw [hoff, hpage]
  exact if_pos h

/-- An accepted write to a resequencer's page stores its fields and has its effect; then watchpoints see it. -/
theorem hostWriteWith_rsq {s : State} {e : Group} {off : Nat} {w : Word} (eff : RegReq → State → State) (hoff : off < 0x800)
    (h : s.accepts (rsqA e.val off) w) :
    s.hostWriteWith (rsqA e.val off) w true eff =
      (eff (rsqReq e.val off w) (s.storeReg (rsqReq e.val off w))).watch 0 0 (rsqA e.val off) := by
  have hwrite := hostWriteWith_accepted s _ _ eff .rsq e.val h (by rw [resolve_rsq hoff]; exact pageOf_rsq e) rfl
  rw [resolve_rsq hoff, rsqReq_addr] at hwrite
  exact hwrite

/-- The row of RSQ_IND_CTL. -/
abbrev indCtlRow : RegD :=
  reg "RSQ_IND_CTL" 0x0A0 0 [fRH 31 31, fRH 29 28, fRWL 24 24, fRWL 20 20, fRWL 17 16, fRWL 14 0]

theorem rsqReq_desc_indCtl (e : Group) (w : Word) : (rsqReq e.val 0x0A0 w).desc = indCtlRow := by
  have hrow : regAt .rsq e.val 0x0A0 = some indCtlRow := by decide +kernel +revert
  unfold RegReq.desc
  rw [pageOf_rsq]
  dsimp only
  rw [hrow]
  rfl

theorem maskOf_getLsbD {hi : Nat} (lo i : Nat) (h : hi < 32) : (maskOf hi lo).getLsbD i = decide (lo ≤ i ∧ i ≤ hi) := by
  unfold maskOf
  rw [BitVec.getLsbD_ofNat, Nat.testBit_shiftLeft, Nat.testBit_two_pow_sub_one, Bool.eq_iff_iff]
  simp only [Bool.and_eq_true, decide_eq_true_eq]
  omega

/-- A field of class RW-L takes its bits of a whole word written. -/
theorem fieldWrite_rwl (w : Word) (r : RegReq) {hi lo : Nat} (h : hi < 32) (hl : lo ≤ hi) (hmask : r.mask = maskOf 31 0) :
    fieldWrite w r (fRWL hi lo) = setFld w hi lo (fld r.val hi lo) := by
  have hall : maskOf hi lo &&& maskOf 31 0 = maskOf hi lo := BitVec.and_allOnes
  apply BitVec.eq_of_getLsbD_eq
  intro i hi32
  show ((w &&& ~~~(maskOf hi lo &&& r.mask)) ||| ((maskOf hi lo &&& r.mask) &&& r.val)).getLsbD i = _
  rw [hmask, hall, setFld_getLsbD _ _ _ _ _ h hl, BitVec.getLsbD_or, BitVec.getLsbD_and, BitVec.getLsbD_and,
    BitVec.getLsbD_not, maskOf_getLsbD lo i h, fld_testBit]
  by_cases hin : lo ≤ i ∧ i ≤ hi
  · have hpos : lo + (i - lo) = i ∧ i - lo < hi + 1 - lo := by omega
    simp [hin, hpos]
  · simp [hin, hi32]

/-- RSQ_IND_CTL after an accepted write of a word: busy and err stand, the other fields take the bits written. -/
def indWritten (old w : Word) : Word :=
  setFld (setFld (setFld (setFld old 24 24 (fld w 24 24)) 20 20 (fld w 20 20)) 17 16 (fld w 17 16)) 14 0 (fld w 14 0)

theorem writeWord_indCtl (old : Word) (e : Nat) (w : Word) : writeWord indCtlRow old (rsqReq e 0x0A0 w) = indWritten old w := by
  have hfields : writeWord indCtlRow old (rsqReq e 0x0A0 w) =
      [fRWL 24 24, fRWL 20 20, fRWL 17 16, fRWL 14 0].foldl (fun x f => fieldWrite x (rsqReq e 0x0A0 w) f) old := rfl
  simp only [hfields, List.foldl_cons, List.foldl_nil]
  rw [fieldWrite_rwl _ _ (by decide) (by decide) rfl, fieldWrite_rwl _ _ (by decide) (by decide) rfl,
    fieldWrite_rwl _ _ (by decide) (by decide) rfl, fieldWrite_rwl _ _ (by decide) (by decide) rfl]
  rfl

/-- RSQ_IND_CTL once an access is under way: the fields written, go 0, busy 1. -/
def indStarted (old w : Word) : Word := setBit (setBit (indWritten old w) 24 false) 31 true

theorem indStarted_busy (old w : Word) : bit (indStarted old w) 31 = true := bit_setBit_same _ _ _ (by decide)

theorem indStarted_write (old w : Word) : bit (indStarted old w) 20 = bit w 20 := by
  unfold indStarted indWritten
  rw [bit_setBit_ne _ _ _ _ (by decide) (by decide), bit_setBit_ne _ _ _ _ (by decide) (by decide),
    bit_setFld_ne _ _ _ _ _ (by decide) (by decide) (by decide), bit_setFld_ne _ _ _ _ _ (by decide) (by decide) (by decide)]
  unfold bit
  rw [setFld_getLsbD _ _ _ _ _ (by decide) (by decide), if_pos (by decide), fld_testBit]
  rfl

theorem indStarted_target (old w : Word) : fld (indStarted old w) 17 16 = fld w 17 16 := by
  unfold indStarted indWritten
  rw [fld_setBit_ne _ _ _ _ _ (by decide) (by decide), fld_setBit_ne _ _ _ _ _ (by decide) (by decide),
    fld_setFld_ne _ _ _ _ _ _ (by decide) (by decide) (by decide), fld_setFld_same _ _ _ _ (by decide) (by decide)]
  exact Nat.mod_mod _ _

theorem indStarted_index (old w : Word) : fld (indStarted old w) 14 0 = fld w 14 0 := by
  unfold indStarted indWritten
  rw [fld_setBit_ne _ _ _ _ _ (by decide) (by decide), fld_setBit_ne _ _ _ _ _ (by decide) (by decide),
    fld_setFld_same _ _ _ _ (by decide) (by decide)]
  exact Nat.mod_mod _ _

/-- The word that starts an access. -/
def indWord (write : Bool) (t i : Nat) : Word := word (2 ^ 24 + b2n write * 2 ^ 20 + t * 65536 + i)

theorem indWord_read (t i : Nat) : indWord false t i = word (2 ^ 24 + t * 65536 + i) :=
  congrArg (fun n => word (n + t * 65536 + i)) (by decide)

theorem indWord_write (t i : Nat) : indWord true t i = word (2 ^ 24 + 2 ^ 20 + t * 65536 + i) :=
  congrArg (fun n => word (n + t * 65536 + i)) (by decide)

theorem indWord_fields (write : Bool) {t i : Nat} (ht : t < 4) (hi : i < 2 ^ 15) :
    bit (indWord write t i) 20 = write ∧ fld (indWord write t i) 17 16 = t ∧ fld (indWord write t i) 14 0 = i := by
  have hb : b2n write < 2 := by cases write <;> decide
  have hn : (indWord write t i).toNat = 2 ^ 24 + b2n write * 2 ^ 20 + t * 65536 + i := by
    unfold indWord word
    rw [BitVec.toNat_ofNat]
    omega
  have hwrite : fld (indWord write t i) 20 20 = b2n write := by
    unfold fld bitsOf
    rw [hn, Nat.shiftRight_eq_div_pow]
    omega
  refine ⟨?_, ?_, ?_⟩
  · have h := fld_testBit (indWord write t i) 20 20 0
    rw [hwrite] at h
    unfold bit
    cases write <;> simpa [b2n] using h.symm
  · unfold fld bitsOf
    rw [hn, Nat.shiftRight_eq_div_pow]
    omega
  · unfold fld bitsOf
    rw [hn, Nat.shiftRight_eq_div_pow]
    omega

theorem rsqStart_accepted {s : State} {e : Group} {t i : Nat} {write : Bool}
    (h : s.accepts (rsqA e.val 0x0A0) (indWord write t i)) :
    s.rsqStart e.val t i write =
      (((s.storeReg (rsqReq e.val 0x0A0 (indWord write t i))).setB (rsqA e.val 0x0A0) 24 false).setB
        (rsqA e.val 0x0A0) 31 true).watch 0 0 (rsqA e.val 0x0A0) :=
  hostWriteWith_rsq _ (by decide) h

/-- An accepted start puts the access into RSQ_IND_CTL and leaves everything else. -/
theorem answer_rsqStart {s : State} {e : Group} {t i : Nat} {write : Bool} (ht : t < 4) (hi : i < 2 ^ 15)
    (h : s.accepts (rsqA e.val 0x0A0) (indWord write t i)) :
    ∃ u, answer s (s.rsqStart e.val t i write) = .next u ∧ u.b (rsqA e.val 0x0A0) 31 = true ∧ u.b (rsqA e.val 0x0A0) 20 = write ∧
      u.f (rsqA e.val 0x0A0) 17 16 = t ∧ u.f (rsqA e.val 0x0A0) 14 0 = i ∧ u.rsq = s.rsq ∧
      RegsBut [rsqA e.val 0x0A0] s u ∧ MemKept s u := by
  rw [rsqStart_accepted h, State.storeReg, rsqReq_desc_indCtl, rsqReq_addr, writeWord_indCtl]
  obtain ⟨u, hu, hrsq, hquiet, hregs, -, hmem⟩ := RegStep.answered_rsq (s := s) (r := s.rsq)
    (((((RegStep.refl s).wr (indWritten _ (indWord write t i)) (List.mem_singleton_self _)).setB 24 false
      (List.mem_singleton_self _)).setB 31 true (List.mem_singleton_self _)).watch 0 0 (rsqA e.val 0x0A0))
  have hctl : u.rd (rsqA e.val 0x0A0) = indStarted (s.rd (rsqA e.val 0x0A0)) (indWord write t i) := by
    rw [hquiet.rsq_rd List.not_mem_nil, ((RegStep.refl _).watch 0 0 _).rsq_rd (xs := []) List.not_mem_nil, rd_setB_same,
      rd_setB_same, rd_wr_same]
    rfl
  obtain ⟨hwrite, htarget, hindex⟩ := indWord_fields write ht hi
  exact ⟨u, hu, (congrArg (bit · 31) hctl).trans (indStarted_busy _ _),
    (congrArg (bit · 20) hctl).trans ((indStarted_write _ _).trans hwrite),
    (congrArg (fld · 17 16) hctl).trans ((indStarted_target _ _).trans htarget),
    (congrArg (fld · 14 0) hctl).trans ((indStarted_index _ _).trans hindex), hrsq, hregs, hmem⟩

/-! ### The end of an access -/

/-- RSQ_IND_CTL when an access has ended with err 0. -/
def indEnded (w : Word) : Word := setFld (setBit w 31 false) 29 28 0

theorem indEnded_busy (w : Word) : bit (indEnded w) 31 = false := by
  unfold indEnded
  rw [bit_setFld_ne _ _ _ _ _ (by decide) (by decide) (by decide), bit_setBit_same _ _ _ (by decide)]

theorem indEnded_done (w : Word) : fld (indEnded w) 29 28 = 0 := fld_setFld_same _ _ _ _ (by decide) (by decide)

/-- The end of an access without an error: what the access itself changes stands, busy and err read 0. -/
theorem answer_rsqIndDone {xs : List Nat} {s t : State} {r : Rsq} {e : Nat} (hbusy : s.b (rsqA e 0x0A0) 31 = true)
    (haccess : s.rsqAccess e (s.rsq.indBusy.at 0 e) = (0, t)) (hstep : RegStep xs { s with rsq := r } t)
    (hctl : rsqA e 0x0A0 ∈ xs) :
    ∃ u, answer s (s.rsqIndDone e) = .next u ∧ u.rsq = r ∧ (∀ o, o ≠ 0x0A0 → u.rd (rsqA e o) = t.rd (rsqA e o)) ∧
      u.b (rsqA e 0x0A0) 31 = false ∧ u.f (rsqA e 0x0A0) 29 28 = 0 ∧ RegsBut xs s u ∧ MemKept s u := by
  have heff : s.rsqIndDone e = (t.setB (rsqA e 0x0A0) 31 false).setF (rsqA e 0x0A0) 29 28 0 := by
    unfold State.rsqIndDone
    rw [if_neg (by rw [hbusy]; decide), haccess]
  obtain ⟨u, hu, hrsq, hquiet, hregs, -, hmem⟩ := ((hstep.setB 31 false hctl).setF 29 28 0 hctl).answered_rsq
  have hend : u.rd (rsqA e 0x0A0) = indEnded (t.rd (rsqA e 0x0A0)) := by
    rw [hquiet.rsq_rd List.not_mem_nil, rd_setF_same, rd_setB_same]
    rfl
  have hothers : ∀ o, o ≠ 0x0A0 → u.rd (rsqA e o) = t.rd (rsqA e o) := fun o ho => by
    have hne : rsqA e o ≠ rsqA e 0x0A0 := fun h => ho (Nat.add_left_cancel h)
    rw [hquiet.rsq_rd List.not_mem_nil, rd_setF_ne _ _ _ _ hne, rd_setB_ne _ _ _ hne]
  exact ⟨u, (congrArg (answer s) heff).trans hu, hrsq, hothers, (congrArg (bit · 31) hend).trans (indEnded_busy _),
    (congrArg (fld · 29 28) hend).trans (indEnded_done _), hregs, hmem⟩

/-- A host read of an entry that exists, while no view is sealed, puts it into the data registers. -/
theorem rsqAccess_read {s : State} {e : Nat} (hread : s.b (rsqA e 0x0A0) 20 = false)
    (hi : s.f (rsqA e 0x0A0) 14 0 < rsqCount (s.f (rsqA e 0x0A0) 17 16)) (hviews : s.sec.views = []) :
    s.rsqAccess e 0 = (0, s.setRsqData e (s.rsqEnt e (s.f (rsqA e 0x0A0) 17 16) (s.f (rsqA e 0x0A0) 14 0))) := by
  have hdo : ∀ bs, s.rsqDo e (s.f (rsqA e 0x0A0) 17 16) (s.f (rsqA e 0x0A0) 14 0) 0 false bs =
      (0, s.rsqEnt e (s.f (rsqA e 0x0A0) 17 16) (s.f (rsqA e 0x0A0) 14 0), s) := by
    intro bs
    unfold State.rsqDo
    rw [if_neg (Nat.not_le.mpr hi), if_pos rfl]
    dsimp only
    rw [if_neg (fun h => h.1 rfl), hviews, if_neg (fun h => Bool.false_ne_true h.2)]
  unfold State.b at hread
  unfold State.f at hdo ⊢
  unfold State.rsqAccess
  simp only [hread, hdo, and_self, if_true]

/-- An unfenced write of a selector stores its first two data bytes. -/
theorem rsqAccess_selector {s : State} {e d : Nat} (hwrite : s.b (rsqA e 0x0A0) 20 = true)
    (htarget : s.f (rsqA e 0x0A0) 17 16 = 0) (hi : s.f (rsqA e 0x0A0) 14 0 < 20480)
    (hgood : rsqBad 0 (s.f (rsqA e 0x0A0) 14 0) (s.rsqData e) = false)
    (hfree : s.rsqFenced e 0 (s.f (rsqA e 0x0A0) 14 0) d (s.rsqData e) = false) :
    s.rsqAccess e d = (0, s.setRsqEnt e 0 (s.f (rsqA e 0x0A0) 14 0) (slice (s.rsqData e) 0 2)) := by
  have hdo : s.rsqDo e 0 (s.f (rsqA e 0x0A0) 14 0) d true (s.rsqData e) =
      (0, [], s.setRsqEnt e 0 (s.f (rsqA e 0x0A0) 14 0) (slice (s.rsqData e) 0 2)) := by
    have hcount : ¬ rsqCount 0 ≤ s.f (rsqA e 0x0A0) 14 0 := Nat.not_le.mpr hi
    unfold State.rsqDo
    rw [if_neg hcount, if_neg (by decide), if_neg (by rw [hgood]; decide), if_neg (by decide),
      if_neg (by rw [hfree]; decide)]
    rfl
  unfold State.b at hwrite
  unfold State.f at htarget hdo ⊢
  unfold State.rsqAccess
  simp only [hwrite, htarget, hdo, Bool.true_eq_false, and_false, if_false]

/-! ### The data registers -/

/-- A loop that writes distinct registers leaves in each its own word. -/
theorem rd_forEach_wr (s : State) {a : Nat → Nat} (v : Nat → Word) {n j : Nat} (hinj : ∀ i < n, a i = a j → i = j) (hj : j < n) :
    (forEach (List.range n) s (fun s i => s.wr (a i) (v i))).rd (a j) = v j := by
  induction n with
  | zero => omega
  | succ n ih =>
    have hlast : forEach (List.range (n + 1)) s (fun s i => s.wr (a i) (v i)) =
        (forEach (List.range n) s (fun s i => s.wr (a i) (v i))).wr (a n) (v n) := by
      simp [forEach, List.range_succ]
    rw [hlast]
    by_cases hn : n = j
    · subst hn
      exact rd_wr_same _ _ _
    · rw [rd_wr_ne _ _ (fun h => hn (hinj n (by omega) h.symm)), ih (fun i hi => hinj i (by omega)) (by omega)]

/-- The data registers of a resequencer. -/
abbrev indDataRegs (e : Nat) : List Nat := (List.range 7).map (fun w => rsqA e (0x0C0 + 4 * w))

theorem setRsqData_step (s : State) (e : Nat) (bs : List Byte) : RegStep (indDataRegs e) s (s.setRsqData e bs) :=
  forEach_keeps (fun t => RegStep (indDataRegs e) s t) _ _ _ (RegStep.refl s)
    (fun _ _ hw h => h.wr _ (List.mem_map_of_mem hw))

theorem setRsqData_rd (s : State) (e : Nat) (bs : List Byte) {w : Nat} (hw : w < 7) :
    (s.setRsqData e bs).rd (rsqA e (0x0C0 + 4 * w)) = word (leAt bs (4 * w) 4) :=
  rd_forEach_wr s (a := fun w => rsqA e (0x0C0 + 4 * w)) (fun w => word (leAt bs (4 * w) 4))
    (fun i _ h => by simp only [rsqA] at h; omega) hw

theorem rsqData_of_rd {s t : State} {e : Nat} (h : ∀ w < 7, t.rd (rsqA e (0x0C0 + 4 * w)) = s.rd (rsqA e (0x0C0 + 4 * w))) :
    t.rsqData e = s.rsqData e :=
  flatMap_range_congr (fun w hw => by rw [h w hw])

/-- Bytes put into the data registers read as put, with zeros behind them. -/
theorem rsqData_setRsqData (s : State) (e : Nat) (bs : List Byte) : (s.setRsqData e bs).rsqData e = slice bs 0 28 :=
  (flatMap_range_congr (fun w hw => by rw [setRsqData_rd s e bs hw, leBytes_word_leAt])).trans
    (flatMap_slice_words bs)

theorem rsqData_length (s : State) (e : Nat) : (s.rsqData e).length = 28 := by
  simp only [State.rsqData, List.length_flatMap, leBytes_length]
  rfl

/-! ### RECOVERY_RESET_TIMEOUT (R269) -/

/-- A state entry comes to take_any with its sequence number and history as they were. -/
def State.takeAny (s : State) (e i : Nat) : State :=
  s.setRsqEnt e 2 i (stateBytes (leAt (s.rsqEnt e 2 i) 0 2) true (leAt (s.rsqEnt e 2 i) 8 8))

theorem takeAny_state (s : State) (e i : Nat) :
    (s.takeAny e i).rsqEnt e 2 i = stateBytes (leAt (s.rsqEnt e 2 i) 0 2) true (leAt (s.rsqEnt e 2 i) 8 8) :=
  rsqEnt_setRsqEnt_same s e i (stateBytes_length _ _ _)

theorem takeAny_ne (s : State) (e : Nat) {i t : Nat} (hi : i < 1024) (ht : t ≠ 2) (hc : i < rsqCount t) :
    (s.takeAny e i).rsqEnt e t i = s.rsqEnt e t i :=
  rsqEnt_setRsqEnt_ne s e (stateBytes_length _ _ _) ht hi hc

/-- With its config valid and take_any 0, a state entry comes to take_any, and the reset is counted. -/
theorem recoveryReset_due {s : State} {e i : Nat} (hvalid : leAt (s.rsqEnt e 1 i) 0 1 % 2 = 1)
    (hany : leAt (s.rsqEnt e 2 i) 2 1 % 2 = 0) : s.recoveryReset e i = (s.takeAny e i).rcvCount e i 5 := by
  unfold State.recoveryReset
  exact if_neg (by omega)

end Sys2Proof.Machine

namespace Sys2Proof

open Sys2Proof.Machine

/-- Settles O34, clause by clause: a reset by timeout writes a state entry and one counter, a start of an access
writes RSQ_IND_CTL alone, and the end of one carries out the access that RSQ_IND_CTL names. -/
theorem recoveryEntriesAreReached : Obligations.RecoveryEntriesAreReached := by
  unfold Obligations.RecoveryEntriesAreReached
  refine ⟨?timeout, ?startRead, ?startWrite, ?endRead, ?endSelector⟩
  case timeout =>
    intro s e i hvalid hany
    have hi := i.isLt
    have hi0 : i.val < rsqCount 0 := Nat.lt_trans hi (by decide)
    have heff := recoveryReset_due hvalid hany
    obtain ⟨u, hu, hrsq, -, hregs, hwin, hmem⟩ := RegStep.answered_rsq (s := s) (r := (s.recoveryReset e.val i.val).rsq)
      (t := s.recoveryReset e.val i.val) (xs := []) (by rw [heff]; exact .refl _)
    have hent : ∀ t, u.rsqEnt e.val t i.val = ((s.takeAny e.val i.val).rcvCount e.val i.val 5).rsqEnt e.val t i.val := fun t =>
      rsqEnt_of_ind (by rw [hrsq, heff]) e.val t i.val
    have hother : ∀ t, t ≠ 3 → i.val < rsqCount t → u.rsqEnt e.val t i.val = (s.takeAny e.val i.val).rsqEnt e.val t i.val :=
      fun t ht hc => (hent t).trans (rcvCount_ne _ e.val 1 (by decide) hi ht hc)
    refine ⟨u, hu, ?_, ?_, ?_, ?_, ?_, hregs, hwin, hmem⟩
    · exact (hother 2 (by decide) hi).trans (takeAny_state s e.val i.val)
    · rw [hent, rcvCount_same _ e.val i.val 1 (w := 5) (by decide), takeAny_ne s e.val (t := 3) hi (by decide) hi]
    · exact (hother 1 (by decide) hi).trans (takeAny_ne s e.val hi (by decide) hi)
    · exact (hother 0 (by decide) hi0).trans (takeAny_ne s e.val hi (by decide) hi0)
    · rw [hrsq, heff]
      rfl
  case startRead =>
    intro s e tg i haccepts
    rw [← indWord_read] at haccepts
    exact answer_rsqStart tg.isLt i.isLt haccepts
  case startWrite =>
    intro s e tg i haccepts
    rw [← indWord_write] at haccepts
    exact answer_rsqStart tg.isLt i.isLt haccepts
  case endRead =>
    intro s e hbusy hread hhost hi hviews
    have haccess := rsqAccess_read hread hi hviews
    obtain ⟨u, hu, hrsq, hothers, hended, hdone, hregs, hmem⟩ :=
      answer_rsqIndDone hbusy (by rw [hhost]; exact haccess)
      ((setRsqData_step s e.val _).mono (List.subset_cons_self (rsqA e.val 0x0A0) _)) List.mem_cons_self
    refine ⟨u, hu, ?_, hended, hdone, by rw [hrsq], hregs, hmem⟩
    rw [rsqData_of_rd (fun w _ => hothers _ (by omega)), rsqData_setRsqData]
  case endSelector =>
    intro s e hbusy hwrite htarget hi hgood hfree
    obtain ⟨u, hu, hrsq, -, hended, hdone, hregs, hmem⟩ := answer_rsqIndDone hbusy
      (rsqAccess_selector hwrite htarget hi hgood hfree) (.refl _) (List.mem_singleton_self _)
    refine ⟨u, hu, ?_, hended, hdone, hregs, hmem⟩
    rw [← slice_zero_eq_take (by rw [rsqData_length]; decide)]
    exact (rsqEnt_of_ind (s := s.setRsqEnt e.val 0 _ _) (congrArg Rsq.ind hrsq) _ _ _).trans
      (rsqEnt_setRsqEnt_same s e.val _ (slice_length _ _ _))

end Sys2Proof

/-! ## Ring entries that do not read while a free store moves handles (R288, R293)

A handle whose ring entry reads at neither of its addresses is counted free, and stays out until a sweep rebuilds the entry. -/

namespace Sys2Proof.Machine

/-- What BPM and HBC keep beside their registers stands in the answer as the command's effect left it. -/
theorem bpm_of_answer {s t u : State} (h : answer s t = .next u) : u.bpm = t.bpm := by
  obtain ⟨v, hv, hq, -⟩ := answer_next s t
  rw [hv] at h
  cases h
  exact hq.bpm

/-- The free store of an on-chip pool: every handle has been handed out once, handles 0 to 3 have come back and none is cached, and
the ring entry of handle 0 does not read. -/
def gapPool : Pool := { fresh := 16384, back := [1, 2, 3], bad := [0] }

/-- A running device with BPM enabled whose pool 0 has that free store: 4 handles free, the others in use. -/
def ringGapState : State :=
  { pmu := { por := true, enCore := true }, hif := { linkUp := true },
    regs := [(topA 0x048, 2), (bpmA 0x044, 1), (bpmA 0x0A0, 4), (bpmA 0x0C0, 16380)], bpm := { pools := [(0, gapPool)] } }

/-- The three handles whose entries read are moved, and no fourth. -/
theorem ringGapState_moved : ((ringGapState.moveFree 0).pool 0).cache = 3 := by decide +kernel

end Sys2Proof.Machine

namespace Sys2Proof

open Sys2Proof.Machine

/-- Refutes O35: its clause on FREE_STORE_MOVE counts every free handle as one that can be moved, and leaves out those whose ring
entries have been found unreadable. In `ringGapState` 4 handles of pool 0 are free and one of them has such an entry: the
hypotheses hold with n = 4, and the cache takes the 3 others. This is a state that the statement admits and not one that a run is
known to reach: which entries fail with their slots rests on where the ring lies, which is internal. -/
theorem not_buffersAreAdmittedAndFilled : ¬ Obligations.BuffersAreAdmittedAndFilled := by
  unfold Obligations.BuffersAreAdmittedAndFilled
  rintro ⟨-, -, hmove, -⟩
  obtain ⟨t, ht, hcache, -⟩ := hmove ringGapState 0 gapPool 4 (by decide +kernel) (by decide) (by decide +kernel) (by decide +kernel)
  have heff : answer ringGapState (ringGapState.moveFree 0) = .next t := ht
  have hpool : t.pool 0 = (ringGapState.moveFree 0).pool 0 := congrArg (fun b => b.pools.at {} 0) (bpm_of_answer heff)
  have hmoved : (t.pool 0).cache = 3 := (congrArg Pool.cache hpool).trans ringGapState_moved
  exact absurd (hmoved.symm.trans hcache) (by decide)

end Sys2Proof

/-! ## A release under a generation of more than 12 bits (R280, R287)

A generation has 12 bits. The operand of a release is a natural number that nothing in the statement bounds, and from 2^15 on it
reaches bit 31 of the capture word. -/

namespace Sys2Proof.Machine

/-- The word that captures a refused release of cell `h` under generation `gen`. -/
def State.refusedWord (s : State) (h gen : Nat) : Word :=
  word (2 ^ 31 + b2n (!(s.cell h).alloc) * 2 ^ 28 + gen * 2 ^ 16 + (s.cell h).gen)

/-- A release that names an unallocated cell, or one under another generation, is refused. -/
theorem releaseByName_of_stale {s : State} {h gen : Nat} (hstale : (s.cell h).alloc = false ∨ (s.cell h).gen ≠ gen) :
    s.releaseByName h gen none = s.refuseRelease h gen := by
  unfold State.releaseByName State.staleCell
  simp only [if_pos hstale]

/-- The first refused release is captured. -/
theorem refuseRelease_captured {s : State} {h gen : Nat} (hfree : s.b (bpmA 0x104) 31 = false) :
    (s.refuseRelease h gen).rd (bpmA 0x104) = s.refusedWord h gen := by
  have hfree' : (s.bump (bpmA 0x118)).b (bpmA 0x104) 31 = false := by
    unfold State.b
    rw [rd_bump_ne _ (by decide)]
    exact hfree
  unfold State.refuseRelease
  dsimp only
  rw [if_neg (by rw [hfree']; decide), rd_report_ne _ _ _ _ _ _ _ (by decide), rd_wr_ne _ _ (by decide), rd_wr_same]
  rfl

/-- A running device with BPM enabled and no cell allocated. -/
def idleBpmState : State :=
  { pmu := { por := true, enCore := true }, hif := { linkUp := true }, regs := [(topA 0x048, 2), (bpmA 0x044, 1)] }

/-- Bit 31 of the word and bit 15 of the generation add up to 0. -/
theorem idleBpmState_refusedWord : bit (idleBpmState.refusedWord 3 (2 ^ 15)) 31 = false := by decide +kernel

end Sys2Proof.Machine

namespace Sys2Proof

open Sys2Proof.Machine

/-- Refutes O36: its clause on a stale release does not bound the generation that the release names. `idleBpmState` meets the
hypotheses with cell 3 and generation 2^15: BPM_STALE_CAP0 takes a word whose bit 31 is 0, where the clause has 1. Such an
operand is no generation of R280 and not well-formed (`Instr.wf` asks for one below 4,096); with one that is, the bit is 1. -/
theorem not_cellsAreReleasedAndSwept : ¬ Obligations.CellsAreReleasedAndSwept := by
  unfold Obligations.CellsAreReleasedAndSwept
  rintro ⟨-, hrefuse, -⟩
  have hgen : (idleBpmState.cell 3).gen ≠ 2 ^ 15 := by decide +kernel
  have hfree : idleBpmState.b (bpmA 0x104) 31 = false := by decide +kernel
  obtain ⟨t, ht, -, hvalid, -⟩ := hrefuse idleBpmState 3 (2 ^ 15) hgen hfree
  have heff : answer idleBpmState (idleBpmState.releaseByName 3 (2 ^ 15) none) = .next t := ht
  rw [releaseByName_of_stale (.inr hgen)] at heff
  have hclear : t.b (bpmA 0x104) 31 = false := by
    unfold State.b
    rw [rd_of_answer heff (by decide), refuseRelease_captured hfree]
    exact idleBpmState_refusedWord
  exact absurd (hvalid.symm.trans hclear) (by decide)

end Sys2Proof

/-! ## What a command of HBC may change (R294 to R302)

A command of a stack changes registers, what BPM and HBC keep beside them, bytes of HBM, what copies know of their cells, and the
repair queue. -/

namespace Sys2Proof.Machine

theorem RegStep.bpm {xs : List Nat} {s t : State} (h : RegStep xs s t) : t.bpm = s.bpm := by
  obtain ⟨⟨_, _, _, _, _, _, _, _, rfl⟩, _⟩ := h
  rfl

theorem RegStep.hbm {xs : List Nat} {s t : State} (h : RegStep xs s t) : t.hbm = s.hbm := by
  obtain ⟨⟨_, _, _, _, _, _, _, _, rfl⟩, _⟩ := h
  rfl

/-- A register of a stack, or of a page before it and past the STA page. -/
theorem RegStep.pastSta_rd {xs : List Nat} {s t : State} (h : RegStep xs s t) {a : Nat} (ha : 0xA000 ≤ a) (hx : a ∉ xs) :
    t.rd a = s.rd a :=
  h.regs a hx (pastSta_not_mem_quietRegs ha).1 (pastSta_not_mem_quietRegs ha).2

theorem hbcA_pastSta (k o : Nat) : 0xA000 ≤ hbcA k o := by
  unfold hbcA
  omega

/-- From `s` to `t` a change as in `RegStep`, beside one of the state of BPM and HBC, of HBM and of the copies. -/
def HbmStep (xs : List Nat) (s t : State) : Prop :=
  ∃ bpm hbm copies, RegStep xs { s with bpm := bpm, hbm := hbm, copies := copies } t

theorem RegStep.hbmStep {xs : List Nat} {s t : State} (h : RegStep xs s t) : HbmStep xs s t := ⟨s.bpm, s.hbm, s.copies, h⟩

namespace HbmStep

variable {xs ys : List Nat} {s t u : State}

theorem refl (s : State) : HbmStep xs s s := (RegStep.refl s).hbmStep

theorem trans (h1 : HbmStep xs s t) (h2 : HbmStep xs t u) : HbmStep xs s u := by
  obtain ⟨b1, m1, c1, ⟨_, _, _, _, _, _, _, _, rfl⟩, r1, e1⟩ := h1
  obtain ⟨b2, m2, c2, ⟨_, _, _, _, _, _, _, _, rfl⟩, r2, e2⟩ := h2
  exact ⟨b2, m2, c2, ⟨_, _, _, _, _, _, _, _, rfl⟩, fun a ha hw hc => (r2 a ha hw hc).trans (r1 a ha hw hc),
    fun page code h => e2 page code (e1 page code h)⟩

theorem mono (h : HbmStep xs s t) (hx : xs ⊆ ys) : HbmStep ys s t := by
  obtain ⟨b, m, c, h⟩ := h
  exact ⟨b, m, c, h.mono hx⟩

theorem step (h : HbmStep xs s t) (hr : RegStep xs t u) : HbmStep xs s u := h.trans hr.hbmStep

theorem setBpm (h : HbmStep xs s t) (b : Bpm) : HbmStep xs s { t with bpm := b } :=
  h.trans ⟨b, t.hbm, t.copies, .refl _⟩

theorem setHbm (h : HbmStep xs s t) (m : SMap Byte) : HbmStep xs s { t with hbm := m } :=
  h.trans ⟨t.bpm, m, t.copies, .refl _⟩

theorem setCopies (h : HbmStep xs s t) (c : SMap Copy) : HbmStep xs s { t with copies := c } :=
  h.trans ⟨t.bpm, t.hbm, c, .refl _⟩

theorem pending (h : HbmStep xs s t) : t.pending = s.pending := by
  obtain ⟨_, _, _, ⟨_, _, _, _, _, _, _, _, rfl⟩, _⟩ := h
  rfl

theorem regsBut (h : HbmStep xs s t) : RegsBut xs s t := by
  obtain ⟨_, _, _, h⟩ := h
  exact h.regs

theorem pastSta_rd (h : HbmStep xs s t) {a : Nat} (ha : 0xA000 ≤ a) (hx : a ∉ xs) : t.rd a = s.rd a :=
  h.regsBut a hx (pastSta_not_mem_quietRegs ha).1 (pastSta_not_mem_quietRegs ha).2

theorem winKept (h : HbmStep xs s t) : WinKept s t := by
  obtain ⟨_, _, _, ⟨_, _, _, _, _, _, _, _, rfl⟩, _⟩ := h
  exact fun _ => rfl

theorem hostBut (h : HbmStep xs s t) : HostBut 0 0 s t := by
  obtain ⟨_, _, _, ⟨_, _, _, _, _, _, _, _, rfl⟩, _⟩ := h
  exact fun _ _ => rfl

theorem sramBut (h : HbmStep xs s t) : SramBut 0 0 s t := by
  obtain ⟨_, _, _, ⟨_, _, _, _, _, _, _, _, rfl⟩, _⟩ := h
  exact fun _ _ => rfl

/-- HBM reads as it did when its bytes and the places of fresh descriptors stand. -/
theorem memKept (h : HbmStep xs s t) (hbm : t.hbm = s.hbm) (hdescs : t.bpm.descs = s.bpm.descs) : MemKept s t := by
  have hread : ∀ a, t.hbmRd a 1 = s.hbmRd a 1 := fun a => by
    have hbase : t.hbmBase = s.hbmBase := by funext x; simp only [State.hbmBase, hdescs]
    simp only [State.hbmRd, hbm, hbase]
  obtain ⟨_, _, _, ⟨_, _, _, _, _, _, _, _, rfl⟩, _⟩ := h
  exact fun a => ⟨rfl, hread a, rfl, rfl, rfl⟩

/-- An effect that is a step of HBC is answered with nothing but a quiet change beside it. -/
theorem answered (h : HbmStep xs s t) : ∃ u, answer s t = .next u ∧ RegStep [] t u ∧ HbmStep xs s u := by
  obtain ⟨u, hu, hq, _, hr⟩ := exists_answerOf h.pending
  have hquiet : RegStep [] t u := (RegStep.refl t).quiet hq hr
  exact ⟨u, hu, hquiet, h.step (hquiet.mono (List.nil_subset _))⟩

end HbmStep

/-- An effect on registers alone leaves windows, memories and the state of BPM and HBC in the answer. -/
theorem RegStep.answered {xs : List Nat} {s t : State} (h : RegStep xs s t) :
    ∃ u, answer s t = .next u ∧ RegStep [] t u ∧ u.bpm = s.bpm ∧ RegsBut xs s u ∧ WinKept s u ∧ MemKept s u := by
  obtain ⟨u, hu, hquiet, hstep⟩ := h.hbmStep.answered
  have hbpm : u.bpm = s.bpm := hquiet.bpm.trans h.bpm
  exact ⟨u, hu, hquiet, hbpm, hstep.regsBut, hstep.winKept,
    hstep.memKept (hquiet.hbm.trans h.hbm) (congrArg Bpm.descs hbpm)⟩

/-- A register of a stack reads in the answer as the command's effect left it. -/
theorem RegStep.hbc_rd {s t : State} (h : RegStep [] s t) (k o : Nat) : t.rd (hbcA k o) = s.rd (hbcA k o) :=
  h.pastSta_rd (hbcA_pastSta k o) List.not_mem_nil

/-! ### Writes to HBC_CTL (R307) -/

/-- An accepted write to a far page, from its issue to its completion, stores its fields and has its effect; then watchpoints see
it. -/
theorem hostFar_accepted {s : State} {addr : Nat} {data : Word} (eff : RegReq → State → State) (h : s.accepts addr data) :
    s.hostFar addr data eff =
      (eff (resolve addr data) (s.storeReg (resolve addr data))).watch 0 0 (resolve addr data).addr := by
  unfold State.hostFar
  simp only [h.1, h.2, Bool.true_eq_false, if_false, ne_eq, not_true_eq_false]

/-- The request that a write of 1 to HBC_CTL makes. -/
abbrev hbcEnableReq (k : Nat) : RegReq := ⟨0x98 + k, 0x044, maskOf 31 0, 1⟩

theorem resolve_hbcEnable (k : Fin 2) : resolve (hbcA k.val 0x044) 1 = hbcEnableReq k.val := by
  revert k
  decide

theorem hbcEnableReq_addr (k : Nat) : (hbcEnableReq k).addr = hbcA k 0x044 := by
  show (0x98 + k) * 0x1000 + 0x044 = 0x98000 + k * 0x1000 + 0x044
  omega

theorem hbcEnableReq_desc (k : Fin 2) : (hbcEnableReq k.val).desc = reg "HBC_CTL" 0x044 0 [fRWL 0 0] := by
  revert k
  decide +kernel

theorem hbcEnable_word (old : Word) (k : Nat) :
    bit (writeWord (reg "HBC_CTL" 0x044 0 [fRWL 0 0]) old (hbcEnableReq k)) 0 = true := by
  have hfield : writeWord (reg "HBC_CTL" 0x044 0 [fRWL 0 0]) old (hbcEnableReq k) = setFld old 0 0 (fld (hbcEnableReq k).val 0 0) :=
    fieldWrite_rwl old (hbcEnableReq k) (by decide) (by decide) rfl
  rw [hfield, bit, setFld_getLsbD _ _ _ _ _ (by decide) (by decide), if_pos (by decide), fld_testBit]
  show (decide (0 < 1) && (1 : Word).getLsbD 0) = true
  decide

/-- An accepted write of HBC_CTL.en 1 writes that register, and its bit reads 1. -/
theorem hbmStackEnable_accepted {s : State} {k : Fin 2} (h : s.accepts (hbcA k.val 0x044) 1) :
    RegStep [hbcA k.val 0x044] s (s.hostFar (hbcA k.val 0x044) 1 (fun _ s => s)) ∧
      (s.hostFar (hbcA k.val 0x044) 1 (fun _ s => s)).b (hbcA k.val 0x044) 0 = true := by
  rw [hostFar_accepted _ h, resolve_hbcEnable, State.storeReg, hbcEnableReq_addr, hbcEnableReq_desc]
  refine ⟨((RegStep.refl s).wr _ (List.mem_singleton_self _)).watch 0 0 _, ?_⟩
  unfold State.b
  rw [((RegStep.refl _).watch 0 0 _).hbc_rd, rd_wr_same, hbcEnable_word]

/-! ### Commands issued to a pseudo-channel (R297, R299) -/

/-- Note the row (plus 1) that a bank has open, by slot × 64 + bank; 0 when none is. -/
def State.setRow (s : State) (k row : Nat) : State := { s with bpm := { s.bpm with openRow := s.bpm.openRow.put 0 k row } }

@[simp] theorem setRow_openRow (s : State) (k row : Nat) : (s.setRow k row).bpm.openRow.at 0 k = row :=
  SMap.at_put_same s.bpm.openRow 0 k row

@[simp] theorem hbmCmd_openRow (s : State) (u code bank x : Nat) : (s.hbmCmd u code bank x).bpm.openRow = s.bpm.openRow := rfl

/-- The newest command of a slot stands first. -/
theorem hbmCmd_head (s : State) (u code bank x : Nat) :
    ((s.hbmCmd u code bank x).bpm.cmds.at [] u).head? = some (code * 2 ^ 28 + bank * 2 ^ 16 + x) :=
  congrArg List.head? (SMap.at_put_same s.bpm.cmds [] u (((code * 2 ^ 28 + bank * 2 ^ 16 + x) :: s.bpm.cmds.at [] u).take 4))

/-- From `s` to `t` only rows have been opened or closed, and commands noted. -/
def IssueStep (s t : State) : Prop := ∃ openRow cmds, t = { s with bpm := { s.bpm with openRow := openRow, cmds := cmds } }

namespace IssueStep

variable {s t : State}

theorem refl (s : State) : IssueStep s s := ⟨_, _, rfl⟩

theorem hbmCmd (h : IssueStep s t) (u code bank x : Nat) : IssueStep s (t.hbmCmd u code bank x) := by
  obtain ⟨_, _, rfl⟩ := h
  exact ⟨_, _, rfl⟩

theorem setRow (h : IssueStep s t) (k row : Nat) : IssueStep s (t.setRow k row) := by
  obtain ⟨_, _, rfl⟩ := h
  exact ⟨_, _, rfl⟩

theorem ite {c : Prop} [Decidable c] {u : State} (h1 : IssueStep s t) (h2 : IssueStep s u) : IssueStep s (if c then t else u) := by
  split
  · exact h1
  · exact h2

theorem hbmStep (h : IssueStep s t) : HbmStep [] s t := by
  obtain ⟨_, _, rfl⟩ := h
  exact (HbmStep.refl s).setBpm _

theorem hbmQ (h : IssueStep s t) : t.bpm.hbmQ = s.bpm.hbmQ := by obtain ⟨_, _, rfl⟩ := h; rfl
theorem cells (h : IssueStep s t) : t.bpm.cells = s.bpm.cells := by obtain ⟨_, _, rfl⟩ := h; rfl
theorem descs (h : IssueStep s t) : t.bpm.descs = s.bpm.descs := by obtain ⟨_, _, rfl⟩ := h; rfl
theorem hbm (h : IssueStep s t) : t.hbm = s.hbm := by obtain ⟨_, _, rfl⟩ := h; rfl

end IssueStep

/-- A refresh of a live slot's bank precharges an open row and closes it; the refresh is the slot's newest command. -/
theorem refreshBank_live {s : State} {u : Nat} (b : Nat) (hlive : s.slotLive u = true) :
    s.refreshBank u b =
      ((if s.bpm.openRow.at 0 (u * 64 + b) = 0 then s else s.hbmCmd u 4 b 0).setRow (u * 64 + b) 0).hbmCmd u 5 b 0 := by
  unfold State.refreshBank
  rw [if_neg (by rw [hlive]; decide)]
  rfl

theorem refreshBank_step {s : State} {u : Nat} (b : Nat) (hlive : s.slotLive u = true) : IssueStep s (s.refreshBank u b) := by
  rw [refreshBank_live b hlive]
  exact ((IssueStep.ite (.refl s) ((IssueStep.refl s).hbmCmd _ _ _ _)).setRow _ _).hbmCmd _ _ _ _

/-- The row of a request is open in its bank: another one is precharged, and the row activated when it was not open. -/
def State.rowOpened (s : State) (u : Nat) (r : HbmReq) : State :=
  let b := s.hbmBank r.addr
  let now := s.bpm.openRow.at 0 (u * 64 + b)
  let s := if now ≠ 0 ∧ now ≠ hbmRow r.addr + 1 then s.hbmCmd u 4 b 0 else s
  let s := if now = hbmRow r.addr + 1 then s else s.hbmCmd u 1 b (hbmRow r.addr)
  s.setRow (u * 64 + b) (hbmRow r.addr + 1)

theorem hbmIssue_eq (s : State) (u : Nat) (r : HbmReq) :
    s.hbmIssue u r = (s.rowOpened u r).hbmCmd u (if r.write then 3 else 2) (s.hbmBank r.addr) (hbmCol r.addr) := rfl

theorem hbmIssue_step (s : State) (u : Nat) (r : HbmReq) : IssueStep s (s.hbmIssue u r) := by
  have hprecharged := IssueStep.ite (c := s.bpm.openRow.at 0 (u * 64 + s.hbmBank r.addr) ≠ 0 ∧
    s.bpm.openRow.at 0 (u * 64 + s.hbmBank r.addr) ≠ hbmRow r.addr + 1)
    ((IssueStep.refl s).hbmCmd u 4 (s.hbmBank r.addr) 0) (.refl s)
  exact ((IssueStep.ite hprecharged (hprecharged.hbmCmd _ _ _ _)).setRow _ _).hbmCmd _ _ _ _

/-- The row of a request is open once the request has been issued. -/
theorem hbmIssue_openRow (s : State) (u : Nat) (r : HbmReq) :
    (s.hbmIssue u r).bpm.openRow.at 0 (u * 64 + s.hbmBank r.addr) = hbmRow r.addr + 1 := by
  rw [hbmIssue_eq, hbmCmd_openRow]
  exact setRow_openRow _ _ _

/-! ### A request served (R297) -/

/-- HBC has taken a request of slot `u` and issued it. -/
def State.issued (s : State) (u : Nat) (r : HbmReq) (rest : List HbmReq) : State :=
  ((s.setHbmQueue u rest).hbmIssue u r).pmc (hbcPage (u / 32)) 4

/-- The next request of a live slot is issued; what follows rests on how it reads. -/
theorem serve_live {s : State} {u : Nat} {r : HbmReq} {rest : List HbmReq} (bad synd : Nat) (hlive : s.slotLive u = true)
    (hnext : s.nextRequest u = some (r, rest)) :
    s.serve u bad synd =
      if r.write = true ∨ bad = 0 then s.issued u r rest
      else if bad = 1 then (s.issued u r rest).corrected u r.addr
      else (s.issued u r rest).freezeSlot u 1 r.addr synd [r] := by
  unfold State.serve
  rw [if_neg (by rw [hlive]; decide), hnext]
  rfl

/-- What a slot that has issued a request shows. -/
structure RequestIssued (s t : State) (u : Nat) (r : HbmReq) (rest : List HbmReq) : Prop where
  step : HbmStep [] s t
  queue : t.bpm.hbmQ = s.bpm.hbmQ.put [] u rest
  row : t.bpm.openRow.at 0 (u * 64 + s.hbmBank r.addr) = hbmRow r.addr + 1
  cells : t.bpm.cells = s.bpm.cells
  descs : t.bpm.descs = s.bpm.descs
  hbm : t.hbm = s.hbm

theorem issued_shows (s : State) (u : Nat) (r : HbmReq) (rest : List HbmReq) : RequestIssued s (s.issued u r rest) u r rest := by
  have hissue := hbmIssue_step (s.setHbmQueue u rest) u r
  have hcount : RegStep [] ((s.setHbmQueue u rest).hbmIssue u r) (s.issued u r rest) := (RegStep.refl _).pmc _ _ _
  exact {
    step := (((HbmStep.refl s).setBpm _).trans hissue.hbmStep).step hcount
    queue := (congrArg Bpm.hbmQ hcount.bpm).trans hissue.hbmQ
    row := by rw [hcount.bpm]; exact hbmIssue_openRow (s.setHbmQueue u rest) u r
    cells := (congrArg Bpm.cells hcount.bpm).trans hissue.cells
    descs := (congrArg Bpm.descs hcount.bpm).trans hissue.descs
    hbm := hcount.hbm.trans hissue.hbm }

namespace RequestIssued

variable {s t : State} {u : Nat} {r : HbmReq} {rest : List HbmReq}

theorem hbmQueue (h : RequestIssued s t u r rest) : t.hbmQueue u = rest := by
  unfold State.hbmQueue
  rw [h.queue, SMap.at_put_same]

theorem hbc_rd (h : RequestIssued s t u r rest) (k o : Nat) : t.rd (hbcA k o) = s.rd (hbcA k o) :=
  h.step.pastSta_rd (hbcA_pastSta k o) List.not_mem_nil

end RequestIssued

theorem slotFrozen_of_rd {s t : State} {u : Nat} (h : t.rd (hbcA (u / 32) 0x068) = s.rd (hbcA (u / 32) 0x068)) :
    t.slotFrozen u = s.slotFrozen u := by
  unfold State.slotFrozen State.b
  rw [h]

theorem slotFrozen_of_live {s : State} {u : Nat} (h : s.slotLive u = true) : s.slotFrozen u = false := by
  unfold State.slotLive at h
  exact (Bool.not_eq_true' _).mp (Bool.and_eq_true_iff.mp h).2

/-! ### A corrected read (R298) -/

/-- The registers that a corrected burst may change. -/
abbrev correctedRegs (u : Nat) : List Nat := hbcA (u / 32) (0x100 + 4 * (u % 32)) :: hbcA (u / 32) 0x008 :: queueRegs

/-- The cause register of a stack's page. -/
theorem hbcPage_causes (k : Nat) : hbcPage k * 0x1000 + 8 = hbcA k 0x008 := by
  unfold hbcPage hbcA
  omega

/-- A corrected burst of slot `u` is counted, and the times of its bursts are brought up to date. -/
def State.burstNoted (s : State) (u : Nat) (times : SMap (List Nat)) : State :=
  { s.bump (hbcA (u / 32) (0x100 + 4 * (u % 32))) with bpm := { s.bpm with ceAt := times } }

/-- A burst is noted; when those of the last second reach the threshold, it is reported and SPR is told. -/
theorem corrected_cases (s : State) (u a : Nat) :
    ∃ times bank, s.corrected u a = s.burstNoted u times ∨
      s.corrected u a =
        ((s.burstNoted u times).report (hbcPage (u / 32)) 1 0x6402 u bank (hbmRow a)).request 7 (64 + u) u := by
  unfold State.corrected
  dsimp only
  split
  · exact ⟨_, _, .inr rfl⟩
  · exact ⟨_, 0, .inl rfl⟩

theorem burstNoted_step (s : State) (u : Nat) (times : SMap (List Nat)) : HbmStep (correctedRegs u) s (s.burstNoted u times) :=
  (((RegStep.refl s).bump List.mem_cons_self).hbmStep).setBpm _

/-- What a corrected burst of slot `u` leaves. -/
structure BurstCounted (s t : State) (u : Nat) : Prop where
  step : HbmStep (correctedRegs u) s t
  count : t.rd (hbcA (u / 32) (0x100 + 4 * (u % 32))) = word (satAdd 32 (s.rd (hbcA (u / 32) (0x100 + 4 * (u % 32)))).toNat 1)
  hbmQ : t.bpm.hbmQ = s.bpm.hbmQ
  descs : t.bpm.descs = s.bpm.descs
  hbm : t.hbm = s.hbm

/-- No register of the repair queue, nor the causes of its page, is a slot's counter of corrected bursts. -/
theorem burstCounter_not_mem (u : Nat) : hbcA (u / 32) (0x100 + 4 * (u % 32)) ∉ hbcA (u / 32) 0x008 :: queueRegs := by
  simp only [hbcA, sprA, List.mem_cons, List.not_mem_nil, or_false]
  omega

theorem freezeSum_not_mem_correctedRegs (u : Nat) : hbcA (u / 32) 0x068 ∉ correctedRegs u := by
  simp only [hbcA, sprA, List.mem_cons, List.not_mem_nil, or_false]
  omega

theorem corrected_counts (s : State) (u a : Nat) : BurstCounted s (s.corrected u a) u := by
  have hrest : ∀ (t : State) (bank : Nat), RegStep (hbcA (u / 32) 0x008 :: queueRegs) t
      ((t.report (hbcPage (u / 32)) 1 0x6402 u bank (hbmRow a)).request 7 (64 + u) u) := fun t bank =>
    ((RegStep.refl t).report 1 0x6402 u bank (hbmRow a) 0 (by rw [hbcPage_causes]; exact List.mem_cons_self)).request 7 (64 + u) u
      (List.subset_cons_self _ _)
  have hnoted : ∀ times, (s.burstNoted u times).rd (hbcA (u / 32) (0x100 + 4 * (u % 32))) =
      word (satAdd 32 (s.rd (hbcA (u / 32) (0x100 + 4 * (u % 32)))).toNat 1) := fun _ => rd_bump_same _ _
  obtain ⟨times, bank, h | h⟩ := corrected_cases s u a <;> rw [h]
  · exact ⟨burstNoted_step s u times, hnoted times, rfl, rfl, rfl⟩
  · have hr := hrest (s.burstNoted u times) bank
    exact ⟨(burstNoted_step s u times).step (hr.mono (List.subset_cons_self _ _)),
      (hr.pastSta_rd (hbcA_pastSta _ _) (burstCounter_not_mem u)).trans (hnoted times),
      (congrArg Bpm.hbmQ hr.bpm).trans rfl, (congrArg Bpm.descs hr.bpm).trans rfl, hr.hbm⟩

/-! ### Requests that a freeze discards (R299, R300) -/

/-- No request waits for slot `u`. -/
def State.noRequests (s : State) (u : Nat) : Prop := ∀ q ∈ s.bpm.hbmQ, q.1 ≠ u

theorem hbmQueue_of_noRequests {s : State} {u : Nat} (h : s.noRequests u) : s.hbmQueue u = [] := by
  refine Decidable.byContradiction (fun hne => ?_)
  obtain ⟨q, hq, hkey⟩ := atF_ne (fun _ => []) s.bpm.hbmQ u hne
  exact h q hq hkey

theorem noRequests_setHbmQueue_nil (s : State) (u : Nat) : (s.setHbmQueue u []).noRequests u := by
  intro q hq
  have hq : q ∈ SMap.putF (fun _ => []) s.bpm.hbmQ u [] := hq
  unfold SMap.putF at hq
  rw [if_pos rfl] at hq
  exact of_decide_eq_true (List.mem_filter.mp hq).2

/-- A request for another slot is none for slot `u`. -/
theorem noRequests_setHbmQueue_ne {s : State} {u v : Nat} (l : List HbmReq) (h : s.noRequests u) (hv : v ≠ u) :
    (s.setHbmQueue v l).noRequests u := by
  intro q hq
  have hq : q ∈ SMap.putF (fun _ => []) s.bpm.hbmQ v l := hq
  unfold SMap.putF at hq
  split at hq
  · exact h q (List.mem_filter.mp hq).1
  · obtain rfl | hq := SMap.ins_mem v l _ q hq
    · exact hv
    · exact h q (List.mem_filter.mp hq).1

/-- The registers that the requests discarded by a freeze may change. -/
abbrev discardRegs : List Nat := [bpmA 0x11C, mirA 0x080, mirA 0x088, mirA 0x008, staA 0x008]

/-- Slot `u` has been frozen, no request waits for it, and of the registers only those listed have changed. -/
structure SlotShut (xs : List Nat) (s t : State) (u : Nat) : Prop where
  step : HbmStep xs s t
  frozen : t.slotFrozen u = true
  empty : t.noRequests u

namespace SlotShut

variable {xs : List Nat} {s t w : State} {u : Nat}

/-- A change that leaves the stack's freeze bits and requests. -/
theorem reg {ys : List Nat} (h : SlotShut xs s t u) (hr : RegStep ys t w) (hsub : ys ⊆ xs) (hx : hbcA (u / 32) 0x068 ∉ ys) :
    SlotShut xs s w u where
  step := h.step.step (hr.mono hsub)
  frozen := (slotFrozen_of_rd (hr.pastSta_rd (hbcA_pastSta _ _) hx)).trans h.frozen
  empty := by
    unfold State.noRequests
    rw [hr.bpm]
    exact h.empty

/-- A frozen slot takes no request. -/
theorem hbmRequest (h : SlotShut xs s t u) (a : Nat) (write : Bool) (old : List Byte) (by_ : HbmUser) :
    SlotShut xs s (t.hbmRequest a write old by_) u := by
  unfold State.hbmRequest
  dsimp only
  split
  · exact h
  · next hopen =>
    have hslot : hbmSlot a ≠ u := fun e => hopen (by rw [e]; exact h.frozen)
    exact ⟨h.step.setBpm _, h.frozen, noRequests_setHbmQueue_ne _ h.empty hslot⟩

theorem bumpRise (h : SlotShut xs s t u) (hm : discardRegs ⊆ xs) (hx : hbcA (u / 32) 0x068 ∉ xs) :
    SlotShut xs s (t.bumpRise (mirA 0x088) mirPage 2 0x6003) u := by
  have hcounted := (RegStep.refl (xs := xs) t).bump (a := mirA 0x088) (hm (by decide))
  unfold State.bumpRise State.onRise
  split
  · exact h
  split
  · exact h.reg hcounted (List.Subset.refl _) hx
  · exact h.reg (hcounted.report 2 0x6003 0 0 0 0 (hm (by decide))) (List.Subset.refl _) hx

theorem countTwin (h : SlotShut xs s t u) (cid c : Nat) (hm : bpmA 0x11C ∈ xs) (hx : hbcA (u / 32) 0x068 ∉ xs) :
    SlotShut xs s (t.countTwin cid c) u := by
  unfold State.countTwin
  dsimp only
  split
  · exact h
  · have hcounted := h.reg ((RegStep.refl t).bump hm) (List.Subset.refl _) hx
    exact ⟨hcounted.step.setCopies _, hcounted.frozen, hcounted.empty⟩

theorem readImage (h : SlotShut xs s t u) (cid c : Nat) (hm : bpmA 0x11C ∈ xs) (hx : hbcA (u / 32) 0x068 ∉ xs) :
    SlotShut xs s (t.readImage cid c) u := by
  unfold State.readImage
  split
  · exact h
  · split
    · exact h
    · refine hbmRequest ?_ _ _ _ _
      split
      · exact h
      · exact h.countTwin cid c hm hx

/-- The loss of a capture record (R375). -/
theorem capUndo (h : SlotShut xs s t u) (i : Nat) (old : List Byte) (hm : discardRegs ⊆ xs) (hx : hbcA (u / 32) 0x068 ∉ xs) :
    SlotShut xs s (t.capUndo i old) u := by
  have hrestored : SlotShut xs s (forEach ((t.capPlace i).zip old) t (fun s x => s.hbmWr x.1.2 [x.2])) u :=
    forEach_keeps (fun v => SlotShut xs s v u) _ _ _ h (fun v _ _ hv => ⟨hv.step.setHbm _, hv.frozen, hv.empty⟩)
  unfold State.capUndo
  dsimp only
  generalize forEach _ t _ = v at hrestored ⊢
  have hkept : ∀ q : SMap (List HbmReq), (∀ x ∈ q, x.1 ≠ u) → SlotShut xs s { v with bpm := { v.bpm with hbmQ := q } } u :=
    fun q hq => ⟨hrestored.step.setBpm _, hrestored.frozen, hq⟩
  refine ((hkept _ (fun x hmem => ?_)).reg ((RegStep.refl _).wr _ (hm (by decide)))
    (List.Subset.refl _) hx).bumpRise hm hx
  obtain ⟨y, hy, rfl⟩ := List.mem_map.mp (List.mem_filter.mp hmem).1
  exact hrestored.empty y hy

end SlotShut

theorem undoWrites_step {xs : List Nat} {s t : State} {u : Nat} (h : HbmStep xs s t) (hfrozen : t.slotFrozen u = true)
    (q : List HbmReq) : HbmStep xs s (t.undoWrites q) ∧ (t.undoWrites q).slotFrozen u = true := by
  refine forEach_keeps (fun v => HbmStep xs s v ∧ v.slotFrozen u = true) _ _ _ ⟨h, hfrozen⟩ (fun v r _ hv => ?_)
  split
  · exact ⟨hv.1.setHbm _, hv.2⟩
  · exact hv

/-- Discarding the requests of a frozen slot leaves none waiting for it. -/
theorem discardQueue_shut {xs : List Nat} {s t : State} {u : Nat} (h : HbmStep xs s t) (hfrozen : t.slotFrozen u = true)
    (more : List HbmReq) (hm : discardRegs ⊆ xs) (hx : hbcA (u / 32) 0x068 ∉ xs) : SlotShut xs s (t.discardQueue u more) u := by
  obtain ⟨hundone, hstill⟩ := undoWrites_step h hfrozen (more ++ t.hbmQueue u)
  unfold State.discardQueue
  refine forEach_keeps (fun v => SlotShut xs s v u) _ _ _
    ⟨hundone.setBpm _, hstill, noRequests_setHbmQueue_nil _ u⟩ (fun v x _ hv => ?_)
  cases x with
  | other => exact hv
  | copy cid h => exact hv.readImage cid h (hm (by decide)) hx
  | capture i old => exact hv.capUndo i old hm hx
  | archive n => exact hv.reg ((RegStep.refl v).report 19 0x2413 0 0 0 0 (hm (by decide))) (List.Subset.refl _) hx

/-! ### A slot freezes (R299) -/

/-- The last four commands of a slot are captured. -/
def State.cmdsCaptured (s : State) (u : Nat) : State :=
  forEach (List.range 4) s (fun s c =>
    s.wr (hbcA (u / 32) (0x400 + 16 * (u % 32) + 4 * c)) (word ((s.bpm.cmds.at [] u).getD c 0)))

/-- The first freeze of a slot is captured: its cause, the requests queued, and by cause 1 the place and the syndrome. -/
def State.freezeCaptured (s : State) (u kind a synd : Nat) : State :=
  let t := u / 32
  let i := u % 32
  if s.b (hbcA t (0x180 + 4 * i)) 31 then s
  else
    let s := s.wr (hbcA t (0x180 + 4 * i)) (word (2 ^ 31 + kind * 2 ^ 24 + min 64 (s.hbmQueue u).length))
    let s := s.wr (hbcA t (0x200 + 4 * i)) (word (if kind = 1 then hbmRow a * 2 ^ 16 + s.hbmBank a * 256 + hbmCol a else 0))
    let s := s.wr (hbcA t (0x280 + 4 * i)) (word (if kind = 1 then synd else 0))
    s.cmdsCaptured u

/-- The slot's sum bit sets, its requests are discarded, and the freeze is reported. -/
def State.freezeShut (s : State) (u : Nat) (more : List HbmReq) : State :=
  ((s.setB (hbcA (u / 32) 0x068) (u % 32) true).discardQueue u more).report (hbcPage (u / 32)) 0 0x6401

/-- The slot is no longer being retired; its region is declared faulty; and when it holds no cell it is drained. -/
def State.freezeDeclared (s : State) (u row : Nat) : State :=
  let s := { s with bpm := { s.bpm with retiring := s.bpm.retiring.filter (fun x => decide (x ≠ u)) } }.pmc (hbcPage (u / 32)) 7
  (if s.declareOk (64 + u) 4 then s.declareRec (64 + u) 4 u row else s).slotDrained u

theorem freezeSlot_of_thawed {s : State} {u : Nat} (kind a synd : Nat) (more : List HbmReq) (h : s.slotFrozen u = false) :
    s.freezeSlot u kind a synd more = ((s.freezeCaptured u kind a synd).freezeShut u more).freezeDeclared u (hbmRow a) := by
  unfold State.freezeSlot
  rw [if_neg (by rw [h]; decide)]
  rfl

theorem sumBy_congr {α : Type} {f g : α → Nat} {xs : List α} (h : ∀ x ∈ xs, f x = g x) : sumBy f xs = sumBy g xs := by
  have hfold : ∀ n, xs.foldl (fun a x => a + f x) n = xs.foldl (fun a x => a + g x) n := by
    induction xs with
    | nil => exact fun _ => rfl
    | cons x xs ih =>
      intro n
      rw [List.foldl_cons, List.foldl_cons, h x List.mem_cons_self]
      exact ih (fun y hy => h y (List.mem_cons_of_mem _ hy)) _
  exact hfold 0

/-- The bank of an address rests on the bank masks. -/
theorem hbmBank_of_rd {s t : State} (h : ∀ k, ∀ b < 6, t.rd (hbcA k (0x048 + 4 * b)) = s.rd (hbcA k (0x048 + 4 * b))) (a : Nat) :
    t.hbmBank a = s.hbmBank a := by
  unfold State.hbmBank
  refine sumBy_congr (fun b hb => ?_)
  dsimp only
  rw [h _ b (List.mem_range.mp hb)]

/-- The registers that capture a freeze of slot `u`. -/
abbrev freezeCapRegs (u : Nat) : List Nat :=
  [hbcA (u / 32) (0x180 + 4 * (u % 32)), hbcA (u / 32) (0x200 + 4 * (u % 32)), hbcA (u / 32) (0x280 + 4 * (u % 32))] ++
    (List.range 4).map (fun c => hbcA (u / 32) (0x400 + 16 * (u % 32) + 4 * c))

theorem cmdsCaptured_step {xs : List Nat} {s t : State} {u : Nat} (h : RegStep xs s t) (hx : freezeCapRegs u ⊆ xs) :
    RegStep xs s (t.cmdsCaptured u) :=
  forEach_keeps (fun v => RegStep xs s v) _ _ _ h
    (fun _ _ hc hv => hv.wr _ (hx (List.mem_append_right _ (List.mem_map_of_mem hc))))

/-- The capture of the commands leaves the registers before it. -/
theorem cmdsCaptured_rd (s : State) (u : Nat) {o : Nat} (ho : o < 0x400) :
    (s.cmdsCaptured u).rd (hbcA (u / 32) o) = s.rd (hbcA (u / 32) o) :=
  forEach_keeps (fun v => v.rd (hbcA (u / 32) o) = s.rd (hbcA (u / 32) o)) _ _ _ rfl
    (fun v _ _ hv => (rd_wr_ne v _ (by unfold hbcA; omega)).trans hv)

theorem freezeCaptured_step (s : State) (u kind a synd : Nat) : RegStep (freezeCapRegs u) s (s.freezeCaptured u kind a synd) := by
  unfold State.freezeCaptured
  dsimp only
  split
  · exact .refl s
  · exact cmdsCaptured_step ((((RegStep.refl s).wr _ (by simp)).wr _ (by simp)).wr _ (by simp)) (List.Subset.refl _)

/-- What the capture of a freeze by an uncorrectable read holds. -/
theorem freezeCaptured_holds {s : State} {u a synd : Nat} (hclear : s.b (hbcA (u / 32) (0x180 + 4 * (u % 32))) 31 = false) :
    (s.freezeCaptured u 1 a synd).rd (hbcA (u / 32) (0x180 + 4 * (u % 32))) =
        word (2 ^ 31 + 2 ^ 24 + min 64 (s.hbmQueue u).length) ∧
      (s.freezeCaptured u 1 a synd).rd (hbcA (u / 32) (0x200 + 4 * (u % 32))) =
        word (hbmRow a * 2 ^ 16 + s.hbmBank a * 256 + hbmCol a) ∧
      (s.freezeCaptured u 1 a synd).rd (hbcA (u / 32) (0x280 + 4 * (u % 32))) = word synd := by
  have hne : ∀ o o', o ≠ o' → hbcA (u / 32) o ≠ hbcA (u / 32) o' := fun o o' h e => h (Nat.add_left_cancel e)
  have hbank : ∀ w, (s.wr (hbcA (u / 32) (0x180 + 4 * (u % 32))) w).hbmBank a = s.hbmBank a := fun w =>
    hbmBank_of_rd (fun k b hb => rd_wr_ne s w (by unfold hbcA; omega)) a
  unfold State.freezeCaptured
  dsimp only
  rw [if_neg (by rw [hclear]; decide), cmdsCaptured_rd _ _ (by omega), cmdsCaptured_rd _ _ (by omega),
    cmdsCaptured_rd _ _ (by omega), hbank]
  refine ⟨?_, ?_, rd_wr_same _ _ _⟩
  · rw [rd_wr_ne _ _ (hne _ _ (by omega)), rd_wr_ne _ _ (hne _ _ (by omega)), rd_wr_same, Nat.one_mul]
  · rw [rd_wr_ne _ _ (hne _ _ (by omega)), rd_wr_same]
    rfl

/-- The registers by which a freeze of slot `u` shows beside its capture. -/
abbrev freezeRegs (u : Nat) : List Nat :=
  [hbcA (u / 32) 0x068, hbcA (u / 32) 0x06C, hbcA (u / 32) 0x008] ++ discardRegs ++ declareRegs

theorem hbcA_not_mem_declareRegs (k o : Nat) : hbcA k o ∉ declareRegs := by
  intro hmem
  simp only [List.mem_append, List.mem_map, List.mem_range, hbcA, sprA, bpmA] at hmem
  obtain ⟨i, hi, h⟩ | ⟨i, hi, h⟩ := hmem <;> omega

/-- The capture of a freeze is none of the registers by which it shows beside. -/
theorem freezeCap_not_mem (u : Nat) {o : Nat} (ho : 0x100 ≤ o) : hbcA (u / 32) o ∉ freezeRegs u := by
  intro hmem
  obtain hmem | hmem := List.mem_append.mp hmem
  · simp only [hbcA, bpmA, mirA, staA, List.mem_append, List.mem_cons, List.not_mem_nil, or_false] at hmem
    omega
  · exact hbcA_not_mem_declareRegs _ _ hmem

/-- Slot `u` is shut, and the freeze is reported. -/
structure SlotFroze (s t : State) (u : Nat) : Prop where
  shut : SlotShut (freezeRegs u) s t u
  raised : t.raised (hbcPage (u / 32)) 0x6401

theorem SlotFroze.cap_rd {s t : State} {u : Nat} (h : SlotFroze s t u) {o : Nat} (ho : 0x100 ≤ o) :
    t.rd (hbcA (u / 32) o) = s.rd (hbcA (u / 32) o) :=
  h.shut.step.pastSta_rd (hbcA_pastSta _ _) (freezeCap_not_mem u ho)

theorem freezeShut_froze (s : State) (u : Nat) (more : List HbmReq) : SlotFroze s (s.freezeShut u more) u := by
  have hset : RegStep (freezeRegs u) s (s.setB (hbcA (u / 32) 0x068) (u % 32) true) :=
    (RegStep.refl s).setB _ _ (List.mem_cons_self)
  have hfrozen : (s.setB (hbcA (u / 32) 0x068) (u % 32) true).slotFrozen u = true := by
    unfold State.slotFrozen State.b
    rw [rd_setB_same, bit_setBit_same _ _ _ (Nat.mod_lt _ (by decide))]
  have hkeep : hbcA (u / 32) 0x068 ∉ discardRegs := by
    simp only [hbcA, bpmA, mirA, staA, List.mem_cons, List.not_mem_nil, or_false]
    omega
  have hshut := discardQueue_shut (HbmStep.refl _) hfrozen more (List.Subset.refl discardRegs) hkeep
  have hcause : hbcPage (u / 32) * 0x1000 + 8 ∈ [hbcA (u / 32) 0x008] := by rw [hbcPage_causes]; exact List.mem_cons_self
  have hreport := (RegStep.refl _).report (t := (s.setB (hbcA (u / 32) 0x068) (u % 32) true).discardQueue u more) 0 0x6401 0 0 0 0 hcause
  refine ⟨⟨(hset.hbmStep.trans (hshut.step.mono ?_)).step (hreport.mono ?_), ?_, ?_⟩, report_raised _ _ _ _⟩
  · exact fun a ha => List.mem_append_left _ (List.mem_append_right _ ha)
  · simp
  · refine (slotFrozen_of_rd (hreport.pastSta_rd (hbcA_pastSta _ _) ?_)).trans hshut.frozen
    simp [hbcA]
  · exact hshut.empty

/-! ### The declaration of a slot's region, and its draining (R301, R487) -/

/-- A declaration is captured, unless one is held, counted and reported. -/
def State.faultRecorded (s : State) (r cause where_ row : Nat) : State :=
  ((if s.b (sprA 0x058) 31 then s.bumpF (sprA 0x058) 15 0
    else (s.wr (sprA 0x058) (word (2 ^ 31 + cause * 2 ^ 24 + r * 2 ^ 16))).wr (sprA 0x05C)
      (word (row % 2 ^ 24 * 256 + where_ % 256))).bump (sprA 0x060)).report sprPage 0 0x2001 r cause

theorem faultRecorded_step (s : State) (r cause where_ row : Nat) :
    RegStep declareRegs s (s.faultRecorded r cause where_ row) := by
  unfold State.faultRecorded
  refine RegStep.report (RegStep.bump ?_ (by decide)) 0 0x2001 r cause 0 0 (by decide)
  split
  · exact (RegStep.refl s).setF _ _ _ (by decide)
  · exact ((RegStep.refl s).wr _ (by decide)).wr _ (by decide)

/-- The region of a slot takes its state; the slot asks for a spare when it is drained, not here. -/
theorem declareRec_slot (s : State) (u cause where_ row : Nat) :
    s.declareRec (64 + u) cause where_ row =
      (((s.faultRecorded (64 + u) cause where_ row).repairStopped (64 + u)).setRegion (64 + u)
        (((s.faultRecorded (64 + u) cause where_ row).repairStopped (64 + u)).faultState (64 + u))).refreshDegrade := by
  have hcritical : ¬(64 + u = 30 ∨ 64 + u = 35 ∨ 64 + u = 36) := by omega
  unfold State.declareRec State.requestFor
  dsimp only
  rw [if_neg hcritical, if_neg hcritical, if_neg (by omega), if_neg (by omega)]
  rfl

theorem declareRec_slot_step (s : State) {u : Nat} (hu : u < 64) (cause where_ row : Nat) :
    RegStep declareRegs s (s.declareRec (64 + u) cause where_ row) := by
  have hregion : sprA (0x080 + 4 * ((64 + u) / 8)) ∈ declareRegs :=
    List.mem_append_left _ (List.mem_map.mpr ⟨32 + (64 + u) / 8, List.mem_range.mpr (by omega), congrArg sprA (by omega)⟩)
  rw [declareRec_slot]
  exact ((((faultRecorded_step s _ _ _ _).trans ((repairStopped_step _ _).mono (by decide))).setF _ _ _ hregion).refreshDegrade
    (by decide))

theorem RegStep.slotDrained {xs : List Nat} {s t : State} (h : RegStep xs s t) (u : Nat)
    (hx : [hbcA (u / 32) 0x06C, hbcA (u / 32) 0x008] ++ queueRegs ⊆ xs) : RegStep xs s (t.slotDrained u) := by
  have hcause : hbcPage (u / 32) * 0x1000 + 8 ∈ xs := by
    rw [hbcPage_causes]
    exact hx (by simp)
  unfold State.slotDrained
  dsimp only
  split
  · exact ((h.setB _ _ (hx (by simp))).report 2 0x6403 0 0 0 0 hcause).request 2 (64 + u) u
      (fun a ha => hx (List.mem_append_right _ ha))
  · exact h

/-- The declaration of its region and its draining leave a slot frozen, with no request waiting. -/
theorem SlotFroze.declared {s t : State} {u : Nat} (h : SlotFroze s t u) (hu : u < 64) (row : Nat) :
    SlotFroze s (t.freezeDeclared u row) u := by
  obtain ⟨hshut, hraised⟩ := h
  have hretired : SlotShut (freezeRegs u) s
      { t with bpm := { t.bpm with retiring := t.bpm.retiring.filter (fun x => decide (x ≠ u)) } } u :=
    ⟨hshut.step.setBpm _, hshut.frozen, hshut.empty⟩
  unfold State.freezeDeclared
  dsimp only
  generalize hv : ({ t with bpm := { t.bpm with retiring := t.bpm.retiring.filter (fun x => decide (x ≠ u)) } } : State) = v
    at hretired ⊢
  have hraised : v.raised (hbcPage (u / 32)) 0x6401 := by rw [← hv]; exact hraised
  have hrest : RegStep ([hbcA (u / 32) 0x06C, hbcA (u / 32) 0x008] ++ declareRegs) v
      ((if (v.pmc (hbcPage (u / 32)) 7).declareOk (64 + u) 4 then (v.pmc (hbcPage (u / 32)) 7).declareRec (64 + u) 4 u row
        else v.pmc (hbcPage (u / 32)) 7).slotDrained u) := by
    refine RegStep.slotDrained ?_ u (List.append_subset.mpr
      ⟨List.subset_append_left _ _, List.Subset.trans (by decide) (List.subset_append_right _ declareRegs)⟩)
    split
    · exact ((RegStep.refl v).pmc _ _ _).trans ((declareRec_slot_step _ hu 4 u row).mono (List.subset_append_right _ _))
    · exact (RegStep.refl v).pmc _ _ _
  have hsub : [hbcA (u / 32) 0x06C, hbcA (u / 32) 0x008] ++ declareRegs ⊆ freezeRegs u :=
    fun a ha => (List.mem_append.mp ha).elim
      (fun hslot => List.mem_append_left _ (List.mem_append_left _ (List.mem_cons_of_mem _ hslot)))
      (List.mem_append_right _)
  have hkeep : hbcA (u / 32) 0x068 ∉ [hbcA (u / 32) 0x06C, hbcA (u / 32) 0x008] ++ declareRegs := by
    intro hmem
    obtain hmem | hmem := List.mem_append.mp hmem
    · simp [hbcA] at hmem
    · exact hbcA_not_mem_declareRegs _ _ hmem
  exact ⟨hretired.reg hrest hsub hkeep, hrest.raised _ _ hraised⟩

/-- A slot that was not frozen freezes: its requests are gone, and what captures the freeze reads as the capture left it. -/
theorem freezeSlot_froze {s : State} {u : Nat} (kind a synd : Nat) (more : List HbmReq) (hu : u < 64)
    (hthawed : s.slotFrozen u = false) : SlotFroze (s.freezeCaptured u kind a synd) (s.freezeSlot u kind a synd more) u := by
  rw [freezeSlot_of_thawed kind a synd more hthawed]
  exact (freezeShut_froze _ u more).declared hu _

/-- Slot `u` has frozen on reading request `r`, with `rest` queued behind it. -/
structure ReadLost (s t : State) (u : Nat) (r : HbmReq) (rest : List HbmReq) (synd : Word) : Prop where
  step : HbmStep (freezeCapRegs u ++ freezeRegs u) s t
  frozen : t.slotFrozen u = true
  empty : t.noRequests u
  info : t.rd (hbcA (u / 32) (0x180 + 4 * (u % 32))) = word (2 ^ 31 + 2 ^ 24 + min 64 rest.length)
  place : t.rd (hbcA (u / 32) (0x200 + 4 * (u % 32))) =
    word (hbmRow r.addr * 2 ^ 16 + s.hbmBank r.addr * 256 + hbmCol r.addr)
  syndrome : t.rd (hbcA (u / 32) (0x280 + 4 * (u % 32))) = synd
  raised : t.raised (hbcPage (u / 32)) 0x6401

/-- An uncorrectable read of a live slot, nothing having been captured of the slot. -/
theorem issued_lost {s : State} {u : Nat} {r : HbmReq} (rest : List HbmReq) (synd : Word) (hu : u < 64) (hlive : s.slotLive u = true)
    (hclear : s.b (hbcA (u / 32) (0x180 + 4 * (u % 32))) 31 = false) :
    ReadLost s ((s.issued u r rest).freezeSlot u 1 r.addr synd.toNat [r]) u r rest synd := by
  have hissued := issued_shows s u r rest
  have hcaptured := (freezeCaptured_step (s.issued u r rest) u 1 r.addr synd.toNat).hbmStep
  have hfroze := freezeSlot_froze 1 r.addr synd.toNat [r] hu
    ((slotFrozen_of_rd (hissued.hbc_rd _ _)).trans (slotFrozen_of_live hlive))
  obtain ⟨hinfo, hplace, hsynd⟩ := freezeCaptured_holds (s := s.issued u r rest) (a := r.addr) (synd := synd.toNat)
    ((congrArg (bit · 31) (hissued.hbc_rd _ _)).trans hclear)
  rw [hissued.hbmQueue] at hinfo
  rw [hbmBank_of_rd (fun k _ _ => hissued.hbc_rd k _)] at hplace
  rw [word, BitVec.ofNat_toNat, BitVec.setWidth_eq] at hsynd
  exact {
    step := ((hissued.step.mono (List.nil_subset _)).trans (hcaptured.mono (List.subset_append_left _ _))).trans
      (hfroze.shut.step.mono (List.subset_append_right _ _))
    frozen := hfroze.shut.frozen
    empty := hfroze.shut.empty
    info := (hfroze.cap_rd (by omega)).trans hinfo
    place := (hfroze.cap_rd (by omega)).trans hplace
    syndrome := (hfroze.cap_rd (by omega)).trans hsynd
    raised := hfroze.raised }

/-! ### The temperature of a stack (R297) -/

theorem stackTemp_step (s : State) (k : Nat) (temp : BitVec 8) : RegStep [hbcA k 0x040] s (s.stackTemp k temp) :=
  ((RegStep.refl s).setF _ _ _ (List.mem_singleton_self _)).setB _ _ (List.mem_singleton_self _)

theorem stackTemp_shows (s : State) (k : Nat) (temp : BitVec 8) :
    (s.stackTemp k temp).f (hbcA k 0x040) 15 8 = temp.toNat ∧
      (s.stackTemp k temp).b (hbcA k 0x040) 16 = decide (85 ≤ temp.toInt) := by
  unfold State.stackTemp State.f State.b
  rw [rd_setB_same, rd_setF_same, fld_setBit_ne _ _ _ _ _ (by decide) (by decide), bit_setBit_same _ _ _ (by decide),
    fld_setFld_same _ _ _ _ (by decide) (by decide)]
  exact ⟨Nat.mod_eq_of_lt temp.isLt, rfl⟩

end Sys2Proof.Machine

namespace Sys2Proof

open Sys2Proof.Machine

/-- Settles O37, command by command. A request served is issued first (`RequestIssued`); a corrected read is then counted
(`BurstCounted`), and an uncorrectable one freezes its slot (`ReadLost`). -/
theorem hbmStacksServe : Obligations.HbmStacksServe := by
  unfold Obligations.HbmStacksServe
  refine ⟨?enable, ?initDone, ?refresh, ?good, ?corrected, ?uncorrectable, ?temperature⟩
  case enable =>
    intro s k haccepts
    obtain ⟨hstep, hen⟩ := hbmStackEnable_accepted haccepts
    obtain ⟨u, hu, hquiet, hbpm, hregs, hwin, hmem⟩ := hstep.answered
    exact ⟨u, hu, (congrArg (bit · 0) (hquiet.hbc_rd _ _)).trans hen, hbpm, hregs, hwin, hmem⟩
  case initDone =>
    intro s k hen
    have hstep : RegStep [hbcA k.val 0x040] s (s.setB (hbcA k.val 0x040) 0 true) :=
      (RegStep.refl s).setB _ _ (List.mem_singleton_self _)
    obtain ⟨u, hu, hquiet, hbpm, hregs, hwin, hmem⟩ := hstep.answered
    refine ⟨u, (congrArg (answer s) (if_pos hen)).trans hu, ?_, hbpm, hregs, hwin, hmem⟩
    exact (congrArg (bit · 0) ((hquiet.hbc_rd _ _).trans (rd_setB_same _ _ _ _))).trans (bit_setBit_same _ _ _ (by decide))
  case refresh =>
    intro s u b hlive
    have hissue := refreshBank_step b.val hlive
    have heff := refreshBank_live b.val hlive
    obtain ⟨v, hv, hquiet, hstep⟩ := hissue.hbmStep.answered
    refine ⟨v, hv, ?_, ?_, ?_, hstep.regsBut, hstep.winKept,
      hstep.memKept (hquiet.hbm.trans hissue.hbm) ((congrArg Bpm.descs hquiet.bpm).trans hissue.descs)⟩
    · rw [hquiet.bpm, heff, hbmCmd_openRow]
      exact setRow_openRow _ _ _
    · rw [hquiet.bpm, heff]
      exact hbmCmd_head _ _ _ _ _
    · rw [hquiet.bpm, hissue.hbmQ]
  case good =>
    intro s u r rest bad synd hlive hnext hgood
    have hissued := issued_shows s u.val r rest
    obtain ⟨v, hv, hquiet, hstep⟩ := hissued.step.answered
    have heff : s.serve u.val bad synd.toNat = s.issued u.val r rest := by
      rw [serve_live bad synd.toNat hlive hnext, if_pos hgood]
    refine ⟨v, (congrArg (answer s) heff).trans hv, ?_, ?_, ?_, hstep.regsBut, hstep.winKept,
      hstep.memKept (hquiet.hbm.trans hissued.hbm) ((congrArg Bpm.descs hquiet.bpm).trans hissued.descs)⟩
    · exact (congrArg (fun b => b.hbmQ.at [] u.val) hquiet.bpm).trans hissued.hbmQueue
    · rw [hquiet.bpm, hissued.row]
    · rw [hquiet.bpm, hissued.cells]
  case corrected =>
    intro s u r rest synd hlive hnext hread
    have hissued := issued_shows s u.val r rest
    have hcounted := corrected_counts (s.issued u.val r rest) u.val r.addr
    have heff : s.serve u.val 1 synd.toNat = (s.issued u.val r rest).corrected u.val r.addr := by
      rw [serve_live 1 synd.toNat hlive hnext, if_neg (by rw [hread]; decide), if_pos rfl]
    obtain ⟨v, hv, hquiet, hstep⟩ := ((hissued.step.mono (List.nil_subset _)).trans hcounted.step).answered
    refine ⟨v, (congrArg (answer s) heff).trans hv, ?_, ?_, ?_, ?_, hstep.winKept, hstep.memKept ?_ ?_⟩
    · exact (congrArg (fun q => q.at [] u.val) ((congrArg Bpm.hbmQ hquiet.bpm).trans hcounted.hbmQ)).trans hissued.hbmQueue
    · rw [hquiet.hbc_rd, hcounted.count, hissued.hbc_rd]
    · exact (slotFrozen_of_rd (hstep.pastSta_rd (hbcA_pastSta _ _) (freezeSum_not_mem_correctedRegs u.val))).trans
        (slotFrozen_of_live hlive)
    · exact (hstep.mono (List.cons_subset_cons _ (List.cons_subset_cons _ (by decide)))).regsBut
    · exact hquiet.hbm.trans (hcounted.hbm.trans hissued.hbm)
    · exact (congrArg Bpm.descs hquiet.bpm).trans (hcounted.descs.trans hissued.descs)
  case uncorrectable =>
    intro s u r rest bad synd hlive hnext hread hbad hclear
    have heff : s.serve u.val bad synd.toNat = (s.issued u.val r rest).freezeSlot u.val 1 r.addr synd.toNat [r] := by
      rw [serve_live bad synd.toNat hlive hnext, if_neg (not_or.mpr ⟨by rw [hread]; decide, by omega⟩),
        if_neg (by omega)]
    have hlost := issued_lost (r := r) rest synd u.isLt hlive hclear
    obtain ⟨v, hv, hquiet, hstep⟩ := hlost.step.answered
    refine ⟨v, (congrArg (answer s) heff).trans hv, ?_, ?_, (hquiet.hbc_rd _ _).trans hlost.info,
      (hquiet.hbc_rd _ _).trans hlost.place, (hquiet.hbc_rd _ _).trans hlost.syndrome, hquiet.raised _ _ hlost.raised, hstep.winKept, hstep.hostBut, hstep.sramBut⟩
    · exact (slotFrozen_of_rd (hquiet.hbc_rd _ _)).trans hlost.frozen
    · exact (congrArg (fun b => b.hbmQ.at [] u.val) hquiet.bpm).trans (hbmQueue_of_noRequests hlost.empty)
  case temperature =>
    intro s k temp
    obtain ⟨htemp, hhot⟩ := stackTemp_shows s k.val temp
    obtain ⟨u, hu, hquiet, -, hregs, hwin, hmem⟩ := (stackTemp_step s k.val temp).answered
    exact ⟨u, hu, (congrArg (fld · 15 8) (hquiet.hbc_rd _ _)).trans htemp, (congrArg (bit · 16) (hquiet.hbc_rd _ _)).trans hhot,
      hregs, hwin, hmem⟩

end Sys2Proof

/-! ## A slot that freezes with a capture record queued (R299, R375)

The writes that a freeze discards may be those of a capture record. The record then counts as lost instead of written, in two
registers of MIR. -/

namespace Sys2Proof.Machine

/-- A running device with stack 0 enabled and MIR capturing into a ring of 10,240 records, with one record in capture queue 0. -/
def captureState : State :=
  { pmu := { por := true, enCore := true }, hif := { linkUp := true },
    regs := [(topA 0x048, 2), (mirA 0x044, 1), (mirA 0x04C, 1), (hbcA 0 0x044, 1)],
    mir := { queues := [(0, [{ bytes := List.replicate 192 0 }])] } }

/-- MIR has written the record; the requests of the write wait at slot 0. -/
def captureQueuedState : State := captureState.capWrite

/-- Slot 0 is live, and nothing has been captured of it. -/
theorem captureQueuedState_live :
    captureQueuedState.slotLive 0 = true ∧ captureQueuedState.b (hbcA 0 0x180) 31 = false := by decide +kernel

/-- The freeze takes the record's writes with it: one more record is lost. -/
theorem captureQueuedState_lost :
    captureQueuedState.rd (mirA 0x088) = 0 ∧ (captureQueuedState.freezeSlot 0 2 0 0).rd (mirA 0x088) = 1 := by decide +kernel

end Sys2Proof.Machine

namespace Sys2Proof

open Sys2Proof.Machine

/-- Refutes O38: its clause on PC_FREEZE has no register change outside the stack's page, SPR and BPM, and leaves out the capture
records whose writes the freeze discards. In `captureQueuedState`, which CAPTURE_RECORD_WRITE leaves of `captureState`, a record's
writes wait at slot 0: as the slot freezes by cause 2, MIR_CNT_HBM counts the record (R299, R375). -/
theorem not_hbmSlotsFreezeAndReturn : ¬ Obligations.HbmSlotsFreezeAndReturn := by
  unfold Obligations.HbmSlotsFreezeAndReturn
  rintro ⟨hfreeze, -⟩
  obtain ⟨hlive, hclear⟩ := captureQueuedState_live
  obtain ⟨hnone, hlost⟩ := captureQueuedState_lost
  obtain ⟨t, ht, -, -, -, -, hregs, -⟩ := hfreeze captureQueuedState 0 2 0 0 hlive (by decide) hclear
  have hstays : t.rd (mirA 0x088) = 0 := (hregs (mirA 0x088) (by decide) (by decide) (by decide)).trans hnone
  have heff : answer captureQueuedState (captureQueuedState.freezeSlot 0 2 0 0) = .next t := by
    rw [← ht]
    exact congrArg (answer captureQueuedState) (if_pos ⟨hlive, by decide⟩).symm
  rw [rd_of_answer heff (by decide), hlost] at hstays
  exact absurd hstays (by decide)

end Sys2Proof
